-- ==== Sys2Proof/Word.lean ====
section
/-! DEFINITION. The words of the Tadrin H48: a byte of shared RAM, of a card or of a line message, and a
16-bit register. Everything the manual counts (minutes, seconds, cents, serials) is a `Nat`. -/

namespace Sys2Proof

/-- One byte. -/
abbrev Byte := BitVec 8

/-- One 16-bit word: a register of 11.2, or a reading of a tray. -/
abbrev Half := BitVec 16

end Sys2Proof
end

