-- ==== Sys2Proof/Syntax.lean ====
section
/-! DEFINITION. The commands of the part: one constructor for each row of spec/opcode_table.json.

An order the table engine serves is named by the block it was posted in: its parameters are those copied at
intake (R169). An order judged at intake carries what the host posts. A reply carries its payload bytes, a bad one its
characters. -/

namespace Sys2Proof

/-- One byte the host writes into shared RAM: offset and value. -/
abbrev HostWrite := Nat × Byte

/-- A character as the receiver of a serial port finds it (R124): its data bits; the bit after them, read where the framing has
a parity; the one or two stop bits, set when found in the marking condition; and whether it arrived before the previous
character had been taken. -/
structure LineChar where
  data : Byte
  parity : Bool
  stop1 : Bool
  stop2 : Bool
  overrun : Bool
  deriving DecidableEq, Repr

/-- How far a start goes (R176, R177): begun and cut before its self-test; cut after step 1, 2 or 3; or run to its end. -/
inductive StartReach where
  | begun | tested | restored | journaled | ended
  deriving DecidableEq, Repr

/-- The course of a start: the seconds that pass in it unseen (R8), and how far it goes. -/
structure StartCourse where
  seconds : Nat
  reach : StartReach
  deriving DecidableEq, Repr

/-- What the self-test of a COLD start finds: shared RAM good, the clock crystal running (R177). -/
structure ColdTests where
  ramOk : Bool
  crystalOk : Bool
  deriving DecidableEq, Repr

/-- The steps of the part, one per row of the table of operations and events. -/
inductive Instr where
  -- orders served by the table engine (R171)
  | siteSetup (b : Fin 16)
  | setClock (b : Fin 16)
  | zoneSet (b : Fin 16)
  | roomSet (b : Fin 16)
  | checkout (b : Fin 16)
  | revoke (b : Fin 16)
  | unrevoke (b : Fin 16)
  -- orders judged at intake (R170): the block, the priority byte and the parameters P0 on that the host posts
  | issue (b : Fin 16) (prio : Byte) (params : List Byte)
  | readCard (b : Fin 16) (prio : Byte) (params : List Byte)
  | eraseCard (b : Fin 16) (prio : Byte) (params : List Byte)
  | minibarSet (b : Fin 16)
  | minibarScan (b : Fin 16)
  | dropSet (b : Fin 16)
  | lineSetup (b : Fin 16)
  | lineGo (b : Fin 16) (prio : Byte) (params : List Byte)
  | journalCut (b : Fin 16)
  | cancel (b : Fin 16)
  -- the host's register writes (R168); `writes` are its writes to shared RAM before this one
  | attentionLatchSet (writes : List HostWrite) (value : Half)
  | causeClear (value : Half)
  | maskWrite (value : Half)
  | startFlagsClear (value : Half)
  -- starts (R176, R177): what the self-test finds, and the start's course
  | softReset (value : Half) (tablesOk crystalOk : Bool) (course : StartCourse)
  | coldStart (tests : ColdTests) (reach : StartReach)
  | supplyStart (ramOk tablesOk crystalOk : Bool) (course : StartCourse)
  | pinStart (tablesOk crystalOk : Bool) (course : StartCourse)
  | mainSupplyFail
  -- time
  | secondsTick
  | clockEnd
  | departingWaitExpiry (room : Fin 48)
  | grantDeadlineExpiry (line : Fin 2) (addr : Fin 64)
  | doorHeld (line : Fin 2) (addr : Fin 64)
  | minibarDeadlineExpiry (room : Fin 48)
  | scanExpiry (room : Fin 48)
  | cardWaitExpiry
  -- the Journal Writer
  | journalWrite
  -- replies and events of a door line
  | nil (line : Fin 2)
  | cardRead (line : Fin 2) (image : List Byte)
  | doorState (line : Fin 2) (door bolt egress : Byte)
  | trayData (line : Fin 2) (first count : Byte) (readings : List Half)
  | ident (line : Fin 2) (kind fast : Byte)
  | ack (line : Fin 2)
  | badReply (line : Fin 2) (first : LineChar) (rest : List LineChar)
  | replyWindowExpiry (line : Fin 2)
  | broadcastWindowEnd (line : Fin 2)
  | longBreak (line : Fin 2)
  | wakeRequest (line : Fin 2) (millis : Nat)
  | faultWatchEnd (line : Fin 2)
  | faultWatchBreak (line : Fin 2)
  | wakeBreakEnd (line : Fin 2)
  | wakeSettleEnd (line : Fin 2)
  -- replies and events of the encoder port
  | cardState (card : Byte)
  | sensePace
  | image (bytes : List Byte)
  | readFail
  | done
  | writeFail
  | encoderBadReply (first : LineChar) (rest : List LineChar)
  | encoderReplyTimeout
  -- the clock crystal
  | clockCrystalStop
  deriving DecidableEq, Repr

end Sys2Proof
end

