-- ==== Sys2Proof/Config.lean ====
section
/-! DEFINITION. The limits the manual states, each once, and the model's one free value. -/

namespace Sys2Proof.Config

/-- The last minute of the clock (R5). -/
def lastMinute : Nat := 16777215

/-- Minutes of a day (00, Conventions). -/
def minutesPerDay : Nat := 1440

/-- The greatest charge and limit in cents (R116, R119). -/
def maxCharge : Nat := 999999

/-- Places of the holding queue open to any entry (R155). -/
def queueLimit : Nat := 32

/-- Length at which ROUTINE entries and the GAP entry stop being admitted, and at which the
journal interlock refuses (R155, R57). -/
def routineLimit : Nat := 28

/-- Places of the Revocation List (R69). -/
def revocationLimit : Nat := 64

/-- Places of a line's directed queue (8.6). -/
def directedLimit : Nat := 16

/-- The serial at which the counter stops (R32). -/
def serialLimit : Nat := 0xFFFFFFFF

/-- The base rate of a door line and its divisor (R125). -/
def baseRate : Nat := 9600

/-- See `baseRate`. -/
def baseDivisor : Nat := 95

/-- The fixed rate of the encoder port in baud (R83). -/
def encoderRate : Nat := 38400

/-- The modulus of the check word (R38). -/
def checkModulus : Nat := 65521

/-- A free value: a byte the manual does not state. Nothing can be proved of it. DESIGN CHOICE, log 10. -/
opaque freeByte : Nat → Byte

end Sys2Proof.Config
end

