-- ==== Sys2Proof/Machine/State.lean ====
section
/-! DEFINITION. Everything the manual gives the part to hold, block by block, and the state after reset. -/

namespace Sys2Proof.Machine

open Sys2Proof

/-! ## Codes (chapter 12.6); their numbers stand in Machine/Flags.lean -/

/-- Result codes of orders. -/
inductive Result where
  | ok | busy | badParam | notConfigured | roomState | roomsOccupied | noCopy | listFull | notNeeded | noCard
  | cardInUse | wrongCard | encoderSilent | spoilLimit | serialsExhausted | cancelled | notCancellable | notActive
  | unknownOrder | clockBackward | clockFault | badRate | lineState | lineFault | dropConflict | dropOffline
  | minibarBusy
  deriving DecidableEq, Repr

/-- Deny reasons (R52 to R58, R105 to R108). -/
inductive Deny where
  | notConfigured | badCheck | wrongSite | badClass | badWindow | clockNotSet | notYet | expired | revoked | wrongRoom
  | generationOld | notIssued | roomState | deadbolt | noZone | zoneClosed | classNotAllowed | journalFull
  | unboundDrop | noRight | limitReached | minibarBusy
  deriving DecidableEq, Repr

/-- Kinds of journal entries (10.1). -/
inductive EntryKind where
  | start | gap | clockSet | clockEnd | siteSet | zoneSet | roomState | cardIssued | cardSpoiled | cardErased | revoked
  | unrevoked | pruned | grant | deny | grantUndelivered | emergencyEntry | doorForced | doorHeld | doorHeldEnd
  | minibarOpen | minibarCharge | minibarForced | minibarRestocked | minibarFault | finalCharge | dropSilent
  | dropPresent | dropMismatch | unboundDrop | lineState | lineFault | wakeRequest
  deriving DecidableEq, Repr

/-- Kinds of orders. -/
inductive OrderKind where
  | siteSetup | setClock | zoneSet | roomSet | checkout | revoke | unrevoke | issue | readCard | eraseCard | minibarSet
  | minibarScan | dropSet | lineSetup | lineGo | journalCut | cancel
  deriving DecidableEq, Repr

/-- States of an order block (11.3). -/
inductive BlockState where
  | free | posted | taken | waiting | done
  deriving DecidableEq, Repr

/-- States of a journal descriptor (10.3). -/
inductive DescriptorState where
  | idle | armed | filling | ended | bad
  deriving DecidableEq, Repr

/-- End status of a journal descriptor (R162, R163). -/
inductive EndStatus where
  | none | full | alarmCut | cutByOrder
  deriving DecidableEq, Repr

/-- Classes of cards (R35). -/
inductive CardClass where
  | guest | staff | service | emergency
  deriving DecidableEq, Repr

/-- Self-test codes (R177). -/
inductive SelfTest where
  | ok | sharedRamFault | tablesLost | crystalFault
  deriving DecidableEq, Repr

/-! ## Clock and Site Unit (chapter 1) -/

/-- Site states (R1). -/
inductive SiteState where
  | unconfigured | configured
  deriving DecidableEq, Repr

/-- The site record (R1). -/
structure Site where
  state : SiteState
  code : Nat
  keyM : Nat
  keyN : Nat
  earlyGrace : Nat
  checkoutGrace : Nat
  heldLimit : Nat
  deriving DecidableEq, Repr

/-- Clock states (1.2). -/
inductive ClockState where
  | notSet | running | ended
  deriving DecidableEq, Repr

/-- The minute clock (R4). -/
structure Clock where
  state : ClockState
  minute : Nat
  second : Nat
  deriving DecidableEq, Repr

/-- Zone modes (1.3). -/
inductive ZoneMode where
  | scheduled | heldOpen | closed
  deriving DecidableEq, Repr

/-- A zone record (R11). -/
structure Zone where
  mode : ZoneMode
  openFrom : Nat
  openTo : Nat
  deriving DecidableEq, Repr

/-! ## Room Table (chapter 2) and Revocation List (chapter 5) -/

/-- Room states (2.2). -/
inductive RoomState where
  | unused | vacant | occupied | overstay | departing | outOfService
  deriving DecidableEq, Repr

/-- A room record (R15). Copy `c` is bit `c - 1` of `issued` (12). -/
structure Room where
  label : Nat
  state : RoomState
  generation : Nat
  issued : Byte
  stayUntil : Nat
  unscanned : Bool
  lastGrant : Option Nat
  wait : Nat
  deriving DecidableEq, Repr

/-- An entry of the Revocation List (R69). -/
inductive RevEntry where
  | guest (room : Fin 48) (generation : Nat) (copies : Byte)
  | staff (serial : Nat) (until_ : Nat)
  deriving DecidableEq, Repr

/-! ## Door Decision Unit (chapter 4) -/

/-- The door or gate leaf (4.1). -/
inductive Leaf where
  | closed | opened | unknown
  deriving DecidableEq, Repr

/-- The inside deadbolt (4.1). -/
inductive Bolt where
  | free | engaged | unknown
  deriving DecidableEq, Repr

/-- What the part has told the lock to do (4.1). -/
inductive Latch where
  | latched | granted | held | unknown
  deriving DecidableEq, Repr

/-- A grant whose OPEN is queued and not yet acknowledged or lost (4.1, 7.1). `room` is the card's room index as an
entry shows it (255 for none), which the GRANT_UNDELIVERED entry of R59 needs; log 14. -/
structure Grant where
  cls : CardClass
  serial : Nat
  seconds : Nat
  room : Nat
  deriving DecidableEq, Repr

/-- The door-side record of a DOOR or GATE drop (R47). -/
structure DoorSide where
  leaf : Leaf
  bolt : Bolt
  latch : Latch
  deadline : Option Nat
  pending : Option Grant
  heldCount : Nat
  timer : Bool
  alarm : Bool
  deriving DecidableEq, Repr

/-- A room's last deny pair (R50). -/
structure DenyPair where
  reason : Deny
  minute : Nat
  deriving DecidableEq, Repr

/-! ## Minibar Unit (chapter 7) -/

/-- A tray (7.1). `baseline` 0 is "not based". -/
structure Tray where
  unit : Nat
  price : Nat
  stock : Nat
  baseline : Nat
  taken : Nat
  base : Nat
  fault : Bool
  last : Option Nat
  deriving DecidableEq, Repr

/-- Minibar states (7.1). -/
inductive MinibarState where
  | offline | locked | granted | opened | scanning
  deriving DecidableEq, Repr

/-- Scan purposes (7.1). -/
inductive ScanPurpose where
  | afterClose | restock | final | host
  deriving DecidableEq, Repr

/-- A minibar record (R102). Tray `t` is bit `t` of `requested` and place `t` of `collected`. -/
structure Minibar where
  trayCount : Nat
  limit : Nat
  carried : Nat
  charge : Nat
  saturated : Bool
  overStock : Bool
  stayMark : Bool
  trays : Vector Tray 8
  state : MinibarState
  opener : Option CardClass
  pending : Option Grant
  deadline : Option Nat
  onClose : Option ScanPurpose
  purpose : Option ScanPurpose
  finalMark : Bool
  latchMark : Bool
  requested : Byte
  collected : Vector (Option Nat) 8
  scanCount : Nat
  deriving DecidableEq, Repr

/-! ## Line Controllers (chapters 8 and 9) -/

/-- Line states (9.1). -/
inductive LineState where
  | off | ready | survey | run | hush | wake | fault
  deriving DecidableEq, Repr

/-- Targets of LINE_GO (9.2). -/
inductive Target where
  | off | ready | survey | run | hush | surveyRun
  deriving DecidableEq, Repr

/-- Parities (R124). -/
inductive Parity where
  | none | even | odd | mark | space
  deriving DecidableEq, Repr

/-- Presences of a drop (R130). -/
inductive Presence where
  | absent | present | silent | mismatch
  deriving DecidableEq, Repr

/-- What an address is bound to (8.4). -/
inductive Binding where
  | door (room : Fin 48)
  | gate (zone : Fin 8)
  | minibar (room : Fin 48)
  deriving DecidableEq, Repr

/-- Directed messages with their payloads (R126). -/
inductive Directed where
  | openLock (seconds : Nat)
  | deny (cls : Nat)
  | hold
  | latch
  | scanAll
  | scanTray (tray : Nat)
  | stopScan
  deriving DecidableEq, Repr

/-- The block that asked for a directed message (8.6). -/
inductive Asker where
  | doorUnit | minibarUnit | zoneTable
  deriving DecidableEq, Repr

/-- A message of the directed queue (8.6). -/
structure QMsg where
  addr : Fin 64
  msg : Directed
  asker : Asker
  deriving DecidableEq, Repr

/-- An owed mark (8.4). -/
structure Owed where
  msg : Directed
  asker : Asker
  deriving DecidableEq, Repr

/-- A drop record (R134) with the door-side record of the drop, when it has one (R47). -/
structure Drop where
  binding : Option Binding
  openTime : Nat
  presence : Presence
  miss : Nat
  reported : Option Nat
  fast : Bool
  owed : Option Owed
  door : Option DoorSide
  deriving DecidableEq, Repr

/-- A report a POLL reply carried (R131, R133). -/
inductive Report where
  | cardRead (image : List Byte)
  | doorState (door bolt egress : Byte)
  | trayData (first : Nat) (readings : List Nat)
  deriving DecidableEq, Repr

/-- What an exchange sends (R126). -/
inductive LineMsg where
  | poll
  | identify
  | directed (m : QMsg)
  deriving DecidableEq, Repr

/-- An open exchange: the drop, the message, the attempts left after the one in hand, and the characters that one has received of a reply
not yet complete (R129). -/
structure Exchange where
  addr : Fin 64
  msg : LineMsg
  retries : Nat
  received : List LineChar := []
  deriving DecidableEq, Repr

/-- What a line is doing: nothing, an exchange, the silent window after a RATE broadcast (the rate it moves to, and
whether the probes are over) or after QUIET, the two parts of a wake, or the watch out of FAULT. -/
inductive Activity where
  | idle
  | exchange (x : Exchange)
  | rateWindow (rate divisor : Nat) (probed : Bool)
  | quietWindow
  | wakeBreak
  | wakeSettle
  | watch
  deriving DecidableEq, Repr

/-- The LINE_GO in progress on a line (R141). -/
structure GoMark where
  block : Fin 16
  target : Target
  deriving DecidableEq, Repr

/-- A drop that has come back and is owed an IDENTIFY, with the report held for it (R131). -/
structure Returning where
  addr : Fin 64
  report : Option Report
  deriving DecidableEq, Repr

/-- A line's setup (R137). `table` is the poll table: position `i` holds the `i`-th address. -/
structure Setup where
  parity : Parity
  stopBits : Nat
  retryLimit : Nat
  wakeFlag : Bool
  rate : Nat
  divisor : Nat
  table : List (Fin 64)
  deriving DecidableEq, Repr

/-- A door line. `queue` holds the waiting messages, oldest first; the message in exchange stands in `activity` and
keeps its place (8.6). `drops` is indexed by address; no drop has address 0. -/
structure Line where
  state : LineState
  mark : Option GoMark
  rate : Nat
  divisor : Nat
  setup : Setup
  pointer : Nat
  round : Nat
  queue : List QMsg
  activity : Activity
  returning : Option Returning
  drops : Vector Drop 64
  deriving DecidableEq, Repr

/-! ## Encoder Controller (chapter 6) -/

/-- Presence of the encoder port (R84). -/
inductive PortPresence where
  | notKnown | answering | silent
  deriving DecidableEq, Repr

/-- Encoder states (R84). -/
inductive EncState where
  | idle | sensing | working
  deriving DecidableEq, Repr

/-- ISSUE modes (R97). -/
inductive IssueMode where
  | newStay | addCopy | rewrite | staff
  deriving DecidableEq, Repr

/-- Kind and mode of an encoder order (6.2). -/
inductive EncJob where
  | issue (mode : IssueMode)
  | readCard
  | eraseCard
  deriving DecidableEq, Repr

/-- An encoder order with its context (6.2). `room` is the order's room in the GUEST modes. `found` is the image read
from the card in hand, `image` the image being written, `readData` the result of READ_CARD. -/
structure EncOrder where
  block : Fin 16
  priority : Nat
  intake : Nat
  paused : Bool
  job : EncJob
  room : Option (Fin 48)
  count : Nat
  cls : CardClass
  validFrom : Nat
  validUntil : Nat
  zoneMask : Byte
  rights : Byte
  rightsCleared : Byte
  cardWait : Nat
  noRetry : Bool
  force : Bool
  cardsDone : Nat
  spoilCount : Nat
  generation : Option Nat
  advanced : Bool
  waitCount : Nat
  cancelMark : Bool
  unfinished : Option Nat
  firstSerial : Option Nat
  lastSerial : Option Nat
  copies : Byte
  copy : Nat
  image : List Byte
  found : Option (List Byte)
  readData : List Byte
  deriving DecidableEq, Repr

/-- Messages to the encoder (6.1). -/
inductive EncMsg where
  | sense
  | read
  | write (bytes : List Byte)
  | eject (reject : Bool)
  deriving DecidableEq, Repr

/-- An open encoder exchange: the message, the attempts left after the one in hand, and the characters that one has received of a reply
not yet complete (R83). -/
structure EncExchange where
  msg : EncMsg
  retries : Nat
  received : List LineChar := []
  deriving DecidableEq, Repr

/-- Where the card in hand stands (6.3): sensing, read, written (the attempt), read back (the attempt), spoiled
(the cause), ejected after it was verified, or ejected with the order's end known. -/
inductive Stage where
  | none
  | sensing
  | reading
  | writing (attempt : Nat)
  | verifying (attempt : Nat)
  | spoilWrite (cause : Nat)
  | spoilEject (cause : Nat)
  | ejectVerified
  | ejectEnd (result : Result)
  deriving DecidableEq, Repr

/-- The Encoder Controller. `paceDue` says that the 200 ms pace ran out while a SENSE exchange was open (R89). -/
structure Encoder where
  presence : PortPresence
  state : EncState
  running : Option EncOrder
  waiting : List EncOrder
  exchange : Option EncExchange
  stage : Stage
  paceDue : Bool
  deriving DecidableEq, Repr

/-! ## Journal Writer (chapter 10) -/

/-- A journal entry (10.1). `place` is the byte of 12.3. -/
structure Entry where
  sequence : Nat
  minute : Nat
  second : Nat
  kind : EntryKind
  place : Nat
  room : Nat
  reason : Nat
  subject : Nat
  value : Nat
  deriving DecidableEq, Repr

/-- The FILLING descriptor and the Journal Writer's own copy of its fields (R159, R161); the two sequences are 0 until
an entry is written. -/
structure Filling where
  index : Fin 4
  cutOnAlarm : Bool
  capacity : Nat
  offset : Nat
  written : Nat
  firstSeq : Nat
  lastSeq : Nat
  deriving DecidableEq, Repr

/-- The Journal Writer (10.2, R160). -/
structure Journal where
  queue : List Entry
  gap : Nat
  sequence : Nat
  cursor : Fin 4
  filling : Option Filling
  deriving DecidableEq, Repr

/-! ## Window Controller (chapter 11) -/

/-- Who holds an order (R169): the table engine's waiting list, the Room Table (a taken CHECKOUT), the Minibar
Unit (a taken MINIBAR_SCAN), the Encoder Controller, or a Line Controller. -/
inductive Owner where
  | engine
  | roomTable (room : Fin 48)
  | minibarUnit (room : Fin 48)
  | encoder
  | line (n : Fin 2)
  deriving DecidableEq, Repr

/-- An entry of the held list (R169), with the parameters copied at intake. -/
structure Held where
  block : Fin 16
  kind : OrderKind
  priority : Nat
  intake : Nat
  owner : Owner
  params : List Byte
  deriving DecidableEq, Repr

/-- Shared RAM (R167): address and byte, addresses rising, no byte 0; an unlisted address reads 0. -/
abbrev Memory := List Host.Cell

/-- The state of the part. `pending` is the queue of commands, first in, first out; `freeCount` counts the free
values drawn (log 10); every other field is the manual's. `mirrorsStand` marks that step 2 of
the last start has been made, which writes the mirrors (R174, R177; log 50). `engine` is the block of the order the table engine has taken from
its list and serves (R171). -/
structure State where
  pending : List Instr
  powered : Bool
  ready : Bool
  latch : Bool
  cause : Half
  mask : Half
  startFlags : BitVec 4
  selfTest : SelfTest
  ram : Memory
  mirrorsStand : Bool
  siteCount : Half
  roomCounts : Vector Half 48
  held : List Held
  engine : Option (Fin 16)
  intakeNext : Nat
  site : Site
  clock : Clock
  crystalRuns : Bool
  crystalFault : Bool
  tableCheck : Bool
  zones : Vector Zone 8
  rooms : Vector Room 48
  serial : Nat
  revs : List RevEntry
  lastDeny : Vector (Option DenyPair) 48
  minibars : Vector Minibar 48
  encoder : Encoder
  lines : Vector Line 2
  journal : Journal
  freeCount : Nat
  deriving DecidableEq, Repr

/-! ## Why a step can stop -/

/-- Faults: none. No rule of the manual stops the part with an error it does not go on from (SHARED_RAM_FAULT of
R177 is a state the part waits in). Safe: nothing is left out. -/
inductive Fault where
  deriving DecidableEq, Repr

/-- Refusals. -/
inductive Refusal where
  /-- Raised by `exec` alone, for a command that has no meaning yet. No arm raises it now. Safe: nothing is claimed
  of such a command. -/
  | notModelled (mnemonic : String)
  deriving DecidableEq, Repr

/-! ## The values of a COLD start, each where the manual gives it -/

/-- R1. -/
def Site.cold : Site :=
  { state := .unconfigured, code := 0, keyM := 0, keyN := 0, earlyGrace := 0, checkoutGrace := 0, heldLimit := 60 }

/-- R8. -/
def Clock.cold : Clock := { state := .notSet, minute := 0, second := 0 }

/-- R11. -/
def Zone.cold : Zone := { mode := .closed, openFrom := 0, openTo := 0 }

/-- R15. -/
def Room.cold : Room :=
  { label := 0, state := .unused, generation := 0, issued := 0, stayUntil := 0, unscanned := false,
    lastGrant := none, wait := 0 }

/-- R47: door, bolt and latch UNKNOWN, nothing pending. -/
def DoorSide.unknown : DoorSide :=
  { leaf := .unknown, bolt := .unknown, latch := .unknown, deadline := none, pending := none, heldCount := 0,
    timer := false, alarm := false }

/-- R102. -/
def Tray.cold : Tray :=
  { unit := 0, price := 0, stock := 0, baseline := 0, taken := 0, base := 0, fault := false, last := none }

/-- R102. -/
def Minibar.cold : Minibar :=
  { trayCount := 0, limit := 0, carried := 0, charge := 0, saturated := false, overStock := false, stayMark := false,
    trays := Vector.replicate 8 Tray.cold, state := .offline, opener := none, pending := none, deadline := none,
    onClose := none, purpose := none, finalMark := false, latchMark := false, requested := 0,
    collected := Vector.replicate 8 none, scanCount := 0 }

/-- R137. -/
def Setup.cold : Setup :=
  { parity := .even, stopBits := 1, retryLimit := 2, wakeFlag := false, rate := Config.baseRate,
    divisor := Config.baseDivisor, table := [] }

/-- R134. -/
def Drop.cold : Drop :=
  { binding := none, openTime := 5, presence := .absent, miss := 0, reported := none, fast := false, owed := none,
    door := none }

/-- R125, R137, R139, R141. Pointer and round count 0: DESIGN CHOICE, log 2. -/
def Line.cold : Line :=
  { state := .off, mark := none, rate := Config.baseRate, divisor := Config.baseDivisor, setup := Setup.cold,
    pointer := 0, round := 0, queue := [], activity := .idle, returning := none,
    drops := Vector.replicate 64 Drop.cold }

/-- R101. -/
def Encoder.cold : Encoder :=
  { presence := .notKnown, state := .idle, running := none, waiting := [], exchange := none, stage := .none,
    paceDue := false }

/-- R166. -/
def Journal.cold : Journal := { queue := [], gap := 0, sequence := 0, cursor := 3, filling := none }

/-- The START entry of a COLD start whose self-test is OK (R166): the value holds the flags (COLD alone) in its
high byte and the code OK in its low byte. -/
def Entry.coldStart : Entry :=
  { sequence := 0, minute := 0, second := 0, kind := .start, place := 0xFF, room := 255, reason := 0, subject := 0,
    value := 0x0100 }

/-- Shared RAM after a COLD start (R167, R174, R177): all 0 but for the mirrors. The site mirror's count is 4 (2 by
R174, 2 for the queue length by R155); it shows both lines at 9,600, one entry in the queue and serial 1. Each room mirror's
count is 2, and the presence of its two drops reads 4 (12.4). -/
def resetRam : Memory :=
  [(0x440, 4), (0x44A, 0x80), (0x44B, 0x25), (0x44E, 0x80), (0x44F, 0x25), (0x452, 0x80), (0x453, 0x25),
   (0x456, 0x80), (0x457, 0x25), (0x45C, 1), (0x460, 1)] ++
  (List.range 48).flatMap fun r =>
    [(0x480 + 32 * r, 2), (0x480 + 32 * r + 25, 4), (0x480 + 32 * r + 27, 4)]

/-- The part after a COLD start that found nothing wrong (R176, R177), its queue of commands empty. Log 1. -/
def State.reset : State :=
  { pending := [], powered := true, ready := true, latch := false, cause := 0x0010, mask := 0, startFlags := 1,
    selfTest := .ok, ram := resetRam, mirrorsStand := true, siteCount := 4, roomCounts := Vector.replicate 48 2, held := [],
    engine := none, intakeNext := 0, site := Site.cold, clock := Clock.cold, crystalRuns := true, crystalFault := false,
    tableCheck := true, zones := Vector.replicate 8 Zone.cold, rooms := Vector.replicate 48 Room.cold, serial := 1,
    revs := [], lastDeny := Vector.replicate 48 none, minibars := Vector.replicate 48 Minibar.cold,
    encoder := Encoder.cold, lines := Vector.replicate 2 Line.cold,
    journal := { Journal.cold with queue := [Entry.coldStart], sequence := 1 }, freeCount := 0 }

end Sys2Proof.Machine
end

