-- ==== Sys2Proof/Machine/Flags.lean ====
section
/-! DEFINITION. The numbers of every code (12.6), the bits of the registers (11.2), the classes of entries and
of deny reasons, and the flag bytes of results and mirrors (12.2, 12.4). -/

namespace Sys2Proof.Machine

open Sys2Proof

/-! ## Code values (12.6) -/

/-- Result codes (12.6). -/
def Result.code : Result → Nat
  | .ok => 0 | .busy => 1 | .badParam => 2 | .notConfigured => 3 | .roomState => 4 | .roomsOccupied => 5
  | .noCopy => 6 | .listFull => 7 | .notNeeded => 8 | .noCard => 9 | .cardInUse => 10 | .wrongCard => 11
  | .encoderSilent => 12 | .spoilLimit => 13 | .serialsExhausted => 14 | .cancelled => 15 | .notCancellable => 16
  | .notActive => 17 | .unknownOrder => 18 | .clockBackward => 19 | .clockFault => 20 | .badRate => 21
  | .lineState => 22 | .lineFault => 23 | .dropConflict => 24 | .dropOffline => 25 | .minibarBusy => 26

/-- Deny reasons (12.6). -/
def Deny.code : Deny → Nat
  | .notConfigured => 1 | .badCheck => 2 | .wrongSite => 3 | .badClass => 4 | .badWindow => 5 | .clockNotSet => 6
  | .notYet => 7 | .expired => 8 | .revoked => 9 | .wrongRoom => 10 | .generationOld => 11 | .notIssued => 12
  | .roomState => 13 | .deadbolt => 14 | .noZone => 15 | .zoneClosed => 16 | .classNotAllowed => 17
  | .journalFull => 18 | .unboundDrop => 19 | .noRight => 20 | .limitReached => 21 | .minibarBusy => 22

/-- The deny class sent with DENY, which chooses the light (R58, R108). -/
def Deny.cls : Deny → Nat
  | .badCheck | .wrongSite | .badClass | .badWindow | .revoked | .generationOld | .notIssued | .wrongRoom
  | .noRight => 1
  | .notYet | .expired | .zoneClosed | .noZone | .clockNotSet => 2
  | .roomState | .deadbolt | .classNotAllowed | .limitReached | .minibarBusy => 3
  | .notConfigured | .unboundDrop | .journalFull => 4

/-- Entry kinds (12.6). -/
def EntryKind.code : EntryKind → Nat
  | .start => 1 | .gap => 2 | .clockSet => 3 | .clockEnd => 4 | .siteSet => 5 | .zoneSet => 6 | .roomState => 7
  | .cardIssued => 8 | .cardSpoiled => 9 | .cardErased => 10 | .revoked => 11 | .unrevoked => 12 | .pruned => 13
  | .grant => 14 | .deny => 15 | .grantUndelivered => 16 | .emergencyEntry => 17 | .doorForced => 18
  | .doorHeld => 19 | .doorHeldEnd => 20 | .minibarOpen => 21 | .minibarCharge => 22 | .minibarForced => 23
  | .minibarRestocked => 24 | .minibarFault => 25 | .finalCharge => 26 | .dropSilent => 27 | .dropPresent => 28
  | .dropMismatch => 29 | .unboundDrop => 30 | .lineState => 31 | .lineFault => 32 | .wakeRequest => 33

/-- The ALARM kinds; every other kind is ROUTINE (R154). -/
def EntryKind.isAlarm : EntryKind → Bool
  | .emergencyEntry | .doorForced | .doorHeld | .minibarForced | .lineFault => true
  | _ => false

/-- Order kinds (12.6). -/
def OrderKind.code : OrderKind → Nat
  | .siteSetup => 1 | .setClock => 2 | .zoneSet => 3 | .roomSet => 4 | .checkout => 5 | .revoke => 6
  | .unrevoke => 7 | .issue => 8 | .readCard => 9 | .eraseCard => 10 | .minibarSet => 11 | .minibarScan => 12
  | .dropSet => 13 | .lineSetup => 14 | .lineGo => 15 | .journalCut => 16 | .cancel => 17

/-- The order kind a kind byte names, if any (R170, R178). -/
def OrderKind.ofCode : Nat → Option OrderKind
  | 1 => some .siteSetup | 2 => some .setClock | 3 => some .zoneSet | 4 => some .roomSet | 5 => some .checkout
  | 6 => some .revoke | 7 => some .unrevoke | 8 => some .issue | 9 => some .readCard | 10 => some .eraseCard
  | 11 => some .minibarSet | 12 => some .minibarScan | 13 => some .dropSet | 14 => some .lineSetup
  | 15 => some .lineGo | 16 => some .journalCut | 17 => some .cancel
  | _ => none

/-- Block states (12.6). -/
def BlockState.code : BlockState → Byte
  | .free => 0 | .posted => 1 | .taken => 2 | .waiting => 3 | .done => 4

/-- Descriptor states (12.6). -/
def DescriptorState.code : DescriptorState → Byte
  | .idle => 0 | .armed => 1 | .filling => 2 | .ended => 3 | .bad => 4

/-- End status (12.6). -/
def EndStatus.code : EndStatus → Byte
  | .none => 0 | .full => 1 | .alarmCut => 2 | .cutByOrder => 3

/-- Card classes (12.6). -/
def CardClass.code : CardClass → Nat
  | .guest => 1 | .staff => 2 | .service => 3 | .emergency => 4

/-- The class a class byte names, if any (R35). -/
def CardClass.ofCode : Nat → Option CardClass
  | 1 => some .guest | 2 => some .staff | 3 => some .service | 4 => some .emergency
  | _ => none

/-- Self-test codes (12.6). -/
def SelfTest.code : SelfTest → Nat
  | .ok => 0 | .sharedRamFault => 1 | .tablesLost => 2 | .crystalFault => 3

/-- Site states (12.6). -/
def SiteState.code : SiteState → Nat
  | .unconfigured => 0 | .configured => 1

/-- Clock states (12.6). -/
def ClockState.code : ClockState → Nat
  | .notSet => 0 | .running => 1 | .ended => 2

/-- Zone modes (12.6). -/
def ZoneMode.code : ZoneMode → Nat
  | .scheduled => 0 | .heldOpen => 1 | .closed => 2

/-- The zone mode a mode byte names, if any. -/
def ZoneMode.ofCode : Nat → Option ZoneMode
  | 0 => some .scheduled | 1 => some .heldOpen | 2 => some .closed
  | _ => none

/-- Room states (12.6). -/
def RoomState.code : RoomState → Nat
  | .unused => 0 | .vacant => 1 | .occupied => 2 | .overstay => 3 | .departing => 4 | .outOfService => 5

/-- Minibar states (12.6). -/
def MinibarState.code : MinibarState → Nat
  | .offline => 0 | .locked => 1 | .granted => 2 | .opened => 3 | .scanning => 4

/-- Scan purposes as a MINIBAR_CHARGE reason (12.6). -/
def ScanPurpose.code : ScanPurpose → Nat
  | .afterClose => 1 | .restock => 2 | .final => 3 | .host => 4

/-- Line states (12.6). -/
def LineState.code : LineState → Nat
  | .off => 0 | .ready => 1 | .survey => 2 | .run => 3 | .hush => 4 | .wake => 5 | .fault => 6

/-- The LINE_GO target a byte names, if any (12.6). -/
def Target.ofCode : Nat → Option Target
  | 0 => some .off | 1 => some .ready | 2 => some .survey | 3 => some .run | 4 => some .hush | 7 => some .surveyRun
  | _ => none

/-- The parity a byte names, if any (12.6). -/
def Parity.ofCode : Nat → Option Parity
  | 0 => some .none | 1 => some .even | 2 => some .odd | 3 => some .mark | 4 => some .space
  | _ => none

/-- Presences (12.6). -/
def Presence.code : Presence → Nat
  | .absent => 0 | .present => 1 | .silent => 2 | .mismatch => 3

/-- The drop kind of a binding as IDENT names it: DOOR 1, GATE 2, MINIBAR 3 (12.6). -/
def Binding.kindCode : Binding → Nat
  | .door _ => 1 | .gate _ => 2 | .minibar _ => 3

/-- Door values (12.6). -/
def Leaf.code : Leaf → Nat
  | .closed => 0 | .opened => 1 | .unknown => 2

/-- Bolt values (12.6). -/
def Bolt.code : Bolt → Nat
  | .free => 0 | .engaged => 1 | .unknown => 2

/-- Encoder states (12.6). -/
def EncState.code : EncState → Nat
  | .idle => 0 | .sensing => 1 | .working => 2

/-- Encoder presences (12.6). -/
def PortPresence.code : PortPresence → Nat
  | .notKnown => 0 | .answering => 1 | .silent => 2

/-! ## Flag bytes and sets (12, 12.2, 12.4) -/

/-- A flag is 1 when set (12). -/
def flagBit (b : Bool) : Nat := if b then 1 else 0

/-- Where an entry's value holds two items, the first is the high byte and the second the low byte (12). -/
def twoItems (high low : Nat) : Nat := high * 256 + low

/-- The set of `n` first trays or copies, as a byte. -/
def firstBits (n : Nat) : Byte := BitVec.ofNat 8 (2 ^ n - 1)

/-- The byte of a set given by a test of its members 0..7. -/
def setOf (p : Nat → Bool) : Byte :=
  BitVec.ofNat 8 (((List.range 8).map fun i => if p i then 2 ^ i else 0).sum)

/-- Whether a copy byte of a card names a copy of the set: copy `c`, 1..8, is bit `c - 1` (12, R34). -/
def copyIn (mask : Byte) (copy : Nat) : Bool := decide (1 ≤ copy ∧ copy ≤ 8) && mask.getLsbD (copy - 1)

/-- The set that holds one copy. -/
def copyBit (copy : Nat) : Byte := BitVec.ofNat 8 (2 ^ (copy - 1))

/-- How many members a set has. -/
def setSize (mask : Byte) : Nat := ((List.range 8).filter fun i => mask.getLsbD i).length

/-- The lowest copy 1..8 that is not in the set (R88). -/
def lowestFreeCopy (mask : Byte) : Option Nat :=
  ((List.range 8).map (· + 1)).find? fun c => !copyIn mask c

/-- Minibar flags of a result: bit 0 CHARGE_SATURATED, bit 1 OVER_STOCK (12.2 note 1). -/
def Minibar.flags (m : Minibar) : Nat := flagBit m.saturated + 2 * flagBit m.overStock

/-- Trays whose fault is set (R102). -/
def Minibar.faults (m : Minibar) : Byte := setOf fun t => if h : t < 8 then m.trays[t].fault else false

/-! ## Registers (11.2) -/

/-- CAUSE and MASK bits (11.2). -/
def causeOrderDone : Half := 0x0001
/-- See `causeOrderDone`. -/
def causeJournal : Half := 0x0002
/-- See `causeOrderDone`. -/
def causeAlarm : Half := 0x0004
/-- See `causeOrderDone`. -/
def causeLine : Half := 0x0008
/-- See `causeOrderDone`. -/
def causeStart : Half := 0x0010
/-- The bits CAUSE and MASK name; the others read 0 and writes to them are not taken (11.2). -/
def causeBits : Half := 0x001F

/-- Start flags: bit 0 COLD, bit 1 SUPPLY, bit 2 PIN, bit 3 SOFT (11.2). -/
def flagCold : BitVec 4 := 1
/-- See `flagCold`. -/
def flagSupply : BitVec 4 := 2
/-- See `flagCold`. -/
def flagPin : BitVec 4 := 4
/-- See `flagCold`. -/
def flagSoft : BitVec 4 := 8

/-- The interrupt line is asserted while CAUSE and MASK share a set bit (R168). -/
def State.interrupt (s : State) : Bool := decide (s.cause &&& s.mask ≠ 0)

/-- ATTN as the host reads it (R168). -/
def State.readAttn (s : State) : Nat := flagBit s.latch

/-- START as the host reads it: flags in bits 0 to 3, code in bits 8 to 11, READY in bit 15 (11.2). -/
def State.readStart (s : State) : Nat :=
  s.startFlags.toNat + s.selfTest.code * 256 + flagBit s.ready * 32768

/-- The registers as the host reads them, by offset; bits not named read 0 and CONTROL reads 0 (11.2, R168). -/
def State.readRegister (s : State) (offset : Nat) : Nat :=
  if offset = 0x8000 then s.readAttn
  else if offset = 0x8002 then s.cause.toNat
  else if offset = 0x8004 then s.mask.toNat
  else if offset = 0x8008 then s.readStart
  else 0

/-! ## Clock readings -/

/-- "now": the minute count (R4, R5). -/
def State.now (s : State) : Nat := s.clock.minute

/-- A minute is known: the clock is RUNNING or ENDED. -/
def Clock.isSet (c : Clock) : Bool := c.state != .notSet

/-- The zone test: whether the zone is open to guests (R12). -/
def Zone.isOpen (z : Zone) (c : Clock) : Bool :=
  let d := c.minute % Config.minutesPerDay
  match z.mode with
  | .closed => false
  | .heldOpen => true
  | .scheduled =>
    c.isSet &&
      (if z.openFrom < z.openTo then decide (z.openFrom ≤ d ∧ d < z.openTo)
       else if z.openTo < z.openFrom then decide (z.openFrom ≤ d ∨ d < z.openTo)
       else true)

/-- OCCUPIED or OVERSTAY: a stay whose copies and revocations count (R21, R26, R74). -/
def RoomState.inStay : RoomState → Bool
  | .occupied | .overstay => true
  | _ => false

/-- OCCUPIED, OVERSTAY or DEPARTING: the states that refuse a re-keying SITE_SETUP (R2). -/
def RoomState.inHouse : RoomState → Bool
  | .occupied | .overstay | .departing => true
  | _ => false

end Sys2Proof.Machine
end

