-- ==== Sys2Proof/Machine/Operands.lean ====
section
/-! DEFINITION. How operands are read and written: bytes of shared RAM (little-endian), card images and line
payloads (big-endian), the parameters of each order (12.2), the messages of the lines and the encoder (12.5), and the
arithmetic of rates (R125). -/

namespace Sys2Proof.Machine

open Sys2Proof

/-! ## Bytes -/

/-- The low byte of a number. -/
def byteOf (n : Nat) : Byte := BitVec.ofNat 8 n

/-- `k` bytes of a number, least significant first: shared RAM and registers (00, Conventions). -/
def leBytes : Nat → Nat → List Byte
  | 0, _ => []
  | k + 1, n => byteOf n :: leBytes k (n / 256)

/-- `k` bytes of a number, most significant first: card images and line payloads (12). -/
def beBytes (k n : Nat) : List Byte := (leBytes k n).reverse

/-- The number little-endian bytes hold. -/
def leNat : List Byte → Nat
  | [] => 0
  | b :: bs => b.toNat + 256 * leNat bs

/-- The number big-endian bytes hold. -/
def beNat (bs : List Byte) : Nat := leNat bs.reverse

/-- Bytes `i` to `i + n - 1`; a byte past the end reads 0. -/
def bytesAt (bs : List Byte) (i n : Nat) : List Byte := (List.range n).map fun k => bs.getD (i + k) 0

/-- A little-endian field of `n` bytes at `i`. -/
def leAt (bs : List Byte) (i n : Nat) : Nat := leNat (bytesAt bs i n)

/-- A big-endian field of `n` bytes at `i`. -/
def beAt (bs : List Byte) (i n : Nat) : Nat := beNat (bytesAt bs i n)

/-- A list brought to exactly `n` bytes, with 0 in the unused tail (R180). -/
def padTo (n : Nat) (bs : List Byte) : List Byte := bytesAt bs 0 n

/-- An index below `n`, if the number is one. -/
def asFin (n k : Nat) : Option (Fin n) := if h : k < n then some ⟨k, h⟩ else none

/-- A value brought to the nearer end of a range (00, Conventions). -/
def clampTo (low high n : Nat) : Nat := if n < low then low else if high < n then high else n

/-! ## Card image (R34, 12.1) -/

/-- The site code, bytes 0 and 1. -/
def cardSite (c : List Byte) : Nat := beAt c 0 2
/-- The class byte. -/
def cardClass (c : List Byte) : Nat := beAt c 2 1
/-- The room index byte. -/
def cardRoom (c : List Byte) : Nat := beAt c 3 1
/-- The generation byte. -/
def cardGeneration (c : List Byte) : Nat := beAt c 4 1
/-- The copy byte. -/
def cardCopy (c : List Byte) : Nat := beAt c 5 1
/-- The serial, bytes 6 to 9. -/
def cardSerial (c : List Byte) : Nat := beAt c 6 4
/-- valid-from, bytes 10 to 12. -/
def cardFrom (c : List Byte) : Nat := beAt c 10 3
/-- valid-until, bytes 13 to 15. -/
def cardUntil (c : List Byte) : Nat := beAt c 13 3
/-- The zone mask, byte 16. -/
def cardZones (c : List Byte) : Byte := c.getD 16 0
/-- The rights, byte 17. -/
def cardRights (c : List Byte) : Byte := c.getD 17 0
/-- The stored check word, bytes 18 and 19. -/
def cardCheck (c : List Byte) : Nat := beAt c 18 2

/-- MINIBAR_OPEN (R36, 12.1). -/
def rightMinibarOpen : Byte := 1
/-- DEADBOLT_OVERRIDE (R36, 12.1). -/
def rightDeadbolt : Byte := 2
/-- RESTOCK (R36, 12.1). -/
def rightRestock : Byte := 4

/-- The rights the byte names; bits 3 to 7 name none (12.1, R36). -/
def namedRights : Byte := rightMinibarOpen ||| rightDeadbolt ||| rightRestock

/-- The right that belongs to a class (R36, R92). -/
def ownRight : CardClass → Byte
  | .guest => rightMinibarOpen
  | .staff => rightDeadbolt
  | .service => rightRestock
  | .emergency => 0

/-- Whether a card's rights hold a right. -/
def holdsRight (c : List Byte) (r : Byte) : Bool := cardRights c &&& r != 0

/-- The twenty bytes 0 of a blank card (R37). -/
def blankImage : List Byte := List.replicate 20 0

/-- The twenty bytes 0xEE of a spoiled card (R37). -/
def spoiledImage : List Byte := List.replicate 20 0xEE

/-- The image is blank (R37). -/
def isBlank (c : List Byte) : Bool := decide (c = blankImage)

/-- The image is spoiled: class byte 0xEE (R37). -/
def isSpoiled (c : List Byte) : Bool := decide (cardClass c = 0xEE)

/-- The room index an entry of a gate or an unbound drop shows: the card's when 0..47, else 255 (R59). -/
def shownRoom (c : List Byte) : Nat := if cardRoom c < 48 then cardRoom c else 255

/-! ## The check word (R38) -/

/-- The weighted sum W over bytes 0 to 17 (R38). -/
def weightedSum (c : List Byte) : Nat :=
  ((List.range 18).map fun i => (i + 1) * (c.getD i 0).toNat).sum

/-- The check word C of an image under keys M and N (R38). -/
def checkWord (keyM keyN : Nat) (c : List Byte) : Nat :=
  (weightedSum c * keyM + keyN) % Config.checkModulus

/-! ## Rates (R124, R125, R129) -/

/-- The reference crystal in Hz. -/
def referenceHz : Nat := 14745600

/-- The divisor of a requested rate (R125). -/
def divisorOf (rate : Nat) : Nat := (referenceHz + 8 * rate) / (16 * rate) - 1

/-- The actual rate of a divisor, whole baud rounded down (R125, 12.2). -/
def actualRate (divisor : Nat) : Nat := referenceHz / (16 * (divisor + 1))

/-- The 2% test, exact: the rate is refused when this holds (R125). -/
def rateTooFar (rate : Nat) : Bool :=
  let sent := 16 * (divisorOf rate + 1) * rate
  let diff := if sent ≤ referenceHz then referenceHz - sent else sent - referenceHz
  decide (sent < 50 * diff)

/-- Bits of a character: start, 8 data, parity unless NONE, stop bits (R124). -/
def Setup.characterBits (u : Setup) : Nat :=
  1 + 8 + (if u.parity = .none then 0 else 1) + u.stopBits

/-- The parity bit of a character, set for marking: none under NONE; under EVEN and ODD it makes the number of ones among the
data bits and itself even or odd. What EVEN, ODD, MARK and SPACE mean is the family's: PRESUMED, log 34. -/
def Parity.bitOf (p : Parity) (data : Byte) : Option Bool :=
  let ones := ((List.range 8).filter fun i => data.getLsbD i).length
  match p with
  | .none => Option.none
  | .even => some (decide (ones % 2 = 1))
  | .odd => some (decide (ones % 2 = 0))
  | .mark => some true
  | .space => some false

/-- A character a port sends: its data bits, its parity bit if any, and its number of stop bits (R124). -/
structure SentChar where
  data : Byte
  parity : Option Bool
  stopBits : Nat
  deriving DecidableEq, Repr

/-- The characters of a message under a line's framing (R124). -/
def Setup.characters (u : Setup) (bytes : List Byte) : List SentChar :=
  bytes.map fun b => { data := b, parity := u.parity.bitOf b, stopBits := u.stopBits }

/-- The characters of a message to the encoder: 8 data bits, even parity, 1 stop bit (R83). -/
def encoderCharacters (bytes : List Byte) : List SentChar :=
  bytes.map fun b => { data := b, parity := Parity.even.bitOf b, stopBits := 1 }

/-- A received character is in error: its parity bit does not match the parity chosen, a stop bit is spacing, or it overran the
one before (R124). -/
def charInError (parity : Parity) (stopBits : Nat) (c : LineChar) : Bool :=
  (match parity.bitOf c.data with
    | none => false
    | some bit => c.parity != bit) ||
  !c.stop1 || (decide (stopBits = 2) && !c.stop2) || c.overrun

/-- A character as a receiver finds it when nothing goes wrong (R124). -/
def soundChar (parity : Parity) (b : Byte) : LineChar :=
  { data := b, parity := (parity.bitOf b).getD false, stop1 := true, stop2 := true, overrun := false }

/-- A character of a reply is in error under a line's framing (R124, R127). -/
def Setup.anyInError (u : Setup) (chars : List LineChar) : Bool := chars.any (charInError u.parity u.stopBits)

/-- A character of a reply is in error at the encoder port (R83). -/
def encoderCharsInError (chars : List LineChar) : Bool := chars.any (charInError .even 1)

/-- Bit times of the reply window: 40 characters (R129). -/
def Setup.replyWindowBits (u : Setup) : Nat := 40 * u.characterBits

/-! ## Messages (R126, R127, R83, 12.5) -/

/-- Kinds of replies on a door line (R127). -/
inductive ReplyKind where
  | nil | cardRead | doorState | trayData | ident | ack
  deriving DecidableEq, Repr

/-- Their codes (12.5). -/
def ReplyKind.code : ReplyKind → Byte
  | .nil => 0x40 | .cardRead => 0x41 | .doorState => 0x42 | .trayData => 0x43 | .ident => 0x44 | .ack => 0x45

/-- The reply kind a kind byte names, if any. -/
def ReplyKind.ofCode (b : Byte) : Option ReplyKind :=
  [ReplyKind.nil, .cardRead, .doorState, .trayData, .ident, .ack].find? fun k => k.code == b

/-- A reply of a drop, with what its payload holds (R127, 12.5). -/
inductive Reply where
  | nil
  | cardRead (image : List Byte)
  | doorState (door bolt egress : Byte)
  | trayData (first count : Byte) (readings : List Half)
  | ident (kind fast : Byte)
  | ack
  deriving DecidableEq, Repr

/-- The kind of a reply (R127). -/
def Reply.kind : Reply → ReplyKind
  | .nil => .nil | .cardRead _ => .cardRead | .doorState _ _ _ => .doorState | .trayData _ _ _ => .trayData
  | .ident _ _ => .ident | .ack => .ack

/-- The payload of a reply; readings of two bytes each, most significant first (12.5). -/
def Reply.payload : Reply → List Byte
  | .nil | .ack => []
  | .cardRead image => image
  | .doorState door bolt egress => [door, bolt, egress]
  | .trayData first count readings => first :: count :: readings.flatMap fun r => beBytes 2 r.toNat
  | .ident kind fast => [kind, fast]

/-- The reply that a payload of a kind's length makes (12.5). -/
def ReplyKind.withPayload (k : ReplyKind) (p : List Byte) : Reply :=
  let at_ (i : Nat) : Byte := p.getD i 0
  match k with
  | .nil => .nil
  | .cardRead => .cardRead p
  | .doorState => .doorState (at_ 0) (at_ 1) (at_ 2)
  | .trayData =>
    .trayData (at_ 0) (at_ 1) ((List.range (at_ 1).toNat).map fun i => BitVec.ofNat 16 (beAt p (2 + 2 * i) 2))
  | .ident => .ident (at_ 0) (at_ 1)
  | .ack => .ack

/-- The kinds a sent message accepts (R126). -/
def LineMsg.accepts : LineMsg → ReplyKind → Bool
  | .poll, .nil | .poll, .cardRead | .poll, .doorState | .poll, .trayData => true
  | .identify, .ident => true
  | .directed _, .ack => true
  | _, _ => false

/-- The length of a reply fits its kind (R127). -/
def ReplyKind.lengthFits : ReplyKind → List Byte → Bool
  | .nil, p => p.length == 0
  | .cardRead, p => p.length == 20
  | .doorState, p => p.length == 3
  | .trayData, p =>
    let count := (p.getD 1 0).toNat
    decide (1 ≤ count ∧ count ≤ 8) && p.length == 2 + 2 * count
  | .ident, p => p.length == 2
  | .ack, p => p.length == 0

/-- The kind byte and payload of a directed message (12.5). -/
def Directed.kindAndPayload : Directed → Byte × List Byte
  | .openLock t => (0x02, [byteOf t])
  | .deny c => (0x03, [byteOf c])
  | .hold => (0x04, [])
  | .latch => (0x05, [])
  | .scanAll => (0x06, [0, 0])
  | .scanTray t => (0x06, [1, byteOf t])
  | .stopScan => (0x07, [])

/-- OPEN or DENY: the messages that are never made an owed mark (R139). -/
def Directed.isOpenOrDeny : Directed → Bool
  | .openLock _ | .deny _ => true
  | _ => false

/-- An OPEN (R139, R140). -/
def Directed.isOpen : Directed → Bool
  | .openLock _ => true
  | _ => false

/-- The kind byte and payload of what an exchange sends (12.5). -/
def LineMsg.kindAndPayload : LineMsg → Byte × List Byte
  | .poll => (0x01, [])
  | .identify => (0x08, [])
  | .directed m => m.msg.kindAndPayload

/-- The sum of bytes. -/
def byteSum (bs : List Byte) : Byte := bs.foldl (· + ·) 0

/-- A message from the controller: address with bits 7 and 6 clear, kind, length, payload, and the sum byte that makes
all bytes sum to 0 (R126, 12.5). -/
def frame (addr : Nat) (kind : Byte) (payload : List Byte) : List Byte :=
  let body := byteOf addr :: kind :: byteOf payload.length :: payload
  body ++ [0 - byteSum body]

/-- The bytes an exchange sends (R126). -/
def Exchange.bytes (x : Exchange) : List Byte :=
  let kp := x.msg.kindAndPayload
  frame x.addr.val kp.1 kp.2

/-- The bytes of the broadcast whose silent window runs: RATE with its divisor, or QUIET (R126, R128). -/
def Activity.broadcastBytes : Activity → List Byte
  | .rateWindow _ d _ => frame 0 0x09 (beBytes 2 d)
  | .quietWindow => frame 0 0x0A []
  | _ => []

/-- How many characters a reply has: address, kind, length, the payload bytes its length byte announces, and the sum (R126, R129). -/
def replyLength (lengthByte : Byte) : Nat := 4 + lengthByte.toNat

/-- The reply among the characters an attempt has received, once it is complete, that is once its length byte, the payload that byte
announces and the sum byte have come (R129). Later characters belong to no exchange (R124). -/
def completeReply (received : List LineChar) : Option (List LineChar) :=
  match received[2]? with
  | none => none
  | some c => if replyLength c.data ≤ received.length then some (received.take (replyLength c.data)) else none

/-- A complete reply taken apart: direction flag, address (bit 6 is not read, R180), kind byte and payload; none when
it is not one run of address, kind, length, that many payload bytes and a sum byte summing to 0 (R126, R127). -/
def readFrame (bs : List Byte) : Option (Bool × Nat × Byte × List Byte) :=
  match bs with
  | a :: kind :: len :: rest =>
    if rest.length = len.toNat + 1 ∧ len.toNat ≤ 24 ∧ byteSum bs = 0 then
      some (a.getLsbD 7, a.toNat % 64, kind, rest.take len.toNat)
    else none
  | _ => none

/-- The good reply to the exchange that a complete reply is, if it is one (R127): no character in error, the sum 0, from a drop, at the
address of the message sent, of a kind it accepts, of the length of its kind. -/
def Exchange.goodReply (x : Exchange) (charError : Bool) (bytes : List Byte) : Option Reply :=
  match readFrame bytes with
  | none => none
  | some (fromDrop, addr, kind, payload) =>
    match ReplyKind.ofCode kind with
    | none => none
    | some k =>
      if !charError && fromDrop && addr == x.addr.val && x.msg.accepts k && k.lengthFits payload then some (k.withPayload payload)
      else none

/-- A reply whose row names it: its characters are good, and so is the rest of it when the message accepts its kind and its payload has
its kind's length (R127). -/
def Exchange.goodAs (x : Exchange) (r : Reply) : Option Reply :=
  if x.msg.accepts r.kind && r.kind.lengthFits r.payload then some r else none

/-- The bytes of a reply to the exchange: from a drop, at the address of the message sent (R126, R127). -/
def Exchange.replyBytes (x : Exchange) (r : Reply) : List Byte := frame (128 + x.addr.val) r.kind.code r.payload

/-- The kind byte and payload of a message to the encoder (6.1, 12.5). -/
def EncMsg.kindAndPayload : EncMsg → Byte × List Byte
  | .sense => (0x10, [])
  | .read => (0x11, [])
  | .write bs => (0x12, bs)
  | .eject reject => (0x13, [if reject then 1 else 0])

/-- The bytes an encoder exchange sends, to address 1 (R83). -/
def EncExchange.bytes (x : EncExchange) : List Byte :=
  let kp := x.msg.kindAndPayload
  frame 1 kp.1 kp.2

/-- Kinds of encoder replies (R83). -/
inductive EncReply where
  | cardState | image | readFail | done | writeFail
  deriving DecidableEq, Repr

/-- Their codes (12.5). -/
def EncReply.code : EncReply → Byte
  | .cardState => 0x50 | .image => 0x51 | .readFail => 0x52 | .done => 0x53 | .writeFail => 0x54

/-- The encoder reply kind a byte names, if any. -/
def EncReply.ofCode (b : Byte) : Option EncReply :=
  [EncReply.cardState, .image, .readFail, .done, .writeFail].find? fun k => k.code == b

/-- The replies a message to the encoder accepts (6.1). -/
def EncMsg.accepts : EncMsg → EncReply → Bool
  | .sense, .cardState => true
  | .read, .image | .read, .readFail => true
  | .write _, .done | .write _, .writeFail => true
  | .eject _, .done => true
  | _, _ => false

/-- The length and, for CARD_STATE, the payload of an encoder reply are right (R83). -/
def EncReply.payloadFits : EncReply → List Byte → Bool
  | .cardState, p => p == [0] || p == [1]
  | .image, p => p.length == 20
  | .readFail, p | .done, p | .writeFail, p => p.length == 0

/-- An answer of the encoder, with what its payload holds (6.1, 12.5). -/
inductive EncAnswer where
  | cardState (card : Byte)
  | image (bytes : List Byte)
  | readFail
  | done
  | writeFail
  deriving DecidableEq, Repr

/-- The kind of an answer (R83). -/
def EncAnswer.kind : EncAnswer → EncReply
  | .cardState _ => .cardState | .image _ => .image | .readFail => .readFail | .done => .done | .writeFail => .writeFail

/-- The payload of an answer (12.5). -/
def EncAnswer.payload : EncAnswer → List Byte
  | .cardState card => [card]
  | .image bytes => bytes
  | .readFail | .done | .writeFail => []

/-- The answer that a payload of a kind's length makes (12.5). -/
def EncReply.withPayload (k : EncReply) (p : List Byte) : EncAnswer :=
  match k with
  | .cardState => .cardState (p.getD 0 0)
  | .image => .image p
  | .readFail => .readFail
  | .done => .done
  | .writeFail => .writeFail

/-- The good answer to the encoder exchange that a complete reply without a character in error is, if it is one (R83). -/
def EncExchange.goodReply (x : EncExchange) (bytes : List Byte) : Option EncAnswer :=
  match readFrame bytes with
  | none => none
  | some (fromDrop, addr, kind, payload) =>
    match EncReply.ofCode kind with
    | none => none
    | some k => if fromDrop && addr == 1 && x.msg.accepts k && k.payloadFits payload then some (k.withPayload payload) else none

/-- An answer whose row names it, when the message accepts its kind and its payload fits it (R83). -/
def EncExchange.goodAs (x : EncExchange) (a : EncAnswer) : Option EncAnswer :=
  if x.msg.accepts a.kind && a.kind.payloadFits a.payload then some a else none

/-- The bytes of an answer of the encoder, from address 1 (R83). -/
def EncAnswer.bytes (a : EncAnswer) : List Byte := frame (128 + 1) a.kind.code a.payload

/-! ## Places (12.3) -/

/-- The place byte of a drop, or of a line with address 0: bit 7 the line, bits 0 to 5 the address. -/
def placeOf (l : Fin 2) (a : Fin 64) : Nat := l.val * 128 + a.val

/-- No place. -/
def noPlace : Nat := 0xFF

/-! ## Lists of all indexes -/

/-- The rooms 0 to 47. -/
def allRooms : List (Fin 48) := (List.range 48).map (Fin.ofNat 48)

/-- The addresses 1 to 63. -/
def allAddrs : List (Fin 64) := (List.range 63).map fun i => Fin.ofNat 64 (i + 1)

/-- The two lines. -/
def allLines : List (Fin 2) := [0, 1]

/-- The blocks 0 to 15. -/
def allBlocks : List (Fin 16) := (List.range 16).map (Fin.ofNat 16)

/-- Every address of both lines, line 0 first, addresses rising. -/
def allDrops : List (Fin 2 × Fin 64) := allLines.flatMap fun l => allAddrs.map fun a => (l, a)

end Sys2Proof.Machine
end

