-- ==== Sys2Proof/Machine/Ops.lean ====
section
/-! DEFINITION. The named operations every command is made of: shared RAM, the causes and mirrors of the Window
Controller, the Journal Writer's search and admission, and the completion of an order. -/

namespace Sys2Proof.Machine

open Sys2Proof

/-! ## Shared RAM (R167) -/

/-- The byte at an address; an unlisted address reads 0. -/
def Memory.read (m : Memory) (a : Nat) : Byte := (m.lookup a).getD 0

/-- The cells of a run of bytes, the bytes that are 0 left out. -/
def cellsOf : Nat → List Byte → Memory
  | _, [] => []
  | a, b :: bs => if b = 0 then cellsOf (a + 1) bs else (a, b) :: cellsOf (a + 1) bs

/-- A run of bytes written from an address on. -/
def Memory.write (m : Memory) (a : Nat) (bs : List Byte) : Memory :=
  m.filter (fun c => decide (c.1 < a)) ++ cellsOf a bs ++ m.filter (fun c => decide (a + bs.length ≤ c.1))

/-- Every cell from an address up to another made 0. -/
def Memory.clear (m : Memory) (low high : Nat) : Memory :=
  m.filter fun c => decide (c.1 < low ∨ high ≤ c.1)

/-- The canonical form: addresses strictly rising, no byte 0, every address in the 32 KiB. -/
def Memory.wf (m : Memory) : Bool :=
  decide (m.Pairwise fun x y => x.1 < y.1) && m.all fun c => decide (c.2 ≠ 0 ∧ c.1 < 0x8000)

/-- One byte of shared RAM. -/
def State.byte (s : State) (a : Nat) : Byte := s.ram.read a

/-- A little-endian field of `n` bytes of shared RAM. -/
def State.field (s : State) (a n : Nat) : Nat := leNat ((List.range n).map fun k => s.byte (a + k))

/-- The part writes a run of bytes into shared RAM. -/
def State.store (s : State) (a : Nat) (bs : List Byte) : State := { s with ram := s.ram.write a bs }

/-- The host writes bytes into shared RAM, in order; an offset outside the RAM takes nothing (R167). -/
def State.hostWrites (s : State) (ws : List HostWrite) : State :=
  { s with ram := ws.foldl (fun m w => if w.1 < 0x8000 then m.write w.1 [w.2] else m) s.ram }

/-- The address of an order block (11.1). -/
def blockAddr (b : Fin 16) : Nat := 64 * b.val

/-- The address of a journal descriptor (11.1). -/
def descriptorAddr (d : Fin 4) : Nat := 0x400 + 16 * d.val

/-- The address of a room's mirror record (11.1). -/
def roomMirrorAddr (r : Fin 48) : Nat := 0x480 + 32 * r.val

/-- The part writes a block's state byte. -/
def State.setBlockState (s : State) (b : Fin 16) (st : BlockState) : State := s.store (blockAddr b) [st.code]

/-! ## Interrupt causes (R168) -/

/-- A cause is set. -/
def State.setCause (s : State) (c : Half) : State := { s with cause := s.cause ||| c }

/-! ## Records of the tables and of the lines -/

/-- A drop record. -/
def State.drop (s : State) (l : Fin 2) (a : Fin 64) : Drop := s.lines[l].drops[a]

/-- A line's own record changed. -/
def State.setLine (s : State) (l : Fin 2) (x : Line) : State := { s with lines := s.lines.set l x }

/-- A drop record changed, no mirror written. -/
def State.setDrop (s : State) (l : Fin 2) (a : Fin 64) (d : Drop) : State :=
  s.setLine l { s.lines[l] with drops := s.lines[l].drops.set a d }

/-- The address bound to a room's door or minibar, over both lines (R134: at most one of each). -/
def State.findDrop (s : State) (b : Binding) : Option (Fin 2 × Fin 64) :=
  allDrops.find? fun p => decide ((s.drop p.1 p.2).binding = some b)

/-- The room's DOOR drop. -/
def State.doorOf (s : State) (r : Fin 48) : Option (Fin 2 × Fin 64) := s.findDrop (.door r)

/-- The room's MINIBAR drop. -/
def State.minibarDropOf (s : State) (r : Fin 48) : Option (Fin 2 × Fin 64) := s.findDrop (.minibar r)

/-- The copy mask of the room's GUEST entry, or the empty set (R69). -/
def revokedMask (revs : List RevEntry) (r : Fin 48) : Byte :=
  (revs.findSome? fun e => match e with
    | .guest room _ copies => if room = r then some copies else none
    | .staff _ _ => none).getD 0

/-! ## Mirrors (R174, 12.4) -/

/-- The site mirror's 64 bytes; the unnamed ones are 0 (R180). -/
def State.siteMirror (s : State) : List Byte :=
  padTo 64 <|
    leBytes 2 s.siteCount.toNat ++
    [byteOf s.site.state.code, byteOf s.clock.state.code] ++ leBytes 3 s.clock.minute ++ [byteOf s.clock.second] ++
    [byteOf s.lines[0].state.code, byteOf s.lines[1].state.code] ++
    leBytes 4 s.lines[0].setup.rate ++ leBytes 4 s.lines[0].rate ++
    leBytes 4 s.lines[1].setup.rate ++ leBytes 4 s.lines[1].rate ++
    [byteOf s.encoder.state.code, byteOf s.encoder.presence.code, byteOf s.journal.queue.length, 0] ++
    leBytes 2 s.journal.gap ++ leBytes 4 s.serial

/-- The presence of a room's drop as the mirror shows it: 4 for none (12.4). -/
def State.shownPresence (s : State) (p : Option (Fin 2 × Fin 64)) : Nat :=
  match p with
  | none => 4
  | some (l, a) => (s.drop l a).presence.code

/-- The door and bolt of a room's DOOR drop in one byte: door low, bolt high (R50, 12.4). With no DOOR drop the byte is 0, which 12.4, having no
present flag and no code for none there, does not say: DESIGN CHOICE, log 49. -/
def State.shownDoor (s : State) (p : Option (Fin 2 × Fin 64)) : Nat :=
  match p with
  | none => 0
  | some (l, a) =>
    match (s.drop l a).door with
    | none => 0
    | some d => d.leaf.code + 16 * d.bolt.code

/-- A room mirror's 32 bytes. Fields of an absent optional item are 0 (R180). -/
def State.roomMirror (s : State) (r : Fin 48) : List Byte :=
  let room := s.rooms[r]
  let m := s.minibars[r]
  let door := s.doorOf r
  let deny := s.lastDeny[r]
  leBytes 2 s.roomCounts[r].toNat ++ leBytes 2 room.label ++
  [byteOf room.state.code, byteOf room.generation, room.issued, revokedMask s.revs r] ++
  leBytes 3 room.stayUntil ++ leBytes 3 (room.lastGrant.getD 0) ++
  [byteOf m.state.code, m.faults] ++ leBytes 4 m.charge ++ leBytes 4 m.limit ++
  [byteOf (flagBit room.unscanned + 2 * flagBit m.saturated + 4 * flagBit m.overStock +
     8 * flagBit room.lastGrant.isSome + 16 * flagBit deny.isSome),
   byteOf (s.shownPresence door), byteOf (s.shownDoor door),
   byteOf (s.shownPresence (s.minibarDropOf r)),
   byteOf ((deny.map fun d => d.reason.code).getD 0)] ++
  leBytes 3 ((deny.map fun d => d.minute).getD 0)

/-- The site mirror is rewritten: the count rises by one, the fields are written, the count rises by one (R174). -/
def State.rewriteSite (s : State) : State :=
  let s : State := { s with siteCount := s.siteCount + 2 }
  s.store 0x440 s.siteMirror

/-- A room's mirror record is rewritten (R174). -/
def State.rewriteRoom (s : State) (r : Fin 48) : State :=
  let s : State := { s with roomCounts := s.roomCounts.set r (s.roomCounts[r] + 2) }
  s.store (roomMirrorAddr r) (s.roomMirror r)

/-- The drop mirror's byte of an address is rewritten: line 0 at 0x0A80, line 1 at 0x0AC0 (12.4, R134). -/
def State.rewriteDrop (s : State) (l : Fin 2) (a : Fin 64) : State :=
  s.store (0xA80 + 64 * l.val + a.val) [byteOf (s.drop l a).presence.code]

/-- The room whose mirror shows a drop: that of a DOOR or MINIBAR binding (R132). -/
def Binding.shownRoom : Binding → Option (Fin 48)
  | .door r | .minibar r => some r
  | .gate _ => none

/-- The room mirror that shows the drop, if any, is rewritten. -/
def State.rewriteRoomOf (s : State) (b : Option Binding) : State :=
  match b.bind Binding.shownRoom with
  | none => s
  | some r => s.rewriteRoom r

/-- What the room mirror shows of a room record: every field but the wait count (R15). -/
def Room.shown (r : Room) : Room := { r with wait := 0 }

/-- A room record is written, and its mirror after a change to a field it shows (R15). -/
def State.putRoom (s : State) (r : Fin 48) (x : Room) : State :=
  let t : State := { s with rooms := s.rooms.set r x }
  if x.shown = s.rooms[r].shown then t else t.rewriteRoom r

/-- What the room mirror shows of a minibar record (R102). -/
def Minibar.shown (m : Minibar) : MinibarState × Byte × Nat × Nat × Bool × Bool :=
  (m.state, m.faults, m.charge, m.limit, m.saturated, m.overStock)

/-- A minibar record is written, and the room mirror after a change to what it shows (R102). -/
def State.putMinibar (s : State) (r : Fin 48) (x : Minibar) : State :=
  let t : State := { s with minibars := s.minibars.set r x }
  if x.shown = s.minibars[r].shown then t else t.rewriteRoom r

/-- What the room mirror shows of a door-side record (R50). -/
def DoorSide.shown (d : DoorSide) : Leaf × Bolt := (d.leaf, d.bolt)

/-- A drop's door-side record is written, created or discarded, and the room mirror of a room door after a change to the
fields it shows (R50). -/
def State.putDoor (s : State) (l : Fin 2) (a : Fin 64) (x : Option DoorSide) : State :=
  let d := s.drop l a
  let t : State := s.setDrop l a { d with door := x }
  if x.map DoorSide.shown = d.door.map DoorSide.shown then t else t.rewriteRoomOf d.binding

/-- A room's last deny pair is written (R50, R58, R108). -/
def State.putDeny (s : State) (r : Fin 48) (reason : Deny) : State :=
  let t : State := { s with lastDeny := s.lastDeny.set r (some { reason := reason, minute := s.now }) }
  if t.lastDeny[r] = s.lastDeny[r] then t else t.rewriteRoom r

/-- The Encoder Controller's record is written; its mirror follows at the end of the controller's step. -/
def State.setEncoder (s : State) (e : Encoder) : State := { s with encoder := e }

/-- The serial counter is written, and the site mirror (R32). -/
def State.putSerial (s : State) (n : Nat) : State := { s with serial := n }.rewriteSite

/-- The minute clock is written, and the site mirror (R4). -/
def State.putClock (s : State) (c : Clock) : State := { s with clock := c }.rewriteSite

/-! ## The Journal Writer (chapter 10) -/

/-- A request to the Journal Writer, the fields it does not name at their none values (R154). -/
structure Request where
  kind : EntryKind
  place : Nat := noPlace
  room : Nat := 255
  reason : Nat := 0
  subject : Nat := 0
  value : Nat := 0
  deriving DecidableEq, Repr

/-- An entry's sixteen bytes (12.3). -/
def Entry.bytes (e : Entry) : List Byte :=
  leBytes 2 e.sequence ++ leBytes 3 e.minute ++ [byteOf e.second, byteOf e.kind.code, byteOf e.place, byteOf e.room,
    byteOf e.reason] ++ leBytes 4 e.subject ++ leBytes 2 e.value

/-- The bounds of an ARMED descriptor are good (R160). -/
def goodBounds (capacity offset : Nat) : Bool :=
  decide (1 ≤ capacity ∧ capacity ≤ 1792 ∧ offset % 16 = 0 ∧ 0x1000 ≤ offset ∧ offset ≤ 0x7FF0 ∧
    offset + 16 * capacity ≤ 0x8000)

/-- A search looks at one descriptor: not ARMED, it is passed over; with bad bounds it is written BAD and JOURNAL is
set; otherwise it is taken up, with written count, end status and end minute 0 (R160, R165). -/
def State.searchAt (s : State) (d : Fin 4) : State :=
  let at_ := descriptorAddr d
  let capacity := s.field (at_ + 2) 2
  let offset := s.field (at_ + 4) 2
  if s.journal.filling.isSome then s
  else if s.byte at_ ≠ DescriptorState.armed.code then s
  else if !goodBounds capacity offset then
    (s.store at_ [DescriptorState.bad.code]).setCause causeJournal
  else
    let s' := ((s.store at_ [DescriptorState.filling.code]).store (at_ + 6) [0, 0]).store (at_ + 12) [0, 0, 0, 0]
    let f : Filling :=
      { index := d, cutOnAlarm := (s.byte (at_ + 1)).getLsbD 0, capacity := capacity, offset := offset,
        written := 0, firstSeq := 0, lastSeq := 0 }
    { s' with journal := { s.journal with cursor := d, filling := some f } }

/-- A search, made when no descriptor is FILLING and the queue holds an entry: the descriptors in cyclic order from the
one after the cursor (R160). -/
def State.search (s : State) : State :=
  if s.journal.filling.isSome ∨ s.journal.queue = [] then s
  else
    let c := s.journal.cursor
    (((s.searchAt (c + 1)).searchAt (c + 2)).searchAt (c + 3)).searchAt c

/-- The entry a request becomes at admission: its number, and the minute and second that stand (R154). -/
def State.entryOf (s : State) (q : Request) : Entry :=
  { sequence := s.journal.sequence, minute := s.clock.minute, second := s.clock.second, kind := q.kind,
    place := q.place, room := q.room, reason := q.reason, subject := q.subject, value := q.value }

/-- One entry is admitted: steps 4 and 5 of R155, the search an admission makes (R160) and the no-room
signal when the length climbs from 15 to 16 with nothing FILLING (R165). -/
def State.admitOne (s : State) (q : Request) : State :=
  let long := s.journal.queue.length + 1
  let j := { s.journal with
    queue := s.journal.queue ++ [s.entryOf q], sequence := (s.journal.sequence + 1) % 65536 }
  let s : State := { s with journal := j }
  let s : State := if q.kind.isAlarm then s.setCause causeAlarm else s
  let s : State := s.search
  if long = 16 ∧ s.journal.filling.isNone then s.setCause causeJournal else s

/-- Whether a request is admitted at queue length `long` (R155 step 2). -/
def admissible (k : EntryKind) (long : Nat) : Bool :=
  if k.isAlarm then decide (long < Config.queueLimit) else decide (long < Config.routineLimit)

/-- The GAP entry that comes first when lost requests are to be reported and the queue is below 28 (R155 step 1,
R156). -/
def State.admitGap (s : State) : State :=
  if 0 < s.journal.gap ∧ s.journal.queue.length < Config.routineLimit then
    let gap := s.journal.gap
    { s with journal := { s.journal with gap := 0 } }.admitOne { kind := .gap, value := gap }
  else s

/-- Steps 1 to 5 of R155: the request is admitted, after a GAP entry when one is due, or counted as a gap, to 65,535 at most. -/
def State.takeRequest (s : State) (q : Request) : State :=
  let s : State := s.admitGap
  if admissible q.kind s.journal.queue.length then s.admitOne q
  else { s with journal := { s.journal with gap := min (s.journal.gap + 1) 65535 } }

/-- The Journal Writer takes a request; the site mirror is rewritten once when the queue length or the gap count has changed
(R155). -/
def State.admitRequest (s : State) (q : Request) : State :=
  let t := s.takeRequest q
  if t.journal.queue.length = s.journal.queue.length ∧ t.journal.gap = s.journal.gap then t else t.rewriteSite

/-- A FILLING descriptor ends: end status, end minute, state ENDED, then the JOURNAL cause, and a search when entries
remain (R162, R163). -/
def State.endDescriptor (s : State) (f : Filling) (st : EndStatus) : State :=
  let at_ := descriptorAddr f.index
  let s : State := ((s.store (at_ + 12) [st.code]).store (at_ + 13) (leBytes 3 s.clock.minute)).store at_
    [DescriptorState.ended.code]
  let s : State := { s with journal := { s.journal with filling := none } }
  (s.setCause causeJournal).search

/-! ## Orders (11.3) -/

/-- The next `n` free bytes: values no rule states (log 10). -/
def State.freeBytes (s : State) (n : Nat) : List Byte := (List.range n).map fun i => Config.freeByte (s.freeCount + i)

/-- Free bytes are used up (log 10). -/
def State.spendFree (s : State) (n : Nat) : State := { s with freeCount := s.freeCount + n }

/-- An order completes: result data, result code, state DONE; it leaves the held list and ORDER_DONE is set (R172). The
unused tail of the result data is 0 (R180). -/
def State.complete (s : State) (b : Fin 16) (res : Result) (data : List Byte) : State :=
  let s : State := ((s.store (blockAddr b + 44) (padTo 20 data)).store (blockAddr b + 1) [byteOf res.code]).setBlockState b
    .done
  { s with held := s.held.filter fun h => decide (h.block ≠ b) }.setCause causeOrderDone

/-- The held order with an owner, if any. -/
def State.heldBy (s : State) (o : Owner) : Option Held := s.held.find? fun h => decide (h.owner = o)

/-- The held order in a block, if any. -/
def State.heldIn (s : State) (b : Fin 16) : Option Held := s.held.find? fun h => decide (h.block = b)

/-- An order passes to another owner (R171). -/
def State.passTo (s : State) (b : Fin 16) (o : Owner) : State :=
  { s with held := s.held.map fun h => if h.block = b then { h with owner := o } else h }

/-- An order held for `o`, if there is one, completes. -/
def State.completeFor (s : State) (o : Owner) (res : Result) (data : List Byte) : State :=
  match s.heldBy o with
  | none => s
  | some h => s.complete h.block res data

/-- Whether one order is served before another: higher priority first, then the lower block (R171). -/
def servedBefore (x y : Held) : Bool :=
  decide (y.priority < x.priority) || (decide (x.priority = y.priority) && decide (x.block.val < y.block.val))

/-- The best of a list of waiting orders by R171. -/
def firstServed : List Held → Option Held
  | [] => none
  | h :: hs =>
    match firstServed hs with
    | none => some h
    | some g => if servedBefore g h then some g else some h

/-- The order R171 chooses of those that wait for the table engine. -/
def State.engineChoice (s : State) : Option Held :=
  firstServed (s.held.filter fun h => decide (h.owner = .engine))

/-- The free table engine takes an order, if one waits (R171). -/
def State.chooseOrder (s : State) : State := { s with engine := s.engineChoice.map Held.block }

/-- The table engine serves the order in block `b`, when the part runs, the engine has taken that order and it is of kind `k`;
it then takes the next, and `goOn` is what follows elsewhere. Otherwise no such step takes place and nothing changes (log 4). -/
def State.serve (s : State) (b : Fin 16) (k : OrderKind) (body : Held → State → State) (goOn : State → State := id) : State :=
  match s.heldIn b with
  | none => s
  | some h => if s.ready ∧ s.engine = some b ∧ h.kind = k then goOn (body h s).chooseOrder else s

end Sys2Proof.Machine
end

