-- ==== Sys2Proof/Machine/Credentials.lean ====
section
/-! DEFINITION. The Credential Checker (chapter 3): the check word test, the nine checks, and the room tests
that a guest card meets after a good verdict. -/

namespace Sys2Proof.Machine

open Sys2Proof

/-- A GUEST question to the Revocation List (R44, R70). -/
def guestRevoked (revs : List RevEntry) (room generation copy : Nat) : Bool :=
  revs.any fun e => match e with
    | .guest r g copies => decide (r.val = room ∧ g = generation) && copyIn copies copy
    | .staff _ _ => false

/-- A STAFF question to the Revocation List (R44, R70). -/
def serialRevoked (revs : List RevEntry) (serial : Nat) : Bool :=
  revs.any fun e => match e with
    | .guest _ _ _ => false
    | .staff n _ => decide (n = serial)

/-- Check 9: whether the Revocation List holds an entry that matches the card (R44). -/
def cardRevoked (revs : List RevEntry) (cls : CardClass) (c : List Byte) : Bool :=
  match cls with
  | .guest => guestRevoked revs (cardRoom c) (cardGeneration c) (cardCopy c)
  | .staff | .service | .emergency => serialRevoked revs (cardSerial c)

/-- Checks 6 to 8: the card's place in time; an EMERGENCY card skips them (R43). -/
def timeCheck (site : Site) (clock : Clock) (cls : CardClass) (c : List Byte) : Option Deny :=
  if cls = .emergency then none
  else if clock.state = .notSet then some .clockNotSet
  else if clock.minute + site.earlyGrace < cardFrom c then some .notYet
  else if cardUntil c ≤ clock.minute then some .expired
  else none

/-- The credential evaluation: the first of the nine checks that fails, or none for "credential good" (R41). -/
def evaluate (site : Site) (clock : Clock) (revs : List RevEntry) (c : List Byte) : Option Deny :=
  if site.state = .unconfigured then some .notConfigured
  else if cardCheck c ≠ checkWord site.keyM site.keyN c then some .badCheck
  else if cardSite c ≠ site.code then some .wrongSite
  else
    match CardClass.ofCode (cardClass c) with
    | none => some .badClass
    | some cls =>
      if cardUntil c ≤ cardFrom c then some .badWindow
      else
        match timeCheck site clock cls c with
        | some reason => some reason
        | none => if cardRevoked revs cls c then some .revoked else none

/-- The verdict on a card as the records stand (R41, R46): the failing reason, or the class of a good card. -/
def State.verdict (s : State) (c : List Byte) : Except Deny CardClass :=
  match evaluate s.site s.clock s.revs c with
  | some reason => .error reason
  | none =>
    match CardClass.ofCode (cardClass c) with
    | none => .error .badClass
    | some cls => .ok cls

/-- The room a card names, when its room index is 0..47 (R34). -/
def State.cardRoomRecord (s : State) (c : List Byte) : Option Room :=
  (asFin 48 (cardRoom c)).map fun r => s.rooms[r]

/-- Checks 2 to 4 of R52 and R53 and checks 3 to 5 of R106: generation, copy and state of the card's room. A card read between the
advance of R20 and the first copy record meets them in this order, where R22 speaks of ROOM_STATE alone: DESIGN CHOICE, log 39. -/
def stayCheck (room : Room) (c : List Byte) : Option Deny :=
  if cardGeneration c ≠ room.generation then some .generationOld
  else if !copyIn room.issued (cardCopy c) then some .notIssued
  else if room.state ≠ .occupied then some .roomState
  else none

/-- Checks 1 to 4 of R53, and of R98 for the card's own room: the card's room is a room in use, and the card is
current in it. -/
def State.ownRoomCheck (s : State) (c : List Byte) : Option Deny :=
  match s.cardRoomRecord c with
  | none => some .wrongRoom
  | some room => if room.state = .unused then some .wrongRoom else stayCheck room c

/-- The card of an OCCUPIED or OVERSTAY room whose generation and copy it carries (R90). -/
def State.currentGuest (s : State) (c : List Byte) : Bool :=
  match s.cardRoomRecord c with
  | none => false
  | some room => room.state.inStay && decide (cardGeneration c = room.generation) && copyIn room.issued (cardCopy c)

/-- A card found at the encoder is in use (R90). -/
def State.cardInUse (s : State) (c : List Byte) : Bool :=
  match s.verdict c with
  | .error _ => false
  | .ok .guest => s.currentGuest c
  | .ok _ => true

/-- The journal interlock: the holding queue holds 28 entries or more (R57). -/
def State.journalBlocked (s : State) : Bool := decide (Config.routineLimit ≤ s.journal.queue.length)

end Sys2Proof.Machine
end

