-- ==== Sys2Proof/Machine/MinibarRecord.lean ====
section
/-! DEFINITION. What a minibar record computes by itself (chapter 7): counts of items from readings, the charge, the
stay start, the restock, and the record clean of any grant, opening or scan. -/

namespace Sys2Proof.Machine

open Sys2Proof

/-- Items gone by a reading, before the stock bounds them: the baseline less the reading, in units, halves upward
(R115). -/
def Tray.quotient (t : Tray) (reading : Nat) : Nat :=
  if t.baseline ≤ reading then 0 else (2 * (t.baseline - reading) + t.unit) / (2 * t.unit)

/-- A sensor fault: a reading of 0 or 4,095 (R115). -/
def badReading (reading : Nat) : Bool := decide (reading = 0 ∨ reading = 4095)

/-- The tray after a reading of an AFTER_CLOSE, FINAL or HOST scan (R115). -/
def Tray.read (t : Tray) (reading : Nat) : Tray :=
  if t.baseline = 0 then { t with last := some reading, taken := 0 }
  else if badReading reading then { t with last := some reading, fault := true }
  else { t with last := some reading, fault := false, taken := min (t.quotient reading) t.stock }

/-- The reading shows more items gone than the tray's stock (R115). -/
def Tray.overStock (t : Tray) (reading : Nat) : Bool :=
  decide (t.baseline ≠ 0) && !badReading reading && decide (t.stock < t.quotient reading)

/-- Cents owed for a tray's items of the stay not yet folded (R116). -/
def Tray.unbilled (t : Tray) : Nat := t.price * (t.taken - t.base)

/-- The sum of R116, formed in full. -/
def Minibar.owed (m : Minibar) : Nat :=
  m.carried + ((m.trays.toList.take m.trayCount).map Tray.unbilled).sum

/-- The charge is computed (R116). -/
def Minibar.recharge (m : Minibar) : Minibar :=
  if m.owed > Config.maxCharge then { m with charge := Config.maxCharge, saturated := true }
  else { m with charge := m.owed }

/-- Tray `t` is in a set. -/
def trayIn (mask : Byte) (t : Nat) : Bool := mask.getLsbD t

/-- The reading collected for a requested tray. -/
def Minibar.reading (m : Minibar) (t : Fin 8) : Option Nat :=
  if trayIn m.requested t.val then m.collected[t] else none

/-- Requested trays that have no reading (R114). -/
def Minibar.missing (m : Minibar) : Byte :=
  setOf fun t => if h : t < 8 then trayIn m.requested t && (m.collected[t]).isNone else false

/-- Trays newly faulted by the collected readings (R115). -/
def Minibar.newFaults (m : Minibar) (restock : Bool) : Byte :=
  setOf fun t => if h : t < 8 then
      match m.reading ⟨t, h⟩ with
      | none => false
      | some r => badReading r && !m.trays[t].fault && (restock || decide (m.trays[t].baseline ≠ 0))
    else false

/-- The readings of an AFTER_CLOSE, FINAL or HOST scan applied (R115). -/
def Minibar.applyReadings (m : Minibar) : Minibar :=
  { m with
    trays := Vector.ofFn fun t : Fin 8 => match m.reading t with
      | none => m.trays[t]
      | some r => m.trays[t].read r
    overStock := m.overStock || (List.finRange 8).any fun t => match m.reading t with
      | none => false
      | some r => m.trays[t].overStock r }

/-- The good trays of a RESTOCK scan: requested, and read neither 0 nor 4,095 (R121). -/
def Minibar.goodTrays (m : Minibar) : Byte :=
  setOf fun t => if h : t < 8 then
      match m.reading ⟨t, h⟩ with
      | none => false
      | some r => !badReading r
    else false

/-- A tray after a RESTOCK scan's reading (R121). -/
def Tray.restock (t : Tray) (reading : Nat) : Tray :=
  if badReading reading then { t with last := some reading, fault := true }
  else { t with last := some reading, baseline := reading, taken := 0, base := 0, fault := false }

/-- Unbilled items of the good trays, in cents (R121). -/
def Minibar.foldAmount (m : Minibar) : Nat :=
  ((List.finRange 8).map fun t => match m.reading t with
    | none => 0
    | some r => if badReading r then 0 else m.trays[t].unbilled).sum

/-- The readings of a RESTOCK scan applied: the unbilled items of the good trays are folded into the carried charge, and
the good trays are based anew (R121). -/
def Minibar.applyRestock (m : Minibar) : Minibar :=
  { m with
    carried := min Config.maxCharge (m.carried + m.foldAmount)
    trays := Vector.ofFn fun t : Fin 8 => match m.reading t with
      | none => m.trays[t]
      | some r => m.trays[t].restock r }

/-- A stay start applied (R120). -/
def Minibar.startStay (m : Minibar) : Minibar :=
  let reset := Minibar.recharge { m with carried := 0, trays := m.trays.map fun t => { t with base := t.taken } }
  { reset with saturated := false, overStock := false, stayMark := false }

/-- A stay-start mark that is set is applied (R120). -/
def Minibar.applyMark (m : Minibar) : Minibar := if m.stayMark then m.startStay else m

/-- The record with no opener, deadline, opening or scan, and both marks clear, in a given state. A pending grant is
kept: it ends by its own report (R110, R111). -/
def Minibar.rest (m : Minibar) (st : MinibarState) : Minibar :=
  { m with
    state := st, opener := none, deadline := none, onClose := none, purpose := none, finalMark := false,
    latchMark := false, requested := 0, collected := Vector.replicate 8 none, scanCount := 0 }

/-- OFFLINE: as `rest`, and with no pending grant (R102, R104). -/
def Minibar.offline (m : Minibar) : Minibar := { m.rest .offline with pending := none }

/-- The scan in SCANNING is final: of purpose FINAL, or with the FINAL mark set (R117). -/
def Minibar.isFinalScan (m : Minibar) : Bool := decide (m.purpose = some .final) || m.finalMark

end Sys2Proof.Machine
end

