-- ==== Sys2Proof/Machine/Rooms.lean ====
section
/-! DEFINITION. The Room Table (chapter 2): state changes, advances, copy records, guest grants, overstay, and the end
of a checkout. -/

namespace Sys2Proof.Machine

open Sys2Proof

/-- The ROOM_STATE entry of a change (R16): value new state and state left, reason 1 when the change sets the
final-unscanned flag, subject the generation after it. -/
def roomStateRequest (r : Fin 48) (x : Room) (left : RoomState) (setsFlag : Bool) : Request :=
  { kind := .roomState, room := r.val, reason := flagBit setsFlag, subject := x.generation,
    value := twoItems x.state.code left.code }

/-- A room changes state: the record is written, then its ROOM_STATE entry is asked for (R16). -/
def State.moveRoom (s : State) (r : Fin 48) (x : Room) (setsFlag : Bool) : State :=
  (s.putRoom r x).admitRequest (roomStateRequest r x s.rooms[r].state setsFlag)

/-- Not the GUEST entry of a room (R71). -/
def RevEntry.notOfRoom (r : Fin 48) : RevEntry → Bool
  | .guest room _ _ => decide (room ≠ r)
  | .staff _ _ => true

/-- The record after an advance: generation plus 1 modulo 256, issued mask empty (R19). -/
def Room.advanced (x : Room) : Room := { x with generation := (x.generation + 1) % 256, issued := 0 }

/-- An advance of a room's generation, as one step with the removal of its GUEST entries (R19, R71). `edit` is what else
that step changes in the room record. -/
def State.advance (s : State) (r : Fin 48) (edit : Room → Room) : State :=
  let t : State := { s with
    revs := s.revs.filter (RevEntry.notOfRoom r)
    rooms := s.rooms.set r (edit s.rooms[r].advanced) }
  t.rewriteRoom r

/-- The advance a NEW_STAY asks for: taken when the room is VACANT (R20). -/
def State.askAdvance (s : State) (r : Fin 48) : Option State :=
  if s.rooms[r].state = .vacant then some (s.advance r id) else none

/-- The Minibar Unit is told of a stay start: applied at once in OFFLINE and LOCKED, marked otherwise (R120). -/
def State.stayStarts (s : State) (r : Fin 48) : State :=
  let m := s.minibars[r]
  match m.state with
  | .offline | .locked => s.putMinibar r m.startStay
  | .granted | .opened | .scanning => s.putMinibar r { m with stayMark := true }

/-- The record of a room in OVERSTAY or OCCUPIED after a copy is recorded (R23). -/
def Room.withCopy (x : Room) (copy untilMinute : Nat) : Room :=
  { x with issued := x.issued ||| copyBit copy, stayUntil := max x.stayUntil untilMinute }

/-- The record of a room whose stay starts with a copy (R22). -/
def Room.stayStarted (x : Room) (copy untilMinute : Nat) : Room :=
  { x with state := .occupied, issued := copyBit copy, stayUntil := untilMinute, unscanned := false, lastGrant := none }

/-- A copy record: taken with the state it leaves, or refused (R21). -/
def State.recordCopy (s : State) (r : Fin 48) (generation copy untilMinute : Nat) (mode : IssueMode) : Option State :=
  let x := s.rooms[r]
  if generation ≠ x.generation then none
  else
    match x.state with
    | .vacant =>
      if mode = .newStay then
        -- R22: the Room Table tells the Minibar Unit, and the state change admits its entry
        some (((s.putRoom r (x.stayStarted copy untilMinute)).stayStarts r).admitRequest
          (roomStateRequest r (x.stayStarted copy untilMinute) .vacant false))
      else none
    | .occupied => some (s.putRoom r (x.withCopy copy untilMinute))
    | .overstay =>
      let y := x.withCopy copy untilMinute
      if s.clock.isSet ∧ s.now < y.stayUntil + s.site.checkoutGrace then
        some (s.moveRoom r { y with state := .occupied } false)
      else some (s.putRoom r y)
    | .unused | .departing | .outOfService => none

/-- The notice of a guest grant (R24). -/
def State.guestGranted (s : State) (r : Fin 48) : State :=
  let x := s.rooms[r]
  if x.state = .occupied then s.putRoom r { x with lastGrant := some s.now } else s

/-- One room's overstay test against a minute (R25). -/
def State.overstayTest (minute : Nat) (s : State) (r : Fin 48) : State :=
  let x := s.rooms[r]
  if x.state = .occupied ∧ x.stayUntil + s.site.checkoutGrace ≤ minute then
    s.moveRoom r { x with state := .overstay } false
  else s

/-- A DEPARTING room becomes VACANT, scanned or not, with the charge that closes it: FINAL_CHARGE, then
ROOM_STATE, then the CHECKOUT completes (R28, R29, R30). -/
def State.closeRoom (s : State) (r : Fin 48) (scanned : Bool) (charge : Nat) : State :=
  let x := { s.rooms[r] with state := RoomState.vacant, unscanned := !scanned, wait := 0 }
  let s := s.putRoom r x
  let s := s.admitRequest { kind := .finalCharge, room := r.val, subject := charge, value := flagBit (!scanned) }
  let s := s.admitRequest (roomStateRequest r x .departing (!scanned))
  s.completeFor (.roomTable r) .ok
    ([byteOf x.generation, byteOf (flagBit x.unscanned), 0, 0] ++ leBytes 4 charge)

/-- The report of a final scan: taken in DEPARTING, dropped otherwise (R29). -/
def State.finalReport (s : State) (r : Fin 48) (scanned : Bool) (charge : Nat) : State :=
  if s.rooms[r].state = .departing then s.closeRoom r scanned charge else s

/-- The wait of a DEPARTING room expires: closed unscanned with the minibar's charge as it stands (R28, R30). -/
def State.waitExpired (s : State) (r : Fin 48) : State := s.closeRoom r false s.minibars[r].charge

/-- A seconds tick reaches a room: in DEPARTING the wait count falls by one, and at 0 the wait has expired (R28). -/
def State.tickRoom (s : State) (r : Fin 48) : State :=
  let x := s.rooms[r]
  if x.state ≠ .departing then s
  else if x.wait ≤ 1 then s.waitExpired r
  else s.putRoom r { x with wait := x.wait - 1 }

/-- A serial is asked for: the counter's value, raised by one, or refused at 0xFFFFFFFF (R32). -/
def State.takeSerial (s : State) : Option (Nat × State) :=
  if s.serial < Config.serialLimit then some (s.serial, s.putSerial (s.serial + 1)) else none

/-- A STAFF entry whose until has been reached by a minute (R79). -/
def RevEntry.expired (minute : Nat) : RevEntry → Bool
  | .guest _ _ _ => false
  | .staff _ u => decide (u ≤ minute)

/-- The PRUNED entry of a removed STAFF entry (R82). -/
def prunedRequest : RevEntry → Request
  | .guest _ _ _ => { kind := .pruned }
  | .staff n _ => { kind := .pruned, subject := n }

/-- Pruning at a minute: the expired entries go as one step, then one PRUNED entry for each in their order (R79). -/
def State.prune (s : State) (minute : Nat) : State :=
  let gone := s.revs.filter (RevEntry.expired minute)
  let s := { s with revs := s.revs.filter fun e => !e.expired minute }
  gone.foldl (fun s e => s.admitRequest (prunedRequest e)) s

/-- A minute tick reaches the Room Table and the Revocation List (R6, R25, R79). -/
def State.minuteTick (s : State) (minute : Nat) : State :=
  (allRooms.foldl (State.overstayTest minute) s).prune minute

end Sys2Proof.Machine
end

