-- ==== Sys2Proof/Machine/EncoderUnit.lean ====
section
/-! DEFINITION. The Encoder Controller (chapter 6): intake of its orders, arbitration, the card procedure, and what it does
with each reply of the encoder. -/

namespace Sys2Proof.Machine

open Sys2Proof

/-! ## Orders and their results (R96 to R99) -/

/-- The ISSUE mode a byte names, if any (12.6). -/
def IssueMode.ofCode : Nat → Option IssueMode
  | 0 => some .newStay | 1 => some .addCopy | 2 => some .rewrite | 3 => some .staff
  | _ => none

/-- The generation an ISSUE reports: the order's, or the room's when it has taken none; 0 in STAFF mode (R96, R97). -/
def State.reportedGeneration (s : State) (o : EncOrder) : Nat :=
  match o.generation, o.room with
  | some g, _ => g
  | none, some r => s.rooms[r].generation
  | none, none => 0

/-- The serial read from the card found, or 0 (R99). -/
def EncOrder.foundSerial (o : EncOrder) : Nat := (o.found.map cardSerial).getD 0

/-- The result data of an ending encoder order (R96, R98, R99, 12.2); READ_CARD and ERASE_CARD have data for OK alone. -/
def State.encData (s : State) (o : EncOrder) (res : Result) : List Byte :=
  match o.job with
  | .issue _ =>
    [byteOf o.cardsDone, byteOf o.spoilCount, byteOf (s.reportedGeneration o), o.copies] ++
    leBytes 4 (o.firstSerial.getD 0) ++ leBytes 4 (o.lastSerial.getD 0) ++ leBytes 4 (o.unfinished.getD 0) ++
    [o.rightsCleared]
  | .readCard => if res = .ok then o.readData else []
  | .eraseCard => if res = .ok then leBytes 4 o.foundSerial ++ [byteOf (flagBit o.force)] else []

/-- An order that has just passed its intake checks, with its context at the start (6.2). -/
def EncOrder.fresh (h : Held) (job : EncJob) (cardWait : Nat) : EncOrder :=
  { block := h.block, priority := h.priority, intake := h.intake, paused := false, job := job, room := none, count := 1,
    cls := .guest, validFrom := 0, validUntil := 0, zoneMask := 0, rights := 0, rightsCleared := 0,
    cardWait := clampTo 1 120 cardWait, noRetry := false, force := false, cardsDone := 0, spoilCount := 0,
    generation := none, advanced := false, waitCount := 0, cancelMark := false, unfinished := none,
    firstSerial := none, lastSerial := none, copies := 0, copy := 0, image := [], found := none, readData := [] }

/-- Checks 2 and 4 of R97: the order's room and class by its mode. -/
def issueTarget (mode : IssueMode) (p : List Byte) : Option (Option (Fin 48) × CardClass) :=
  match mode with
  | .newStay | .addCopy | .rewrite => (asFin 48 (leAt p 1 1)).map fun r => (some r, .guest)
  | .staff =>
    match CardClass.ofCode (leAt p 3 1) with
    | none | some .guest => none
    | some c => some (none, c)

/-- Check 3 of R97: the count fits the mode. -/
def issueCountFits (mode : IssueMode) (count : Nat) : Bool :=
  decide (1 ≤ count ∧ count ≤ 8 ∧ (mode = .rewrite → count = 1))

/-- Check 8 of R97: an ADD_COPY asks for more copies than are free. -/
def State.tooManyCopies (s : State) (mode : IssueMode) (room : Option (Fin 48)) (count : Nat) : Bool :=
  match mode, room with
  | .addCopy, some r => decide (8 - setSize s.rooms[r].issued < count)
  | _, _ => false

/-- The intake checks of ISSUE, in the order of R97. Of the rights parameter, bits 3 to 7 name no right, are not read (R36) and are
not among the rights cleared: DEDUCED, log 35. -/
def State.issueIntake (s : State) (h : Held) : Except Result EncOrder :=
  let p := h.params
  let count := leAt p 2 1
  let validFrom := leAt p 4 3
  let validUntil := leAt p 8 3
  let rights := p.getD 13 0
  match IssueMode.ofCode (leAt p 0 1) with
  | none => .error .badParam
  | some mode =>
    match issueTarget mode p with
    | none => .error .badParam
    | some (room, cls) =>
      if !issueCountFits mode count then .error .badParam
      else if validUntil ≤ validFrom ∨ (s.clock.isSet ∧ validUntil ≤ s.now) then .error .badParam
      else if s.site.state = .unconfigured then .error .notConfigured
      else if s.serial = Config.serialLimit then .error .serialsExhausted
      else if s.tooManyCopies mode room count then .error .noCopy
      else
        .ok { EncOrder.fresh h (.issue mode) (leAt p 14 1) with
          room := room, count := count, cls := cls, validFrom := validFrom, validUntil := validUntil
          zoneMask := p.getD 12 0, rights := rights &&& ownRight cls, rightsCleared := rights &&& namedRights &&& ~~~(ownRight cls)
          noRetry := (p.getD 15 0).getLsbD 0 }

/-- The intake of ERASE_CARD (R99): its flags are FORCE and NO_RETRY. -/
def eraseOrder (h : Held) : EncOrder :=
  { EncOrder.fresh h .eraseCard (leAt h.params 0 1) with
    force := (h.params.getD 1 0).getLsbD 0, noRetry := (h.params.getD 1 0).getLsbD 1 }

/-- The intake of READ_CARD (R98). -/
def readOrder (h : Held) : EncOrder := EncOrder.fresh h .readCard (leAt h.params 0 1)

/-! ## Starting a card (R88) -/

/-- The room's record meets the order at the start or arrival of a card; the answer is the generation the order then has, or
none when the room does not fit (R88, R91). -/
def State.roomFits (s : State) (o : EncOrder) : Option (Option Nat) :=
  match o.job, o.room with
  | .issue .newStay, some r =>
    let x := s.rooms[r]
    if !o.advanced then some o.generation
    else if o.generation = some x.generation ∧ (if o.cardsDone = 0 then x.state = .vacant else x.state.inStay) then
      some o.generation
    else none
  | .issue .addCopy, some r | .issue .rewrite, some r =>
    let x := s.rooms[r]
    if x.state.inStay ∧ (o.generation.isNone ∨ o.generation = some x.generation) then some (some x.generation)
    else none
  | _, _ => some o.generation

/-- The copy of the next card (R88); an ADD_COPY with `keep` still free keeps it (R91). -/
def State.copyFor (s : State) (o : EncOrder) (keep : Bool) : Option Nat :=
  match o.job, o.room with
  | .issue .newStay, _ => some (o.cardsDone + 1)
  | .issue .addCopy, some r =>
    let mask := s.rooms[r].issued
    if keep && !copyIn mask o.copy then some o.copy else lowestFreeCopy mask
  | .issue .rewrite, _ => some (if keep then o.copy else 0)
  | .issue .staff, _ => some 1
  | _, _ => some 0

/-- The order with the card that starts, or the result it ends with (R88). -/
def State.cardStart (s : State) (o : EncOrder) (keep : Bool) : Except Result EncOrder :=
  match s.roomFits o with
  | none => .error .roomState
  | some g =>
    match s.copyFor o keep with
    | none => .error .noCopy
    | some c => .ok { o with generation := g, copy := c }

/-! ## Sending, ending and arbitration (R83 to R86, R96) -/

/-- What the site mirror shows of the encoder, with the block of the running order: when another order runs, the state has been
IDLE between the two (R84, R96). -/
def Encoder.shown (e : Encoder) : PortPresence × EncState × Option (Fin 16) :=
  (e.presence, e.state, e.running.map EncOrder.block)

/-- One step of the Encoder Controller: the site mirror is rewritten once for the changes of presence and state made in it (R84,
R174; log 13). -/
def State.encoderStep (s : State) (f : State → State) : State :=
  let t := f s
  if t.encoder.shown = s.encoder.shown then t else t.rewriteSite

/-- The running order's context changes. -/
def State.setRunning (s : State) (o : EncOrder) : State := { s with encoder := { s.encoder with running := some o } }

/-- A message is sent: an exchange with two attempts after the first begins (R83). -/
def State.send (s : State) (o : EncOrder) (st : EncState) (msg : EncMsg) (stage : Stage) : State :=
  s.setEncoder { s.encoder with
    running := some o, state := st, exchange := some { msg := msg, retries := 2 }, stage := stage, paceDue := false }

/-- The encoder with no order (R84). -/
def Encoder.free (e : Encoder) : Encoder :=
  { e with state := .idle, running := none, exchange := none, stage := .none, paceDue := false }

/-- An order ends: its result goes to the Window Controller, and the encoder becomes IDLE (R96). -/
def State.endOrder (s : State) (o : EncOrder) (res : Result) : State :=
  (s.complete o.block res (s.encData o res)).setEncoder s.encoder.free

/-- SENSING begins for a card (R88, R89). -/
def State.startSensing (s : State) (o : EncOrder) : State :=
  s.send { o with waitCount := o.cardWait, found := none } .sensing .sense .sensing

/-- Whether one waiting order ranks before another: priority, then paused, then the earlier intake (R85). -/
def EncOrder.ranksBefore (x y : EncOrder) : Bool :=
  decide (y.priority < x.priority) ||
    (decide (x.priority = y.priority) && ((x.paused && !y.paused) || (decide (x.paused = y.paused) && decide (x.intake < y.intake))))

/-- The order R85 chooses from a list. -/
def firstRanked : List EncOrder → Option EncOrder
  | [] => none
  | o :: os =>
    match firstRanked os with
    | none => some o
    | some p => if p.ranksBefore o then some p else some o

/-- The chosen order leaves the waiting list and holds the encoder; its block is written TAKEN if it was WAITING (R85). -/
def State.takeUp (s : State) (o : EncOrder) : State :=
  let e := { s.encoder with
    waiting := s.encoder.waiting.filter fun w => decide (w.block ≠ o.block), running := some { o with paused := false } }
  let s : State := { s with encoder := e }
  if o.paused then s.setBlockState o.block .taken else s

/-- While the encoder is free and orders wait, the highest-ranked one runs; one whose first card cannot start ends, and the
next is chosen (R85, R88). At most 16 orders wait, so `fuel` 17 ends the list. -/
def State.arbitrate : Nat → State → State
  | 0, s => s
  | fuel + 1, s =>
    if s.encoder.running.isSome then s
    else
      match firstRanked s.encoder.waiting with
      | none => s
      | some o =>
        let t := s.takeUp o
        let o := { o with paused := false }
        match t.cardStart o false with
        | .ok o => t.startSensing o
        | .error res => (t.endOrder o res).arbitrate fuel

/-- The running order ends, and the next is chosen (R85, R96). -/
def State.finishOrder (s : State) (o : EncOrder) (res : Result) : State := (s.endOrder o res).arbitrate 17

/-- An order that passes its intake checks joins the waiting list, and runs at once when the encoder is free (R85). -/
def State.joinEncoder (s : State) (o : EncOrder) : State :=
  s.encoderStep fun s => (s.setEncoder { s.encoder with waiting := s.encoder.waiting ++ [o] }).arbitrate 17

/-- An order of strictly higher priority waits (R86). -/
def Encoder.outranked (e : Encoder) (o : EncOrder) : Bool := e.waiting.any fun w => decide (o.priority < w.priority)

/-- The running order is paused: its block is written WAITING and it joins the list with its paused flag set (R86). -/
def State.pauseOrder (s : State) (o : EncOrder) : State :=
  let e := { s.encoder.free with waiting := s.encoder.waiting ++ [{ o with paused := true }] }
  ((s.setBlockState o.block .waiting).setEncoder e).arbitrate 17

/-- A card boundary of an ISSUE that has cards left: cancel, pause, or the next card (R86 to R88). -/
def State.boundary (s : State) (o : EncOrder) : State :=
  if o.cancelMark then s.finishOrder o .cancelled
  else if s.encoder.outranked o then s.pauseOrder o
  else
    match s.cardStart o false with
    | .ok o => s.startSensing o
    | .error res => s.finishOrder o res

/-- The card is ejected OUT and the order then ends with a result (R90 to R92). -/
def State.ejectAndEnd (s : State) (o : EncOrder) (res : Result) : State :=
  s.send o .working (.eject false) (.ejectEnd res)

/-! ## Reading and testing the card (R90, R91, R98) -/

/-- The card is a good GUEST card of the order's room, of its generation, with its copy issued (R90). -/
def State.currentCardOf (s : State) (r : Fin 48) (c : List Byte) : Bool :=
  match s.verdict c with
  | .ok .guest =>
    decide (cardRoom c = r.val) && decide (cardGeneration c = s.rooms[r].generation) && copyIn s.rooms[r].issued (cardCopy c)
  | .ok _ | .error _ => false

/-- The result an order ends with when the card found is not taken; none when it is (R90). -/
def State.cardRefused (s : State) (o : EncOrder) (c : Option (List Byte)) : Option Result :=
  let inUse := match c with
    | none => false
    | some c => s.cardInUse c
  match o.job, o.room with
  | .issue .rewrite, some r =>
    match c with
    | none => some .wrongCard
    | some c => if s.currentCardOf r c then none else some .wrongCard
  | .issue _, _ => if inUse then some .cardInUse else none
  | .eraseCard, _ => if inUse && !o.force then some .cardInUse else none
  | .readCard, _ => none

/-- The verdict of READ_CARD: the evaluation, then for a good GUEST card checks 1 to 4 of R52 against its own room; 0 for
"credential good" (R98). -/
def State.readVerdict (s : State) (c : List Byte) : Nat :=
  match s.verdict c with
  | .error reason => reason.code
  | .ok .guest => ((s.ownRoomCheck c).map Deny.code).getD 0
  | .ok _ => 0

/-- The result data of READ_CARD (R98, 12.2). -/
def State.readCardData (s : State) (c : Option (List Byte)) : List Byte :=
  match c with
  | none => [1]
  | some c => byteOf (2 * flagBit (isBlank c) + 4 * flagBit (isSpoiled c)) :: byteOf (s.readVerdict c) :: bytesAt c 2 16

/-! ## Building, writing, verifying (R92 to R95) -/

/-- Bytes 0 to 17 of an ISSUE card (R92). -/
def imageBody (siteCode : Nat) (o : EncOrder) (serial : Nat) : List Byte :=
  beBytes 2 siteCode ++
  [byteOf o.cls.code, byteOf ((o.room.map Fin.val).getD 255), byteOf (o.generation.getD 0), byteOf o.copy] ++
  beBytes 4 serial ++ beBytes 3 o.validFrom ++ beBytes 3 o.validUntil ++ [o.zoneMask, o.rights]

/-- The image with its check word (R40, R92). -/
def State.buildImage (s : State) (o : EncOrder) (serial : Nat) : List Byte :=
  let body := imageBody s.site.code o serial
  body ++ beBytes 2 (checkWord s.site.keyM s.site.keyN body)

/-- A write attempt begins (R93). -/
def State.writeAttempt (s : State) (o : EncOrder) (attempt : Nat) : State :=
  s.send o .working (.write o.image) (.writing attempt)

/-- The controller builds the image and writes it: the window test, the serial, the check word (R92). -/
def State.buildAndWrite (s : State) (o : EncOrder) : State :=
  if s.clock.isSet ∧ o.validUntil ≤ s.now then s.ejectAndEnd o .badParam
  else
    match s.takeSerial with
    | none => s.ejectAndEnd o .serialsExhausted
    | some (serial, s) => s.writeAttempt { o with unfinished := some serial, image := s.buildImage o serial } 1

/-- A card taken for an ISSUE has arrived: the advance of a NEW_STAY, or the room check again (R91). -/
def State.cardArrived (s : State) (o : EncOrder) : State :=
  match o.job, o.room, o.advanced with
  | .issue .newStay, some r, false =>
    match s.askAdvance r with
    | none => s.ejectAndEnd o .roomState
    | some s => s.buildAndWrite { o with generation := some s.rooms[r].generation, advanced := true }
  | _, _, _ =>
    match s.cardStart o true with
    | .error res => s.ejectAndEnd o res
    | .ok o => s.buildAndWrite o

/-- The card has been read, or found unreadable: it is tested, and the order goes on by its kind (R90, R98, R99). -/
def State.cardFound (s : State) (o : EncOrder) (c : Option (List Byte)) : State :=
  let o := { o with found := c }
  match s.cardRefused o c with
  | some res => s.ejectAndEnd o res
  | none =>
    match o.job with
    | .readCard => s.ejectAndEnd { o with readData := s.readCardData c, cardsDone := 1 } .ok
    | .eraseCard => s.writeAttempt { o with image := blankImage } 1
    | .issue .rewrite => s.cardArrived { o with copy := (c.map cardCopy).getD 0 }
    | .issue _ => s.cardArrived o

/-- A card is spoiled: twenty bytes of 0xEE are written (R94, R95). -/
def State.spoil (s : State) (o : EncOrder) (cause : Nat) : State :=
  s.send o .working (.write spoiledImage) (.spoilWrite cause)

/-- A write attempt fails: another follows, or the card is spoiled with cause 1 (R93). -/
def State.writeFailed (s : State) (o : EncOrder) (attempt : Nat) : State :=
  if o.noRetry ∨ 3 ≤ attempt then s.spoil o 1 else s.writeAttempt o (attempt + 1)

/-- The room index of an order's entries (R100). -/
def EncOrder.entryRoom (o : EncOrder) : Nat := (o.room.map Fin.val).getD 255

/-- The order after a verified ISSUE card (R95). -/
def EncOrder.issued (o : EncOrder) : EncOrder :=
  let serial := cardSerial o.image
  { o with
    unfinished := none, cardsDone := o.cardsDone + 1, lastSerial := some serial
    firstSerial := if o.firstSerial.isNone then some serial else o.firstSerial
    copies := if o.room.isSome then o.copies ||| copyBit o.copy else o.copies }

/-- A verified card is recorded where it must be: CARD_ISSUED, then EJECT OUT (R95, R100). -/
def State.cardIssued (s : State) (o : EncOrder) : State :=
  let s := s.admitRequest { kind := .cardIssued, room := o.entryRoom, reason := cardClass o.image, subject := cardSerial o.image,
                            value := twoItems (cardGeneration o.image) (cardCopy o.image) }
  s.send o.issued .working (.eject false) .ejectVerified

/-- The read-back equals the image: the card is verified (R95, R99). -/
def State.verified (s : State) (o : EncOrder) : State :=
  match o.job, o.room with
  | .issue mode, some r =>
    match s.recordCopy r (o.generation.getD 0) o.copy o.validUntil mode with
    | some s => s.cardIssued o
    | none => s.spoil { o with unfinished := none } 2
  | .issue _, none => s.cardIssued o
  | .eraseCard, _ => s.send { o with cardsDone := 1 } .working (.eject false) .ejectVerified
  | .readCard, _ => s.send o .working (.eject false) .ejectVerified

/-- The 0xEE image was sent: EJECT REJECT, CARD_SPOILED, and for cause 1 the spoil is counted (R94, R95). -/
def State.spoilWritten (s : State) (o : EncOrder) (cause : Nat) : State :=
  let serial := if o.job = .eraseCard then 0 else cardSerial o.image
  let next := if cause = 1 then { o with unfinished := none, spoilCount := o.spoilCount + 1 } else o
  let s := s.send next .working (.eject true) (.spoilEject cause)
  s.admitRequest { kind := .cardSpoiled, room := o.entryRoom, reason := cause, subject := serial,
                   value := twoItems (cardGeneration o.image) (cardCopy o.image) }

/-- The EJECT REJECT of a spoiled card ended: SPOIL_LIMIT, ROOM_STATE for an unrecorded card, or a boundary (R94, R95,
R99). -/
def State.spoilEjected (s : State) (o : EncOrder) (cause : Nat) : State :=
  if cause ≠ 1 then s.finishOrder o .roomState
  else if o.job = .eraseCard ∨ 3 ≤ o.spoilCount then s.finishOrder o .spoilLimit
  else s.boundary o

/-- The room index a CARD_ERASED entry shows (R100). -/
def EncOrder.erasedRoom (o : EncOrder) : Nat := (o.found.map shownRoom).getD 255

/-- The EJECT OUT of a verified card ended: CARD_ERASED and OK for ERASE_CARD, a boundary while an ISSUE has cards left, OK
after the last (R95, R99). -/
def State.verifiedEjected (s : State) (o : EncOrder) : State :=
  match o.job with
  | .eraseCard =>
    let old (f : List Byte → Nat) := (o.found.map f).getD 0
    (s.admitRequest { kind := .cardErased, room := o.erasedRoom, reason := flagBit o.force, subject := o.foundSerial,
                      value := twoItems (old cardGeneration) (old cardCopy) }).finishOrder o .ok
  | .issue _ => if o.cardsDone < o.count then s.boundary o else s.finishOrder o .ok
  | .readCard => s.finishOrder o .ok

/-! ## Replies (R83, R84, R89, R93) -/

/-- The open exchange has ended by a good reply: the port is ANSWERING (R84). -/
def State.encAnswered (s : State) : State := s.setEncoder { s.encoder with presence := .answering, exchange := none }

/-- An attempt fails: the message is sent again, or at the third failure the port is SILENT and the order ends
ENCODER_SILENT (R83, R84, R94). -/
def State.encAttemptFailed (s : State) (o : EncOrder) (x : EncExchange) : State :=
  if 0 < x.retries then { s with encoder := { s.encoder with exchange := some { x with retries := x.retries - 1, received := [] } } }
  else (s.setEncoder { s.encoder with presence := .silent, exchange := none }).finishOrder o .encoderSilent

/-- No complete reply arrived in 100 ms (R83). -/
def State.encTimeout (s : State) : State :=
  match s.encoder.exchange, s.encoder.running with
  | some x, some o => s.encoderStep fun s => s.encAttemptFailed o x
  | _, _ => s

/-- CARD_STATE while SENSING: present ends sensing and the card is read; absent goes on, at once when the pace has already
run out (R89). -/
def takeCardState (present : Bool) (stage : Stage) (o : EncOrder) (s : State) : State :=
  match stage with
  | .sensing =>
    if present then s.send o .working .read .reading
    else if s.encoder.paceDue then s.send o .sensing .sense .sensing
    else s
  | _ => s

/-- IMAGE: the card found, or a read-back compared with the image (R90, R93). -/
def takeImage (bytes : List Byte) (stage : Stage) (o : EncOrder) (s : State) : State :=
  match stage with
  | .reading => s.cardFound o (some bytes)
  | .verifying n => if bytes = o.image then s.verified o else s.writeFailed o n
  | _ => s

/-- READ_FAIL: an unreadable card, or a failed attempt (R90, R93). -/
def takeReadFail (stage : Stage) (o : EncOrder) (s : State) : State :=
  match stage with
  | .reading => s.cardFound o none
  | .verifying n => s.writeFailed o n
  | _ => s

/-- DONE: to a WRITE, a read-back or the reject of a spoiled card; to an EJECT, what follows the card (R93 to R95). -/
def takeDone (stage : Stage) (o : EncOrder) (s : State) : State :=
  match stage with
  | .writing n => s.send o .working .read (.verifying n)
  | .spoilWrite cause => s.spoilWritten o cause
  | .spoilEject cause => s.spoilEjected o cause
  | .ejectVerified => s.verifiedEjected o
  | .ejectEnd res => s.finishOrder o res
  | .none | .sensing | .reading | .verifying _ => s

/-- WRITE_FAIL: a failed attempt; a spoiling write goes on all the same (R93, R94). -/
def takeWriteFail (stage : Stage) (o : EncOrder) (s : State) : State :=
  match stage with
  | .writing n => s.writeFailed o n
  | .spoilWrite cause => s.spoilWritten o cause
  | _ => s

/-- A good answer is taken by its kind, in the stage the order stands in (R89 to R95). -/
def State.takeAnswer (s : State) (o : EncOrder) (a : EncAnswer) : State :=
  let t := s.encAnswered
  match a with
  | .cardState card => takeCardState (card = 1) s.encoder.stage o t
  | .image bytes => takeImage bytes s.encoder.stage o t
  | .readFail => takeReadFail s.encoder.stage o t
  | .done => takeDone s.encoder.stage o t
  | .writeFail => takeWriteFail s.encoder.stage o t

/-- A complete reply ends the attempt: a good one is taken, another fails it (R83). -/
def State.judgeAnswer (s : State) (o : EncOrder) (x : EncExchange) (good : Option EncAnswer) : State :=
  s.encoderStep fun s =>
    match good with
    | some a => s.takeAnswer o a
    | none => s.encAttemptFailed o x

/-- Characters reach an open exchange: one in error, before the reply is complete or in it, fails the attempt; else they are kept, with
those the attempt has received, until the reply is complete, and it is then judged (R83). Characters after it belong to no exchange. -/
def State.encReceive (s : State) (o : EncOrder) (x : EncExchange) (chars : List LineChar) : State :=
  let received := x.received ++ chars
  let reply := completeReply received
  if encoderCharsInError (reply.getD received) then s.judgeAnswer o x none
  else
    match reply with
    | none => s.setEncoder { s.encoder with exchange := some { x with received := received } }
    | some reply => s.judgeAnswer o x (x.goodReply (reply.map LineChar.data))

/-- Characters reach the port: with no exchange open they are discarded. -/
def State.encRaw (s : State) (chars : List LineChar) : State :=
  match s.encoder.exchange, s.encoder.running with
  | some x, some o => s.encReceive o x chars
  | _, _ => s

/-- An answer of the encoder reaches the port in good characters: with no exchange open it is discarded; as all that the attempt has
received it is judged by its kind and payload, and after other characters it is read with them (R83). -/
def State.encReply (s : State) (a : EncAnswer) : State :=
  match s.encoder.exchange, s.encoder.running with
  | some x, some o =>
    if x.received = [] then s.judgeAnswer o x (x.goodAs a) else s.encReceive o x (a.bytes.map (soundChar .even))
  | _, _ => s

/-- The 200 ms pace runs out while SENSING: the next SENSE is sent, or waits for the end of the open exchange (R89). -/
def State.pace (s : State) : State :=
  match s.encoder.running with
  | none => s
  | some o =>
    if s.encoder.state ≠ .sensing then s
    else if s.encoder.exchange.isSome then { s with encoder := { s.encoder with paceDue := true } }
    else s.send o .sensing .sense .sensing

/-! ## Ticks and CANCEL (R87, R89) -/

/-- A seconds tick reaches the controller: while SENSING the card wait count falls by one, and at 0 the order ends NO_CARD
(R89). -/
def State.tickEncoder (s : State) : State :=
  match s.encoder.running with
  | none => s
  | some o =>
    if s.encoder.state ≠ .sensing then s
    else if o.waitCount ≤ 1 then s.encoderStep fun s => s.finishOrder { o with waitCount := 0 } .noCard
    else s.setRunning { o with waitCount := o.waitCount - 1 }

/-- A CANCEL reaches the running order: its mark is set (R87). -/
def State.markCancel (s : State) (b : Fin 16) : State :=
  match s.encoder.running with
  | none => s
  | some o => if o.block = b then s.setRunning { o with cancelMark := true } else s

/-- A CANCEL removes a waiting order, which ends CANCELLED (R87). -/
def State.cancelWaiting (s : State) (o : EncOrder) : State :=
  let e := { s.encoder with waiting := s.encoder.waiting.filter fun w => decide (w.block ≠ o.block) }
  ({ s with encoder := e } : State).complete o.block .cancelled (s.encData o .cancelled)

end Sys2Proof.Machine
end

