-- ==== Sys2Proof/Machine/EncoderEvents.lean ====
section
/-! DEFINITION. What reaches the encoder port from outside (chapter 6). -/

namespace Sys2Proof.Machine

open Sys2Proof

/-- CARD_STATE: 0 absent, 1 present; another payload fails the attempt (R83, R89). -/
def execCardState (card : Byte) (s : State) : Host.Outcome State Fault Refusal :=
  .next (s.encReply (.cardState card))

/-- SENSE_PACE: 200 ms since the last SENSE began (R89). -/
def execSensePace (s : State) : Host.Outcome State Fault Refusal := .next s.pace

/-- IMAGE: the twenty bytes on the card (R90, R93). -/
def execImage (bytes : List Byte) (s : State) : Host.Outcome State Fault Refusal :=
  .next (s.encReply (.image bytes))

/-- READ_FAIL: the card could not be read (R90, R93). -/
def execReadFail (s : State) : Host.Outcome State Fault Refusal := .next (s.encReply .readFail)

/-- DONE: the bytes are written, or the card has left (R93 to R95). -/
def execDone (s : State) : Host.Outcome State Fault Refusal := .next (s.encReply .done)

/-- WRITE_FAIL: the write could not be completed (R93, R94). -/
def execWriteFail (s : State) : Host.Outcome State Fault Refusal := .next (s.encReply .writeFail)

/-- ENCODER_BAD_REPLY: characters as the receiver finds them, in error or not, a whole reply or a part of one (R83). -/
def execEncoderBadReply (first : LineChar) (rest : List LineChar) (s : State) : Host.Outcome State Fault Refusal :=
  .next (s.encRaw (first :: rest))

/-- ENCODER_REPLY_TIMEOUT: no complete reply in 100 ms (R83). -/
def execEncoderReplyTimeout (s : State) : Host.Outcome State Fault Refusal := .next s.encTimeout

end Sys2Proof.Machine
end

