-- ==== Sys2Proof/Machine/JournalOrders.lean ====
section
/-! DEFINITION. JOURNAL_WRITE and JOURNAL_CUT (chapter 10). -/

namespace Sys2Proof.Machine

open Sys2Proof

/-! ## JOURNAL_WRITE (R161, R162) -/

/-- The oldest entry is written into the buffer: the sixteen bytes, the sequences, the written count; it leaves the queue
(R161). -/
def State.writeEntry (s : State) (f : Filling) (e : Entry) (rest : List Entry) : State :=
  let at_ := descriptorAddr f.index
  let s := s.store (f.offset + 16 * f.written) e.bytes
  let s := s.store (at_ + 10) (leBytes 2 e.sequence)
  let s := if f.written = 0 then s.store (at_ + 8) (leBytes 2 e.sequence) else s
  let s := s.store (at_ + 6) (leBytes 2 (f.written + 1))
  let g : Filling := { f with
    written := f.written + 1, lastSeq := e.sequence, firstSeq := if f.written = 0 then e.sequence else f.firstSeq }
  ({ s with journal := { s.journal with queue := rest, filling := some g } } : State).rewriteSite

/-- The end a write brings, if any: ALARM_CUT before FULL (R162). -/
def Filling.endAfter (f : Filling) (e : Entry) : Option EndStatus :=
  if e.kind.isAlarm && f.cutOnAlarm then some .alarmCut
  else if f.capacity ≤ f.written + 1 then some .full
  else none

/-- One write of the Journal Writer, when a descriptor is FILLING and an entry waits (R161, R162). -/
def State.journalWrite (s : State) : State :=
  match s.journal.filling, s.journal.queue with
  | some f, e :: rest =>
    let s := s.writeEntry f e rest
    match f.endAfter e with
    | none => s
    | some st => s.endDescriptor f st
  | _, _ => s

/-- JOURNAL_WRITE. -/
def execJournalWrite (s : State) : Host.Outcome State Fault Refusal := .next s.journalWrite

/-! ## JOURNAL_CUT (R163) -/

/-- The result data of JOURNAL_CUT when nothing was FILLING (R163). -/
def State.idleCutData (s : State) : List Byte :=
  [255, byteOf s.journal.queue.length] ++ leBytes 6 0 ++ leBytes 2 s.journal.gap

/-- The first and last sequence of the descriptor that was FILLING, as they stand (R163): those the Journal Writer wrote there, or, before its
first write, what the descriptor holds in shared RAM: 0 after a start, or what an earlier filling or the host left (R159, R161). That the first
case does not look at shared RAM, by R159, and the second does, by R163, is a DESIGN CHOICE, log 30. -/
def State.cutSequences (s : State) (f : Filling) : Nat × Nat :=
  let at_ := descriptorAddr f.index
  if f.written = 0 then (s.field (at_ + 8) 2, s.field (at_ + 10) 2) else (f.firstSeq, f.lastSeq)

/-- The result data for the descriptor that was FILLING (R163). -/
def State.cutData (s : State) (f : Filling) : List Byte :=
  let (first, last) := s.cutSequences f
  [byteOf f.index.val, byteOf s.journal.queue.length] ++ leBytes 2 f.written ++ leBytes 2 first ++ leBytes 2 last ++
  leBytes 2 s.journal.gap

/-- A JOURNAL_CUT completes, whatever its result, with the fields of the descriptor that was FILLING, if any, as they stand after the order
(R163). -/
def State.answerCut (s : State) (b : Fin 16) (f : Option Filling) (res : Result) : State :=
  s.complete b res (match f with
    | none => s.idleCutData
    | some f => s.cutData f)

/-- A FILLING descriptor with nothing written returns to ARMED, and a search follows (R163). -/
def State.returnDescriptor (s : State) (f : Filling) : State :=
  let s := s.store (descriptorAddr f.index) [DescriptorState.armed.code]
  ({ s with journal := { s.journal with filling := none } } : State).search

/-- The descriptor field: none is ANY, 0xFF (12.2). -/
def cutTarget (n : Nat) : Option (Option (Fin 4)) := if n = 0xFF then some none else (asFin 4 n).map some

/-- JOURNAL_CUT served (R163). -/
def State.journalCut (h : Held) (s : State) : State :=
  match cutTarget (leAt h.params 0 1) with
  | none => s.answerCut h.block s.journal.filling .badParam
  | some target =>
    match s.journal.filling with
    | none => s.answerCut h.block none .notNeeded
    | some f =>
      if target.isSome ∧ target ≠ some f.index then s.answerCut h.block f .notNeeded
      else if f.written = 0 then (s.returnDescriptor f).answerCut h.block f .notNeeded
      else (s.endDescriptor f .cutByOrder).answerCut h.block f .ok

/-- JOURNAL_CUT in block `b`. -/
def execJournalCut (b : Fin 16) (s : State) : Host.Outcome State Fault Refusal :=
  .next (s.serve b .journalCut State.journalCut)

end Sys2Proof.Machine
end

