-- ==== Sys2Proof/Machine/DirectedQueue.lean ====
section
/-! DEFINITION. The directed queue of a line (8.6): requests, owed marks, the disposal at a change of line state, and what
the owner of a lost OPEN does with the report (R63, R110). -/

namespace Sys2Proof.Machine

open Sys2Proof

/-! ## A lost OPEN -/

/-- The GRANT_UNDELIVERED entry of a grant (R59, R123). -/
def undeliveredRequest (place : Nat) (g : Grant) (cause : Nat) : Request :=
  { kind := .grantUndelivered, place := place, room := g.room, reason := g.cls.code, subject := g.serial,
    value := cause }

/-- The Door Decision Unit hears that an OPEN left the line without an ACK: cause 2 failed, 3 discarded (R63). -/
def State.doorGrantLost (s : State) (l : Fin 2) (a : Fin 64) (cause : Nat) : State :=
  match (s.drop l a).door with
  | none => s
  | some d =>
    match d.pending with
    | none => s
    | some g =>
      let latch := if d.latch = .granted ∧ d.deadline.isNone then Latch.latched else d.latch
      (s.admitRequest (undeliveredRequest (placeOf l a) g cause)).putDoor l a
        (some { d with pending := none, latch := latch })

/-- The Minibar Unit hears the same of a minibar's OPEN (R110). -/
def State.minibarGrantLost (s : State) (r : Fin 48) (place cause : Nat) : State :=
  let m := s.minibars[r]
  match m.pending with
  | none => s
  | some g =>
    let m := { m with pending := none }
    let m := if m.state = .granted ∧ m.deadline.isNone then (m.rest .locked).applyMark else m
    (s.admitRequest (undeliveredRequest place g cause)).putMinibar r m

/-- The room whose minibar is bound at an address. -/
def State.minibarAt (s : State) (l : Fin 2) (a : Fin 64) : Option (Fin 48) :=
  match (s.drop l a).binding with
  | some (.minibar r) => some r
  | _ => none

/-- The report that an OPEN left the line without an ACK goes to the block that asked for it (R140). -/
def State.openLost (s : State) (l : Fin 2) (a : Fin 64) (asker : Asker) (cause : Nat) : State :=
  match asker with
  | .doorUnit => s.doorGrantLost l a cause
  | .minibarUnit =>
    match s.minibarAt l a with
    | none => s
    | some r => s.minibarGrantLost r (placeOf l a) cause
  | .zoneTable => s

/-! ## Requests (R139) -/

/-- The answer to a request. -/
inductive Answer where
  | queued | owed | notQueued
  deriving DecidableEq, Repr

/-- The directed message in exchange, which keeps its place in the queue (8.6). -/
def Line.inExchange (x : Line) : Option QMsg :=
  match x.activity with
  | .exchange { msg := .directed m, .. } => some m
  | _ => none

/-- Places of the queue in use (8.6). -/
def Line.places (x : Line) : Nat := x.queue.length + (if x.inExchange.isSome then 1 else 0)

/-- The drop's waiting message. -/
def Line.waitingFor (x : Line) (a : Fin 64) : Option QMsg := x.queue.find? fun m => decide (m.addr = a)

/-- Row 1 of R139: a HOLD, LATCH, SCAN_TRAYS or STOP_SCAN waits for the drop or is owed to it. -/
def Line.holdsBack (x : Line) (a : Fin 64) : Bool :=
  (match x.waitingFor a with
   | some m => !m.msg.isOpenOrDeny
   | none => false) || x.drops[a].owed.isSome

/-- The drop's owed mark becomes a message, or none. -/
def State.setOwed (s : State) (l : Fin 2) (a : Fin 64) (o : Option Owed) : State :=
  s.setDrop l a { s.drop l a with owed := o }

/-- The waiting queue of a line changes. -/
def State.setQueue (s : State) (l : Fin 2) (q : List QMsg) : State :=
  s.setLine l { s.lines[l] with queue := q }

/-- A request that cannot be queued: OPEN and DENY are answered not queued, the other kinds become the drop's owed
mark (R139, last rows). -/
def State.owe (s : State) (l : Fin 2) (m : QMsg) : State × Answer :=
  if m.msg.isOpenOrDeny then (s, .notQueued)
  else (s.setOwed l m.addr (some { msg := m.msg, asker := m.asker }), .owed)

/-- A request to send a directed message to a drop (R139). A waiting OPEN replaced by a message of another kind is reported
as discarded (R140). -/
def State.request (s : State) (l : Fin 2) (m : QMsg) : State × Answer :=
  let x := s.lines[l]
  if x.state ≠ .run then s.owe l m
  else if m.msg.isOpenOrDeny ∧ x.holdsBack m.addr then (s, .notQueued)
  else
    match x.waitingFor m.addr with
    | some old =>
      let t := (s.setQueue l (x.queue.map fun q => if q.addr = m.addr then m else q)).setOwed l m.addr none
      if old.msg.isOpen ∧ !m.msg.isOpen then (t.openLost l m.addr old.asker 3, .queued) else (t, .queued)
    | none =>
      if x.places < Config.directedLimit then
        ((s.setQueue l (x.queue ++ [m])).setOwed l m.addr none, .queued)
      else s.owe l m

/-- A request whose answer the asking block does not read. -/
def State.ask (s : State) (l : Fin 2) (a : Fin 64) (msg : Directed) (asker : Asker) : State :=
  (s.request l { addr := a, msg := msg, asker := asker }).1

/-- The owed mark of one address is placed at the end of the queue when the line is in RUN and has a free place. -/
def State.placeOwedAt (l : Fin 2) (s : State) (a : Fin 64) : State :=
  let x := s.lines[l]
  match x.drops[a].owed with
  | none => s
  | some o =>
    if x.state = .run ∧ x.places < Config.directedLimit then
      (s.setQueue l (x.queue ++ [{ addr := a, msg := o.msg, asker := o.asker }])).setOwed l a none
    else s

/-- Owed marks are placed, lowest address first, until the queue is full or none is left (R140). -/
def State.placeOwed (s : State) (l : Fin 2) : State := allAddrs.foldl (State.placeOwedAt l) s

/-! ## Disposal at a change of line state (R142) -/

/-- One message that stood in the queue is disposed of. `keep` is set for the message in exchange: an owed mark that
already stands is newer and is kept. -/
def State.disposeOne (l : Fin 2) (keep : Bool) (s : State) (m : QMsg) : State :=
  match m.msg with
  | .openLock _ => s.openLost l m.addr m.asker 3
  | .hold | .latch =>
    if keep ∧ (s.drop l m.addr).owed.isSome then s
    else s.setOwed l m.addr (some { msg := m.msg, asker := m.asker })
  | .deny _ | .scanAll | .scanTray _ | .stopScan => s

/-- The queue is emptied, the exchange closed and a held report dropped; the message in exchange is disposed of first,
then the waiting ones in order (R142). -/
def State.dispose (s : State) (l : Fin 2) : State :=
  let x := s.lines[l]
  let t := s.setLine l { x with queue := [], activity := .idle, returning := none }
  let t := match x.inExchange with
    | none => t
    | some m => State.disposeOne l true t m
  x.queue.foldl (State.disposeOne l false) t

end Sys2Proof.Machine
end

