-- ==== Sys2Proof/Machine/Minibars.lean ====
section
/-! DEFINITION. The Minibar Unit (chapter 7): reach, openings, scans, restocks and final scans. -/

namespace Sys2Proof.Machine

open Sys2Proof

/-- The place of a room's minibar: its drop, or none (R123). -/
def State.minibarPlace (s : State) (r : Fin 48) : Nat :=
  match s.minibarDropOf r with
  | none => noPlace
  | some (l, a) => placeOf l a

/-- A message to a room's minibar drop, when one is bound. -/
def State.askMinibar (s : State) (r : Fin 48) (msg : Directed) : State :=
  match s.minibarDropOf r with
  | none => s
  | some (l, a) => s.ask l a msg .minibarUnit

/-- The result data of MINIBAR_SCAN (R118, 12.2). -/
def scanData (m : Minibar) (read missing : Byte) : List Byte :=
  [read, missing, m.faults, byteOf m.flags] ++ leBytes 4 m.charge ++ leBytes 4 m.carried

/-- The MINIBAR_FAULT entry (R123): 1 fault onset, 2 scan expired, 3 out of reach, 4 forced during a scan. -/
def State.minibarFault (s : State) (r : Fin 48) (place reason : Nat) (charge : Nat) (trays : Byte) : State :=
  s.admitRequest { kind := .minibarFault, place := place, room := r.val, reason := reason, subject := charge,
                   value := trays.toNat }

/-- A minibar's HOST scan answers its MINIBAR_SCAN, with the record `m` before a stay-start mark is applied (R117, R118). -/
def State.answerScan (s : State) (r : Fin 48) (m : Minibar) (purpose : Option ScanPurpose) (res : Result)
    (read missing : Byte) : State :=
  if purpose = some .host then s.completeFor (.minibarUnit r) res (scanData m read missing) else s

/-- A final scan's report to the Room Table, with the charge as it stands (R117, R122). -/
def State.reportFinal (s : State) (r : Fin 48) (isFinal scanned : Bool) : State :=
  if isFinal then s.finalReport r scanned s.minibars[r].charge else s

/-- The record after the readings and the charge of a completing scan (R117 steps 1 and 2). -/
def Minibar.weighed (m : Minibar) : Minibar :=
  if m.purpose = some .restock then m.applyRestock.recharge else m.applyReadings.recharge

/-- The entry of a completing scan: MINIBAR_RESTOCKED for a RESTOCK, MINIBAR_CHARGE for another when the charge has
changed (R117 step 2, R123). Its FINAL flag is that of a final scan of R117, by purpose or by mark: DEDUCED, log 38. -/
def State.scanEntry (s : State) (r : Fin 48) (m : Minibar) : State :=
  let w := m.weighed
  if m.purpose = some .restock then
    s.admitRequest { kind := .minibarRestocked, place := s.minibarPlace r, room := r.val, subject := w.carried,
                     value := m.goodTrays.toNat }
  else if w.charge ≠ m.charge then
    s.admitRequest { kind := .minibarCharge, place := s.minibarPlace r, room := r.val,
                     reason := (m.purpose.map ScanPurpose.code).getD 0, subject := w.charge,
                     value := twoItems m.requested.toNat (flagBit m.isFinalScan) }
  else s

/-- The scan of the record `m`, with a reading for every requested tray, is finished (R117); the room mirror is rewritten once, for
the state, the readings and the stay-start mark together (R174). -/
def State.finishScan (s : State) (r : Fin 48) (m : Minibar) : State :=
  let faults := m.newFaults (m.purpose = some .restock)
  let s := if faults ≠ 0 then s.minibarFault r (s.minibarPlace r) 1 m.charge faults else s
  let s := s.scanEntry r m
  let w := m.weighed.rest .locked
  let s := { s with minibars := s.minibars.set r w.applyMark }.rewriteRoom r
  (s.answerScan r w m.purpose .ok m.requested 0).reportFinal r m.isFinalScan true

/-- All trays in use. -/
def Minibar.allTrays (m : Minibar) : Byte := firstBits m.trayCount

/-- A scan starts (R112): `single` is the one tray of a HOST scan of one tray. With no tray requested it completes as soon
as it starts. -/
def State.startScan (s : State) (r : Fin 48) (purpose : ScanPurpose) (single : Option Nat) : State :=
  let m := s.minibars[r]
  let requested := match single with
    | none => m.allTrays
    | some t => BitVec.ofNat 8 (2 ^ t)
  let m := { m with
    state := .scanning, opener := none, deadline := none, onClose := none, latchMark := false,
    purpose := some purpose, requested := requested, collected := Vector.replicate 8 none, scanCount := 10 }
  if requested = 0 then s.finishScan r m
  else
    let s := s.putMinibar r m
    match single with
    | none => s.askMinibar r .scanAll
    | some t => s.askMinibar r (.scanTray t)

/-! ## Reach (R103, R104) -/

/-- The event that brings a minibar within reach: an OFFLINE one becomes LOCKED (R103). -/
def State.minibarReached (s : State) (r : Fin 48) : State :=
  let m := s.minibars[r]
  if m.state = .offline then s.putMinibar r (m.rest .locked).applyMark else s

/-- An event that ends a minibar's reach: what is in progress ends, and it is OFFLINE (R104). -/
def State.minibarLost (s : State) (r : Fin 48) (place : Nat) : State :=
  let m := s.minibars[r]
  match m.state with
  | .offline => s
  | .locked => s.putMinibar r m.offline.applyMark
  | .granted =>
    let s := match m.pending with
      | none => s
      | some g => s.admitRequest (undeliveredRequest place g 3)
    (s.putMinibar r m.offline.applyMark).reportFinal r m.finalMark false
  | .opened =>
    (s.putMinibar r m.offline.applyMark).reportFinal r
      (decide (m.onClose = some .final) || m.finalMark) false
  | .scanning =>
    let s := s.minibarFault r place 3 m.charge m.missing
    let s := s.putMinibar r m.offline.applyMark
    (s.answerScan r m.offline m.purpose .dropOffline 0 m.missing).reportFinal r m.isFinalScan false

/-! ## Openings (R105 to R111) -/

/-- A refusal at a minibar: DENY unless a grant is pending, the DENY entry, the room's last deny pair (R108). -/
def State.minibarRefuse (s : State) (l : Fin 2) (a : Fin 64) (r : Fin 48) (c : List Byte) (reason : Deny) : State :=
  let (s, sent) :=
    if s.minibars[r].pending.isSome then (s, false)
    else
      let (s, answer) := s.request l { addr := a, msg := .deny reason.cls, asker := .minibarUnit }
      (s, decide (answer = .queued))
  let s := s.admitRequest { kind := .deny, place := placeOf l a, room := r.val, reason := reason.code,
                            subject := cardSerial c, value := twoItems reason.cls (flagBit (!sent)) }
  s.putDeny r reason

/-- A grant at a minibar (R109). -/
def State.minibarGrant (s : State) (l : Fin 2) (a : Fin 64) (r : Fin 48) (cls : CardClass) (c : List Byte) : State :=
  let seconds := (s.drop l a).openTime
  let g : Grant := { cls := cls, serial := cardSerial c, seconds := seconds, room := r.val }
  let (s, answer) := s.request l { addr := a, msg := .openLock seconds, asker := .minibarUnit }
  if answer = .queued then
    let m := { s.minibars[r] with
      state := MinibarState.granted, opener := some cls, deadline := none, pending := some g }
    (s.putMinibar r m).admitRequest { kind := .minibarOpen, place := placeOf l a, room := r.val, reason := cls.code,
                                      subject := g.serial, value := seconds }
  else s.admitRequest (undeliveredRequest (placeOf l a) g 1)

/-- The conditions of a GUEST card at a minibar, in order (R106). -/
def State.minibarGuestCheck (s : State) (r : Fin 48) (c : List Byte) : Option Deny :=
  let room := s.rooms[r]
  let m := s.minibars[r]
  if !holdsRight c rightMinibarOpen then some .noRight
  else if cardRoom c ≠ r.val ∨ room.state = .unused then some .wrongRoom
  else
    match stayCheck room c with
    | some reason => some reason
    | none =>
      if m.limit ≤ m.charge then some .limitReached
      else if m.state ≠ .locked then some .minibarBusy
      else none

/-- The conditions of a SERVICE card at a minibar, in order (R107). -/
def State.minibarServiceCheck (s : State) (r : Fin 48) (c : List Byte) : Option Deny :=
  if !holdsRight c rightRestock then some .noRight
  else if s.rooms[r].state = .unused then some .roomState
  else if s.minibars[r].state ≠ .locked then some .minibarBusy
  else if s.journalBlocked then some .journalFull
  else none

/-- The one decision on a read at a minibar: the failing reason, or the class that is granted (R105). -/
def State.minibarDecision (s : State) (l : Fin 2) (a : Fin 64) (r : Fin 48) (c : List Byte) : Except Deny CardClass :=
  if (s.drop l a).presence = .mismatch then .error .unboundDrop
  else
    match s.verdict c with
    | .error reason => .error reason
    | .ok .guest => match s.minibarGuestCheck r c with
      | some reason => .error reason
      | none => .ok .guest
    | .ok .service => match s.minibarServiceCheck r c with
      | some reason => .error reason
      | none => .ok .service
    | .ok .staff | .ok .emergency => .error .classNotAllowed

/-- A CARD_READ at a minibar is decided (R105). -/
def State.minibarRead (s : State) (l : Fin 2) (a : Fin 64) (r : Fin 48) (c : List Byte) : State :=
  match s.minibarDecision l a r c with
  | .error reason => s.minibarRefuse l a r c reason
  | .ok cls => s.minibarGrant l a r cls c

/-- An OPEN exchange of a minibar succeeded: the pending grant is taken away and the open window runs (R110). -/
def State.minibarOpened (s : State) (r : Fin 48) : State :=
  let m := s.minibars[r]
  match m.pending with
  | none => s
  | some g =>
    let m := { m with pending := none }
    s.putMinibar r (if m.state = .granted then { m with deadline := some g.seconds } else m)

/-- The end of the LATCH exchange of a final scan, or the expiry of a running deadline under a FINAL mark: the
scan starts (R122). -/
def State.startFinal (s : State) (r : Fin 48) : State := s.startScan r .final none

/-- The report of a LATCH exchange: dropped when the final LATCH mark is clear (R122). -/
def State.latchReported (s : State) (r : Fin 48) : State :=
  if s.minibars[r].latchMark ∧ s.minibars[r].state = .granted then s.startFinal r else s

/-- The scan a closing starts for a cabinet opened by a card (R111). -/
def purposeOf : Option CardClass → ScanPurpose
  | some .service => .restock
  | _ => .afterClose

/-- OPEN reported by a cabinet (R111). -/
def State.minibarDoorOpen (s : State) (r : Fin 48) (place : Nat) : State :=
  let m := s.minibars[r]
  let forced (s : State) (value : Nat) :=
    s.admitRequest { kind := .minibarForced, place := place, room := r.val, value := value }
  match m.state with
  | .offline | .opened => s
  | .locked =>
    (forced s 1).putMinibar r { m with state := .opened, onClose := some .afterClose }
  | .granted =>
    s.putMinibar r { m with
      state := .opened, deadline := none, onClose := some (purposeOf m.opener), opener := none, latchMark := false }
  | .scanning =>
    let s := s.askMinibar r .stopScan
    let m := s.minibars[r]
    let s := (forced s 2).minibarFault r place 4 m.charge m.missing
    let onClose := match m.purpose with
      | some .host | none => ScanPurpose.afterClose
      | some p => p
    let x := { m.rest .opened with onClose := some onClose, finalMark := m.finalMark }
    (s.putMinibar r x).answerScan r x m.purpose .minibarBusy 0 m.missing

/-- CLOSED reported by a cabinet: an OPEN one is weighed (R111, R112). -/
def State.minibarDoorClosed (s : State) (r : Fin 48) : State :=
  let m := s.minibars[r]
  if m.state = .opened then s.startScan r (m.onClose.getD .afterClose) none else s

/-- TRAY_DATA for a minibar: readings of requested trays below the tray count are collected, and a scan with every reading
completes (R113). -/
def State.trayReadings (s : State) (r : Fin 48) (first : Nat) (readings : List Nat) : State :=
  let m := s.minibars[r]
  if m.state ≠ .scanning then s
  else
    let collected := Vector.ofFn fun t : Fin 8 =>
      if first ≤ t.val ∧ t.val < first + readings.length ∧ t.val < m.trayCount ∧ trayIn m.requested t.val then
        some (min (readings.getD (t.val - first) 0) 4095)
      else m.collected[t]
    let m : Minibar := { m with collected := collected }
    if m.missing = 0 then s.finishScan r m else s.putMinibar r m

/-! ## Ticks (R110, R114) -/

/-- The grant deadline of a GRANTED minibar runs out (R110). -/
def State.minibarWindowEnds (s : State) (r : Fin 48) : State :=
  let m := s.minibars[r]
  if m.finalMark then s.startFinal r
  else s.putMinibar r (m.rest .locked).applyMark

/-- A scan's count runs out: it is abandoned (R114). -/
def State.scanExpires (s : State) (r : Fin 48) : State :=
  let s := s.askMinibar r .stopScan
  let m := s.minibars[r]
  let s := s.minibarFault r (s.minibarPlace r) 2 m.charge m.missing
  let x := m.rest .locked
  let s := s.putMinibar r x.applyMark
  (s.answerScan r x m.purpose .ok 0 m.missing).reportFinal r m.isFinalScan false

/-- A seconds tick reaches a minibar: a running deadline or the scan count falls by one (R110, R114). -/
def State.tickMinibar (s : State) (r : Fin 48) : State :=
  let m := s.minibars[r]
  match m.state with
  | .granted =>
    match m.deadline with
    | none => s
    | some n => if n ≤ 1 then s.minibarWindowEnds r else s.putMinibar r { m with deadline := some (n - 1) }
  | .scanning =>
    if m.scanCount ≤ 1 then s.scanExpires r else s.putMinibar r { m with scanCount := m.scanCount - 1 }
  | .offline | .locked | .opened => s

/-! ## Final scans (R122) -/

/-- The Room Table asks for a final scan (R122). -/
def State.finalRequested (s : State) (r : Fin 48) : State :=
  let m := s.minibars[r]
  match m.state with
  | .locked => s.startFinal r
  | .granted =>
    -- the grant is withdrawn without an entry, so it goes before the LATCH may replace its OPEN
    let s := s.putMinibar r { m with finalMark := true, latchMark := true, pending := none }
    s.askMinibar r .latch
  | .opened | .scanning => s.putMinibar r { m with finalMark := true }
  | .offline => s.finalReport r false m.charge

end Sys2Proof.Machine
end

