-- ==== Sys2Proof/Machine/Doors.lean ====
section
/-! DEFINITION. The Door Decision Unit (chapter 4): the decision on a read, grants and refusals, door reports, the held timer,
and the notices of presence and of zones. -/

namespace Sys2Proof.Machine

open Sys2Proof

/-- The room index an entry of the door itself shows: the door's room, or 255 for a gate (R59). -/
def doorRoom : Option Binding → Nat
  | some (.door r) => r.val
  | _ => 255

/-- The room index an entry of a read shows: the door's room, else the card's (R59). -/
def readRoom (b : Option Binding) (c : List Byte) : Nat :=
  match b with
  | some (.door r) => r.val
  | _ => shownRoom c

/-! ## Class rules (R52 to R57) -/

/-- The bolt field reads ENGAGED. -/
def boltEngaged (d : Option DoorSide) : Bool :=
  match d with
  | none => false
  | some d => decide (d.bolt = .engaged)

/-- A GUEST card at a room door (R52). -/
def State.guestAtDoor (s : State) (r : Fin 48) (d : Option DoorSide) (c : List Byte) : Option Deny :=
  match asFin 48 (cardRoom c) with
  | none => some .wrongRoom
  | some k =>
    if s.rooms[k].state = .unused ∨ k ≠ r then some .wrongRoom
    else
      match stayCheck s.rooms[k] c with
      | some reason => some reason
      | none => if boltEngaged d then some .deadbolt else none

/-- A GUEST card at a gate (R53). -/
def State.guestAtGate (s : State) (z : Fin 8) (c : List Byte) : Option Deny :=
  match s.ownRoomCheck c with
  | some reason => some reason
  | none =>
    if !(cardZones c).getLsbD z.val then some .noZone
    else if !s.zones[z].isOpen s.clock then some .zoneClosed
    else none

/-- A STAFF or SERVICE card at a gate (R54, R55). -/
def State.staffAtGate (s : State) (z : Fin 8) (c : List Byte) : Option Deny :=
  if !(cardZones c).getLsbD z.val then some .noZone
  else if s.journalBlocked then some .journalFull
  else none

/-- A STAFF card at a room door (R54). -/
def State.staffAtDoor (s : State) (d : Option DoorSide) (c : List Byte) : Option Deny :=
  if boltEngaged d && !holdsRight c rightDeadbolt then some .deadbolt
  else if s.journalBlocked then some .journalFull
  else none

/-- A SERVICE card at a room door (R55). -/
def State.serviceAtDoor (s : State) (r : Fin 48) (d : Option DoorSide) : Option Deny :=
  if s.rooms[r].state ≠ .vacant ∧ s.rooms[r].state ≠ .outOfService then some .roomState
  else if boltEngaged d then some .deadbolt
  else if s.journalBlocked then some .journalFull
  else none

/-- The rules of a good card's class at a DOOR or GATE drop. An EMERGENCY card meets none: R56 grants it whatever its zone mask, where R12 has
it pass gates subject to that mask. DESIGN CHOICE, log 47: R56. -/
def State.classCheck (s : State) (b : Binding) (d : Option DoorSide) (cls : CardClass) (c : List Byte) : Option Deny :=
  match cls, b with
  | .guest, .door r => s.guestAtDoor r d c
  | .guest, .gate z => s.guestAtGate z c
  | .staff, .door _ => s.staffAtDoor d c
  | .service, .door r => s.serviceAtDoor r d
  | .staff, .gate z | .service, .gate z => s.staffAtGate z c
  | .emergency, _ => none
  | _, .minibar _ => some .classNotAllowed

/-- The one decision on a read delivered to the Door Decision Unit: the failing reason, or the class that is granted. An
unbound drop and one in MISMATCH presence are refused with no evaluation (R51). -/
def State.doorDecision (s : State) (l : Fin 2) (a : Fin 64) (c : List Byte) : Except Deny CardClass :=
  let d := s.drop l a
  match d.binding with
  | none => .error .unboundDrop
  | some b =>
    if d.presence = .mismatch then .error .unboundDrop
    else
      match s.verdict c with
      | .error reason => .error reason
      | .ok cls =>
        match s.classCheck b d.door cls c with
        | some reason => .error reason
        | none => .ok cls

/-! ## Refusals and grants (R58 to R61) -/

/-- A pending grant stands at the drop. -/
def State.grantPending (s : State) (l : Fin 2) (a : Fin 64) : Bool :=
  match (s.drop l a).door with
  | none => false
  | some d => d.pending.isSome

/-- A refusal at a door, a gate or an unbound drop: DENY unless a grant is pending, the DENY entry, and the last deny pair of
a DOOR drop's room (R58, R59). -/
def State.doorRefuse (s : State) (l : Fin 2) (a : Fin 64) (c : List Byte) (reason : Deny) : State :=
  let b := (s.drop l a).binding
  let (s, sent) :=
    if s.grantPending l a then (s, false)
    else
      let (s, answer) := s.request l { addr := a, msg := .deny reason.cls, asker := .doorUnit }
      (s, decide (answer = .queued))
  let s := s.admitRequest { kind := .deny, place := placeOf l a, room := readRoom b c, reason := reason.code,
                            subject := cardSerial c, value := twoItems reason.cls (flagBit (!sent)) }
  match b with
  | some (.door r) => s.putDeny r reason
  | _ => s

/-- The Room Table is told of a guest grant (R24, R60). -/
def State.noticeGuest (s : State) (cls : CardClass) (c : List Byte) : State :=
  match cls, asFin 48 (cardRoom c) with
  | .guest, some r => s.guestGranted r
  | _, _ => s

/-- The entry of a grant: EMERGENCY_ENTRY for an EMERGENCY card, GRANT for another (R59, R60). -/
def grantRequest (place room : Nat) (cls : CardClass) (serial seconds : Nat) : Request :=
  { kind := if cls = .emergency then .emergencyEntry else .grant, place := place, room := room, reason := cls.code,
    subject := serial, value := seconds }

/-- A grant at a drop whose latch is not HELD (R60). The EMERGENCY_ENTRY of an OPEN that is not queued shows the open time the OPEN
would have carried: DESIGN CHOICE, log 40. -/
def State.doorOpenGrant (s : State) (l : Fin 2) (a : Fin 64) (d : DoorSide) (cls : CardClass) (c : List Byte) : State :=
  let drop := s.drop l a
  let seconds := drop.openTime
  let room := readRoom drop.binding c
  let g : Grant := { cls := cls, serial := cardSerial c, seconds := seconds, room := room }
  let entry := grantRequest (placeOf l a) room cls g.serial seconds
  let (s, answer) := s.request l { addr := a, msg := .openLock seconds, asker := .doorUnit }
  if answer = .queued then
    let s := s.putDoor l a (some { d with
      latch := .granted, pending := some g, deadline := if d.latch = .granted then d.deadline else none })
    (s.admitRequest entry).noticeGuest cls c
  else
    let s := if cls = .emergency then s.admitRequest entry else s
    s.admitRequest (undeliveredRequest (placeOf l a) g 1)

/-- A grant at a gate whose latch is HELD: no message, open seconds 0 (R61). -/
def State.heldGrant (s : State) (l : Fin 2) (a : Fin 64) (cls : CardClass) (c : List Byte) : State :=
  (s.admitRequest (grantRequest (placeOf l a) (readRoom (s.drop l a).binding c) cls (cardSerial c) 0)).noticeGuest cls c

/-- A card is granted at a DOOR or GATE drop (R60, R61). -/
def State.doorGrant (s : State) (l : Fin 2) (a : Fin 64) (cls : CardClass) (c : List Byte) : State :=
  match (s.drop l a).door with
  | none => s
  | some d => if d.latch = .held then s.heldGrant l a cls c else s.doorOpenGrant l a d cls c

/-- A CARD_READ delivered to the Door Decision Unit is decided (R51). -/
def State.doorRead (s : State) (l : Fin 2) (a : Fin 64) (c : List Byte) : State :=
  match s.doorDecision l a c with
  | .error reason => s.doorRefuse l a c reason
  | .ok cls => s.doorGrant l a cls c

/-- An OPEN exchange of a door or gate succeeded: the pending grant is taken away, and under GRANTED the open window
runs (R62). -/
def State.doorOpened (s : State) (l : Fin 2) (a : Fin 64) : State :=
  match (s.drop l a).door with
  | none => s
  | some d =>
    match d.pending with
    | none => s
    | some g =>
      s.putDoor l a (some { d with
        pending := none, deadline := if d.latch = .granted then some g.seconds else d.deadline })

/-! ## Door reports (R66, R67) -/

/-- The entry of a door itself (R59). -/
def State.doorEntry (s : State) (l : Fin 2) (a : Fin 64) (kind : EntryKind) (value : Nat) : State :=
  s.admitRequest { kind := kind, place := placeOf l a, room := doorRoom (s.drop l a).binding, value := value }

/-- The record when an opening begins: OPEN, with the latch's row of R66. -/
def DoorSide.opening (d : DoorSide) : DoorSide :=
  let d := { d with leaf := .opened }
  match d.latch with
  | .granted => { d with latch := .latched, deadline := none, timer := true, heldCount := 0, alarm := false }
  | .held => d
  | .latched | .unknown => { d with timer := true, heldCount := 0, alarm := false }

/-- The door opens against a LATCHED latch with the egress flag clear (R66). -/
def DoorSide.forced (d : DoorSide) (egress : Bool) : Bool := decide (d.latch = .latched) && !egress

/-- The record when an opening ends by a CLOSED report (R67). -/
def DoorSide.closing (d : DoorSide) : DoorSide :=
  { d with leaf := .closed, timer := false, heldCount := 0, alarm := false }

/-- A bolt byte of a DOOR_STATE (12.6, R179). -/
def boltOf (b : Byte) : Option Bolt := if b = 0 then some .free else if b = 1 then some .engaged else none

/-- A door byte of a DOOR_STATE: whether it says OPEN (12.6, R179). -/
def openOf (b : Byte) : Option Bool := if b = 0 then some false else if b = 1 then some true else none

/-- DOOR_STATE at a DOOR or GATE drop: the bolt is written, then the door value is taken (R66). -/
def State.doorReport (s : State) (l : Fin 2) (a : Fin 64) (isOpen : Bool) (bolt : Bolt) (egress : Bool) : State :=
  match (s.drop l a).door with
  | none => s
  | some d =>
    let d := { d with bolt := bolt }
    match d.leaf, isOpen with
    | .opened, true => s.putDoor l a (some d)
    | .opened, false =>
      let t := s.putDoor l a (some d.closing)
      if d.alarm then t.doorEntry l a .doorHeldEnd d.heldCount else t
    | _, true =>
      let t := s.putDoor l a (some d.opening)
      if d.forced egress then t.doorEntry l a .doorForced 0 else t
    | _, false => s.putDoor l a (some { d with leaf := .closed })

/-- The deadline part of a tick (R64). -/
def DoorSide.tickDeadline (d : DoorSide) : DoorSide :=
  match d.deadline with
  | none => d
  | some n =>
    if n ≤ 1 then
      { d with deadline := none, latch := if d.latch = .granted ∧ d.pending.isNone then .latched else d.latch }
    else { d with deadline := some (n - 1) }

/-- The held-timer part of a tick: the count rises, and at the limit DOOR_HELD is admitted once (R67). -/
def State.tickHeld (s : State) (l : Fin 2) (a : Fin 64) : State :=
  match (s.drop l a).door with
  | none => s
  | some d =>
    if !d.timer then s
    else
      let count := min (d.heldCount + 1) 65535
      if s.site.heldLimit ≤ count ∧ !d.alarm then
        (s.putDoor l a (some { d with heldCount := count, alarm := true })).doorEntry l a .doorHeld s.site.heldLimit
      else s.putDoor l a (some { d with heldCount := count })

/-- The deadline part of a tick at a drop (R64). -/
def State.tickGrant (s : State) (l : Fin 2) (a : Fin 64) : State :=
  match (s.drop l a).door with
  | none => s
  | some d => s.putDoor l a (some d.tickDeadline)

/-- A seconds tick reaches a door-side record (R64, R67). -/
def State.tickDoor (s : State) (p : Fin 2 × Fin 64) : State := (s.tickGrant p.1 p.2).tickHeld p.1 p.2

/-! ## Notices (R48, R49, R68) -/

/-- The zone of a gate is HELD_OPEN. -/
def State.gateHeld (s : State) (b : Option Binding) : Bool :=
  match b with
  | some (.gate z) => decide (s.zones[z].mode = .heldOpen)
  | _ => false

/-- The latch a door-side record takes from a presence: LATCHED, or HELD for a gate of a held zone, when PRESENT, and
UNKNOWN otherwise (R48, R49). -/
def State.latchFor (s : State) (b : Option Binding) (p : Presence) : Latch :=
  if p = .present then (if s.gateHeld b then .held else .latched) else .unknown

/-- The Door Decision Unit is told of a drop's presence (R48). -/
def State.doorPresence (s : State) (l : Fin 2) (a : Fin 64) (p : Presence) : State :=
  let drop := s.drop l a
  match drop.door with
  | none => s
  | some d =>
    let d := { d with
      latch := s.latchFor drop.binding p, deadline := none, timer := false, heldCount := 0, alarm := false }
    s.putDoor l a (some (if p = .present then d else { d with leaf := .unknown, bolt := .unknown }))

/-- A door-side record is created by a bind (R49). -/
def State.doorBound (s : State) (l : Fin 2) (a : Fin 64) : State :=
  let drop := s.drop l a
  s.putDoor l a (some { DoorSide.unknown with latch := s.latchFor drop.binding drop.presence })

/-- A GATE record of a zone that becomes held (R68). Its DOOR_HELD_END shows the held count before it is cleared: DESIGN CHOICE,
log 41. -/
def State.zoneHeldAt (z : Fin 8) (s : State) (p : Fin 2 × Fin 64) : State :=
  let drop := s.drop p.1 p.2
  match drop.binding, drop.door with
  | some (.gate y), some d =>
    if y = z ∧ (d.latch = .latched ∨ d.latch = .granted) then
      let t := s.putDoor p.1 p.2 (some { d with
        latch := .held, deadline := none, timer := false, heldCount := 0, alarm := false })
      if d.alarm then t.doorEntry p.1 p.2 .doorHeldEnd d.heldCount else t
    else s
  | _, _ => s

/-- A GATE record of a zone that is no longer held (R68). -/
def State.zoneFreedAt (z : Fin 8) (s : State) (p : Fin 2 × Fin 64) : State :=
  let drop := s.drop p.1 p.2
  match drop.binding, drop.door with
  | some (.gate y), some d =>
    if y = z ∧ d.latch = .held then
      s.putDoor p.1 p.2 (some
        (if d.leaf = .opened then { d with latch := .latched, timer := true, heldCount := 0, alarm := false }
         else { d with latch := .latched }))
    else s
  | _, _ => s

/-- HOLD or LATCH is asked for at each gate of a zone (R13). -/
def State.askGate (z : Fin 8) (msg : Directed) (s : State) (p : Fin 2 × Fin 64) : State :=
  if (s.drop p.1 p.2).binding = some (.gate z) then s.ask p.1 p.2 msg .zoneTable else s

/-- A zone's mode has gone from `old` to `new`: HOLD or LATCH to its gates on both lines, then the notice to the Door
Decision Unit, on entering and on leaving HELD_OPEN alone (R13, R68). The gates take the messages, and then the notice, line 0 first and by rising
address, and so their DOOR_HELD_ENDs come in that order: DESIGN CHOICE, log 9. -/
def State.zoneModeChanged (s : State) (z : Fin 8) (old new : ZoneMode) : State :=
  if old ≠ .heldOpen ∧ new = .heldOpen then
    allDrops.foldl (State.zoneHeldAt z) (allDrops.foldl (State.askGate z .hold) s)
  else if old = .heldOpen ∧ new ≠ .heldOpen then
    allDrops.foldl (State.zoneFreedAt z) (allDrops.foldl (State.askGate z .latch) s)
  else s

end Sys2Proof.Machine
end

