-- ==== Sys2Proof/Machine/Lines.lean ====
section
/-! DEFINITION. A door line in RUN (chapter 8): presence and its changes, the delivery of reports, the end of an
exchange, and the choice of the next one. -/

namespace Sys2Proof.Machine

open Sys2Proof

/-! ## Presence (R130 to R132) -/

/-- The room index of a presence entry: the binding's room, or 255 for a gate or an unbound address (R132). -/
def presenceRoom (b : Option Binding) : Nat :=
  match b.bind Binding.shownRoom with
  | some r => r.val
  | none => 255

/-- A presence entry: its value holds the presence left and, for an IDENT judgement, the reported kind (R132). -/
def presenceRequest (l : Fin 2) (a : Fin 64) (b : Option Binding) (kind : EntryKind) (left : Presence)
    (reported : Nat) : Request :=
  { kind := kind, place := placeOf l a, room := presenceRoom b, value := twoItems left.code reported }

/-- The zone table is asked for the zone of a gate: HOLD is queued when the zone is HELD_OPEN (R14). -/
def State.askZoneHold (s : State) (l : Fin 2) (a : Fin 64) : State :=
  if s.gateHeld (s.drop l a).binding then s.ask l a .hold .zoneTable else s

/-- The owner of the binding's kind is told of a presence, and a PRESENT gate asks for its zone's mode (R132,
R48, R103, R104, R14). -/
def State.tellOwner (s : State) (l : Fin 2) (a : Fin 64) : State :=
  let d := s.drop l a
  match d.binding with
  | none => s
  | some (.door _) => s.doorPresence l a d.presence
  | some (.gate _) =>
    let s := s.doorPresence l a d.presence
    if d.presence = .present then s.askZoneHold l a else s
  | some (.minibar r) =>
    if d.presence = .present then (if s.lines[l].state = .run then s.minibarReached r else s)
    else s.minibarLost r (placeOf l a)

/-- A drop record is written; a change of presence is recorded and handed on: the record, the entry if any with
the reported kind it carries, the mirrors, the owner (R132). -/
def State.changeDrop (s : State) (l : Fin 2) (a : Fin 64) (d : Drop) (entry : Option (EntryKind × Nat)) : State :=
  let left := (s.drop l a).presence
  let s := s.setDrop l a d
  if d.presence = left then s
  else
    let s := match entry with
      | none => s
      | some (kind, reported) => s.admitRequest (presenceRequest l a d.binding kind left reported)
    ((s.rewriteDrop l a).rewriteRoomOf d.binding).tellOwner l a

/-- The presence an IDENT gives, and the entry of a change to it (table of R131). -/
def judge (b : Option Binding) (kind : Nat) : Presence × EntryKind :=
  match b with
  | none => (.present, .unboundDrop)
  | some b => if kind = b.kindCode then (.present, .dropPresent) else (.mismatch, .dropMismatch)

/-- An IDENT is taken: the reported kind and the fast-capable flag are kept, the miss count is 0, and the presence is
judged (R131, R147). A kind byte that names no kind is kept, and shown in the entry, as it came. DESIGN CHOICE, log 45. -/
def State.identified (s : State) (l : Fin 2) (a : Fin 64) (kind : Nat) (fast : Bool) : State :=
  let d := s.drop l a
  let j := judge d.binding kind
  s.changeDrop l a { d with reported := some kind, fast := fast, miss := 0, presence := j.1 } (some (j.2, kind))

/-- The record of a drop after one more final failure (R130). -/
def Drop.missed (d : Drop) : Drop :=
  let miss := min (d.miss + 1) 3
  { d with
    miss := miss
    presence :=
      if miss = 3 ∧ (d.presence = .present ∨ d.presence = .mismatch) then .silent else d.presence }

/-- A final failure counts toward the drop's presence: at three, a PRESENT or MISMATCH drop becomes SILENT with a
DROP_SILENT entry (R130). -/
def State.countMiss (s : State) (l : Fin 2) (a : Fin 64) : State :=
  s.changeDrop l a (s.drop l a).missed (some (.dropSilent, 0))

/-- A good reply makes the miss count 0 (R130). -/
def State.clearMiss (s : State) (l : Fin 2) (a : Fin 64) : State := s.setDrop l a { s.drop l a with miss := 0 }

/-! ## Delivery (R133) -/

/-- A DOOR_STATE is delivered by the binding; a door or bolt byte outside its codes makes the owner drop it whole (R133,
R179). So too a bolt byte from a MINIBAR drop, which R111 does not read. DESIGN CHOICE, log 46. -/
def State.deliverDoorState (s : State) (l : Fin 2) (a : Fin 64) (door bolt egress : Byte) : State :=
  match openOf door, boltOf bolt with
  | some isOpen, some bolt =>
    match (s.drop l a).binding with
    | none => s
    | some (.door _) | some (.gate _) => s.doorReport l a isOpen bolt (egress != 0)
    | some (.minibar r) => if isOpen then s.minibarDoorOpen r (placeOf l a) else s.minibarDoorClosed r
  | _, _ => s

/-- A report is delivered by the binding at the address (R133). -/
def State.deliver (s : State) (l : Fin 2) (a : Fin 64) (r : Report) : State :=
  match r with
  | .cardRead image =>
    match s.minibarAt l a with
    | some r => s.minibarRead l a r image
    | none => s.doorRead l a image
  | .doorState door bolt egress => s.deliverDoorState l a door bolt egress
  | .trayData first readings =>
    match s.minibarAt l a with
    | some r => s.trayReadings r first readings
    | none => s

/-! ## The end of an exchange -/

/-- The open exchange of a line. -/
def Line.exchange (x : Line) : Option Exchange :=
  match x.activity with
  | .exchange e => some e
  | _ => none

/-- What a line is doing changes. -/
def State.setActivity (s : State) (l : Fin 2) (x : Activity) : State :=
  s.setLine l { s.lines[l] with activity := x }

/-- A drop owed an IDENTIFY, with the report held for it, or none (R131). -/
def State.setReturning (s : State) (l : Fin 2) (r : Option Returning) : State :=
  s.setLine l { s.lines[l] with returning := r }

/-- A newer OPEN to the drop waits in the queue (R140). -/
def Line.openWaits (x : Line) (a : Fin 64) : Bool :=
  match x.waitingFor a with
  | some m => m.msg.isOpen
  | none => false

/-- An OPEN was answered with ACK: the block that asked is told (R62, R110, R140). -/
def State.openDone (s : State) (l : Fin 2) (a : Fin 64) (asker : Asker) : State :=
  match asker with
  | .doorUnit => s.doorOpened l a
  | .minibarUnit =>
    match s.minibarAt l a with
    | none => s
    | some r => s.minibarOpened r
  | .zoneTable => s

/-- The end of a directed exchange is reported to the block that asked, in the two cases of R140. -/
def State.reportEnd (s : State) (l : Fin 2) (m : QMsg) (success : Bool) : State :=
  match m.msg with
  | .openLock _ =>
    if s.lines[l].openWaits m.addr then s
    else if success then s.openDone l m.addr m.asker
    else s.openLost l m.addr m.asker 2
  | .latch =>
    if m.asker = .minibarUnit then
      match s.minibarAt l m.addr with
      | none => s
      | some r => s.latchReported r
    else s
  | .deny _ | .hold | .scanAll | .scanTray _ | .stopScan => s

/-- An exchange has ended: nothing is open, and a directed message has left the queue, so owed marks are placed and
its end is reported (R140). -/
def State.endExchange (s : State) (l : Fin 2) (x : Exchange) (success : Bool) : State :=
  let s := s.setActivity l .idle
  match x.msg with
  | .directed m => (s.placeOwed l).reportEnd l m success
  | .poll | .identify => s

/-- A good reply to a POLL or a directed message: an ABSENT or SILENT drop is owed an IDENTIFY, and its report is
held; another drop's report is delivered (R130, R131, R133). -/
def State.answered (s : State) (l : Fin 2) (x : Exchange) (report : Option Report) : State :=
  let s := (s.endExchange l x true).clearMiss l x.addr
  match (s.drop l x.addr).presence with
  | .absent | .silent => s.setReturning l (some { addr := x.addr, report := report })
  | .present | .mismatch =>
    match report with
    | none => s
    | some r => s.deliver l x.addr r

/-- The IDENT of a returning drop: the presence is judged, then the held report is delivered (R131, R132). -/
def State.returned (s : State) (l : Fin 2) (x : Exchange) (kind : Nat) (fast : Bool) : State :=
  let held := s.lines[l].returning
  let s := ((s.endExchange l x true).setReturning l none).identified l x.addr kind fast
  match held.bind Returning.report with
  | none => s
  | some r => s.deliver l x.addr r

/-- An exchange of a running line fails finally (R130, R131, R140): its end is reported, the miss count rises, and a
report held for a failed IDENTIFY is dropped. -/
def State.failed (s : State) (l : Fin 2) (x : Exchange) : State :=
  let s := s.endExchange l x false
  let s := if x.msg = .identify then s.setReturning l none else s
  s.countMiss l x.addr

/-! ## The next exchange (R138) -/

/-- An attempt begins, nothing yet received: an exchange's first, with its retry limit, or another (R129). -/
def State.openExchange (s : State) (l : Fin 2) (a : Fin 64) (msg : LineMsg) (retries : Nat) : State :=
  s.setActivity l (.exchange { addr := a, msg := msg, retries := retries })

/-- A table address is polled in this round (R138). -/
def Line.polls (x : Line) (a : Fin 64) : Bool :=
  decide (x.drops[a].presence = .present ∨ x.drops[a].presence = .mismatch ∨ x.round = 0)

/-- The pointer moves past its position; at the end of the table it returns to 0 and the round count moves (R138). -/
def Line.movePointer (x : Line) : Line :=
  if x.pointer + 1 < x.setup.table.length then { x with pointer := x.pointer + 1 }
  else { x with pointer := 0, round := (x.round + 1) % 8 }

/-- The next address polled, with the pointer past it: positions are passed over until one is polled. `fuel` of nine tables
reaches round 0, which polls all. -/
def Line.nextPoll : Nat → Line → Option (Fin 64 × Line)
  | 0, _ => none
  | fuel + 1, x =>
    match x.setup.table[x.pointer]? with
    | none => none
    | some a => if x.polls a then some (a, x.movePointer) else Line.nextPoll fuel x.movePointer

/-- The next exchange of a running line is chosen (R138). -/
def State.chooseExchange (s : State) (l : Fin 2) : State :=
  let x := s.lines[l]
  match x.returning with
  | some r => s.openExchange l r.addr .identify x.setup.retryLimit
  | none =>
    match x.queue with
    | m :: rest => (s.setQueue l rest).openExchange l m.addr (.directed m) x.setup.retryLimit
    | [] =>
      match x.nextPoll (9 * x.setup.table.length) with
      | none => s
      | some (a, y) => (s.setLine l y).openExchange l a .poll x.setup.retryLimit

end Sys2Proof.Machine
end

