-- ==== Sys2Proof/Machine/LineStates.lean ====
section
/-! DEFINITION. The states of a door line (chapter 9): the changes between them, the survey, hush, wake and fault,
LINE_GO, and what a line does with the end of an exchange in each. -/

namespace Sys2Proof.Machine

open Sys2Proof

/-! ## Changes of state (R141 to R143) -/

/-- The place of a line: the line with address 0 (12.3). -/
def linePlace (l : Fin 2) : Nat := placeOf l 0

/-- A line takes a state; the site mirror shows it (R141). -/
def State.setLineState (s : State) (l : Fin 2) (st : LineState) : State :=
  (s.setLine l { s.lines[l] with state := st }).rewriteSite

/-- A line's current rate changes, its mirror not yet written (R125). -/
def State.setRate (s : State) (l : Fin 2) (rate divisor : Nat) : State :=
  s.setLine l { s.lines[l] with rate := rate, divisor := divisor }

/-- A line's current rate changes alone; the site mirror shows the change (R125). -/
def State.putRate (s : State) (l : Fin 2) (rate divisor : Nat) : State :=
  let t := s.setRate l rate divisor
  if rate = s.lines[l].rate then t else t.rewriteSite

/-- The entry of a change of line state: LINE_FAULT into FAULT, LINE_STATE otherwise; cause 1 LINE_GO, 2 wake
request, 3 long break, 4 the end of a survey or wake that no LINE_GO asked for (R143). -/
def State.lineEntry (s : State) (l : Fin 2) (left : LineState) (cause : Nat) : State :=
  let x := s.lines[l]
  s.admitRequest { kind := if x.state = .fault then .lineFault else .lineState, place := linePlace l, reason := cause,
                   subject := x.rate, value := twoItems x.state.code left.code }

/-- How many drops of a line have a presence. -/
def Line.count (x : Line) (p : Presence) : Nat := (allAddrs.filter fun a => decide (x.drops[a].presence = p)).length

/-- The result data of LINE_GO: the state, the two counts of a survey that ran to its end, the current rate (R144,
R148, 12.2). -/
def Line.goData (x : Line) (surveyed : Bool) : List Byte :=
  [byteOf x.state.code, byteOf (if surveyed then x.count .present else 0),
   byteOf (if surveyed then x.count .mismatch else 0), 0] ++ leBytes 4 x.rate

/-- The LINE_GO in progress on a line, if any, ends and its mark is cleared (R144). -/
def State.endGo (s : State) (l : Fin 2) (res : Result) (surveyed : Bool) : State :=
  match s.lines[l].mark with
  | none => s
  | some m => (s.setLine l { s.lines[l] with mark := none }).complete m.block res (s.lines[l].goData surveyed)

/-- The minibars bound on a line that leaves RUN go out of reach (R104), one after another by rising address: DESIGN CHOICE, log 44. -/
def State.minibarsLost (s : State) (l : Fin 2) : State :=
  allAddrs.foldl (fun s a => match s.minibarAt l a with
    | none => s
    | some r => s.minibarLost r (placeOf l a)) s

/-- The minibars whose drop is PRESENT come within reach as their line enters RUN (R103, R149). -/
def State.minibarsReached (s : State) (l : Fin 2) : State :=
  allAddrs.foldl (fun s a => match s.minibarAt l a with
    | none => s
    | some r => if (s.drop l a).presence = .present then s.minibarReached r else s) s

/-- A drop record as OFF leaves it (R145); the binding, the open time and the owed mark are kept. -/
def Drop.off (d : Drop) : Drop := { d with presence := .absent, miss := 0, reported := none, fast := false }

/-- A drop record as FAULT leaves it (R153). That holds for a drop of an earlier survey whose probe a break forestalls too, of which
R147 says that it keeps its presence: DESIGN CHOICE, log 36. -/
def Drop.faulted (d : Drop) : Drop := if d.presence = .present then { d with presence := .silent, miss := 3 } else d

/-- Every drop record of a line rewritten, each change of presence handed on with no presence entry (R145, R153); by rising address, so
that its minibars go out of reach in that order: DESIGN CHOICE, log 44. -/
def State.sweepDrops (s : State) (l : Fin 2) (f : Drop → Drop) : State :=
  allAddrs.foldl (fun s a => s.changeDrop l a (f (s.drop l a)) none) s

/-- A line enters OFF (R145). Its minibars go out of reach as their drops become ABSENT. The site mirror is rewritten once for
the state and the rate (R174). -/
def State.enterOff (s : State) (l : Fin 2) : State :=
  let left := s.lines[l].state
  let s := (s.setLine l { s.lines[l] with state := .off }).dispose l
  let s := ((s.sweepDrops l Drop.off).setRate l Config.baseRate Config.baseDivisor).rewriteSite
  (s.lineEntry l left 1).endGo l .ok false

/-- A line enters READY (R146, R148). -/
def State.enterReady (s : State) (l : Fin 2) (cause : Nat) (surveyed : Bool) : State :=
  let left := s.lines[l].state
  ((s.setActivity l .idle).setLineState l .ready |>.lineEntry l left cause).endGo l .ok surveyed

/-- A line enters RUN (R149). -/
def State.enterRun (s : State) (l : Fin 2) (cause : Nat) (surveyed : Bool) : State :=
  let left := s.lines[l].state
  let s := s.setLine l { s.lines[l] with activity := .idle, pointer := 0, round := 0 }
  let s := ((s.setLineState l .run).placeOwed l).minibarsReached l
  (s.lineEntry l left cause).endGo l .ok surveyed

/-- A line enters SURVEY: RATE with the base divisor is broadcast at the current rate (R147 step 1). -/
def State.enterSurvey (s : State) (l : Fin 2) : State :=
  let left := s.lines[l].state
  let s := ((s.setLineState l .survey).dispose l).setActivity l
    (.rateWindow Config.baseRate Config.baseDivisor false)
  s.lineEntry l left 1

/-- A line enters HUSH after QUIET (R145, R150). -/
def State.enterHush (s : State) (l : Fin 2) : State :=
  let left := s.lines[l].state
  let s := ((s.setLineState l .hush).dispose l).minibarsLost l
  (s.lineEntry l left 1).endGo l .ok false

/-- A line enters WAKE: it sends its break; a wake request sets the LINE cause (R143, R152). -/
def State.enterWake (s : State) (l : Fin 2) (cause : Nat) : State :=
  let left := s.lines[l].state
  let s := ((s.setLineState l .wake).setActivity l .wakeBreak).lineEntry l left cause
  if cause = 2 then s.setCause causeLine else s

/-- The LINE_GO in progress as its line enters FAULT: one to OFF goes on into OFF, another ends LINE_FAULT (R145, R153). -/
def State.faultEndsGo (s : State) (l : Fin 2) : State :=
  match s.lines[l].mark with
  | none => s
  | some m => if m.target = .off then s.enterOff l else s.endGo l .lineFault false

/-- A line enters FAULT (R153). Its minibars go out of reach as their drops become SILENT. -/
def State.enterFault (s : State) (l : Fin 2) : State :=
  let left := s.lines[l].state
  let s := ((s.setLineState l .fault).dispose l).sweepDrops l Drop.faulted
  ((s.lineEntry l left 3).setCause causeLine).faultEndsGo l

/-! ## What a running line does next (R138, R145) -/

/-- A line in RUN with nothing open goes on: to OFF or, by QUIET, to HUSH when a LINE_GO asks so, else to its next
exchange. -/
def State.pump (s : State) (l : Fin 2) : State :=
  let x := s.lines[l]
  if x.state = .run ∧ x.activity = .idle then
    match x.mark.map GoMark.target with
    | some .off => s.enterOff l
    | some .hush => s.setActivity l .quietWindow
    | _ => s.chooseExchange l
  else s

/-- Both lines go on at the end of a command. -/
def State.settle (s : State) : State := (s.pump 0).pump 1

/-! ## The survey (R147, R148) -/

/-- A probe: an IDENTIFY exchange with a retry limit of 1 (R147 step 2). -/
def State.probe (s : State) (l : Fin 2) (a : Fin 64) : State := s.openExchange l a .identify 1

/-- The survey is over: READY, or RUN for SURVEY_RUN (R148). -/
def State.surveyOver (s : State) (l : Fin 2) : State :=
  match s.lines[l].mark with
  | none => s.enterReady l 4 true
  | some m => if m.target = .surveyRun then s.enterRun l 1 true else s.enterReady l 1 true

/-- The line steps up: a drop is PRESENT, every PRESENT drop is fast-capable, and the configured rate is not the base
rate (R148). -/
def Line.stepsUp (x : Line) : Bool :=
  decide (0 < x.count .present) &&
    (allAddrs.all fun a => decide (x.drops[a].presence = .present → x.drops[a].fast = true)) &&
    decide (x.setup.rate ≠ Config.baseRate)

/-- The survey goes on after a probe: the next address, or after address 63 the choice of the rate (R147, R148). -/
def State.surveyNext (s : State) (l : Fin 2) (a : Fin 64) : State :=
  if a.val < 63 then s.probe l (a + 1)
  else
    let x := s.lines[l]
    if x.stepsUp then s.setActivity l (.rateWindow x.setup.rate x.setup.divisor true) else s.surveyOver l

/-- A probe that fails finally: ABSENT, miss count 0, no entry (R147). -/
def State.probeFailed (s : State) (l : Fin 2) (a : Fin 64) : State :=
  s.changeDrop l a { s.drop l a with presence := .absent, miss := 0 } none

/-! ## Exchanges in any state -/

/-- An attempt fails: the message is sent again, or with no retry left the exchange fails finally (R129). -/
def State.attemptFailed (s : State) (l : Fin 2) (x : Exchange) : State :=
  if 0 < x.retries then s.openExchange l x.addr x.msg (x.retries - 1)
  else if s.lines[l].state = .survey then ((s.endExchange l x false).probeFailed l x.addr).surveyNext l x.addr
  else s.failed l x

/-- A good IDENT: in SURVEY the probe's, in RUN that of a returning drop (R131, R147). -/
def State.identTaken (s : State) (l : Fin 2) (x : Exchange) (kind : Nat) (fast : Bool) : State :=
  if s.lines[l].state = .survey then
    ((s.endExchange l x true).identified l x.addr kind fast).surveyNext l x.addr
  else s.returned l x kind fast

/-- A good reply is taken: an IDENT is judged, another answers the exchange with its report, if any (R130, R131). -/
def State.takeReply (s : State) (l : Fin 2) (x : Exchange) (r : Reply) : State :=
  match r with
  | .nil | .ack => s.answered l x none
  | .cardRead image => s.answered l x (some (.cardRead image))
  | .doorState door bolt egress => s.answered l x (some (.doorState door bolt egress))
  | .trayData first _ readings => s.answered l x (some (.trayData first.toNat (readings.map BitVec.toNat)))
  | .ident kind fast => s.identTaken l x kind.toNat (fast != 0)

/-- A complete reply ends the attempt: a good one is taken, another fails it (R127, R129). Both lines then go on. -/
def State.judgeReply (s : State) (l : Fin 2) (x : Exchange) (good : Option Reply) : State :=
  (match good with
    | some r => s.takeReply l x r
    | none => s.attemptFailed l x).settle

/-- Characters reach an open exchange: with those the attempt has received they are kept until the reply is complete, and it is then
judged by the line's framing (R124, R127, R129). -/
def State.receive (s : State) (l : Fin 2) (x : Exchange) (chars : List LineChar) : State :=
  let received := x.received ++ chars
  match completeReply received with
  | none => s.setActivity l (.exchange { x with received := received })
  | some reply => s.judgeReply l x (x.goodReply (s.lines[l].setup.anyInError reply) (reply.map LineChar.data))

/-- Characters reach a line: with no exchange open they are discarded (R124). -/
def State.rawReply (s : State) (l : Fin 2) (chars : List LineChar) : State :=
  match s.lines[l].exchange with
  | none => s
  | some x => s.receive l x chars

/-- A reply of a drop reaches a line in good characters: with no exchange open it is discarded (R124); as all that the attempt has
received it is judged by its kind and length (R127), and after other characters it is read with them (R129). -/
def State.reply (s : State) (l : Fin 2) (r : Reply) : State :=
  match s.lines[l].exchange with
  | none => s
  | some x =>
    if x.received = [] then s.judgeReply l x (x.goodAs r)
    else s.receive l x ((x.replyBytes r).map (soundChar s.lines[l].setup.parity))

/-- The reply window runs out (R129). -/
def State.windowOut (s : State) (l : Fin 2) : State :=
  match s.lines[l].exchange with
  | none => s
  | some x => (s.attemptFailed l x).settle

/-- The silent window of a broadcast ends: RATE moves the line to its rate and the survey goes on or is over; QUIET
takes the line into HUSH (R128, R145, R147, R148). -/
def State.broadcastEnds (s : State) (l : Fin 2) : State :=
  match s.lines[l].activity with
  | .rateWindow rate divisor probed =>
    -- the end of the survey rewrites the site mirror once for the rate and the state (R174)
    (if probed then (s.setRate l rate divisor).surveyOver l else (s.putRate l rate divisor).probe l 1).settle
  | .quietWindow => (s.enterHush l).settle
  | .idle | .exchange _ | .wakeBreak | .wakeSettle | .watch => s

/-! ## LINE_GO (R144 to R146, R152) -/

/-- The states the table of 9.2 takes a target in. -/
def Target.takenIn : Target → LineState → Bool
  | .off, .ready | .off, .run | .off, .hush | .off, .fault | .off, .off => true
  | .ready, .off | .ready, .fault => true
  | .survey, .ready | .surveyRun, .ready => true
  | .run, .ready | .run, .hush => true
  | .hush, .run => true
  | _, _ => false

/-- A LINE_GO that is taken follows its course (9.2). -/
def State.startGo (s : State) (l : Fin 2) (target : Target) : State :=
  match target, s.lines[l].state with
  | .off, .off => s.endGo l .ok false
  | .off, .run | .hush, .run => s.pump l
  | .off, _ => s.enterOff l
  | .ready, .fault => s.setActivity l .watch
  | .ready, _ => s.enterReady l 1 false
  | .survey, _ | .surveyRun, _ => s.enterSurvey l
  | .run, .hush => s.enterWake l 1
  | .run, _ => (s.enterRun l 1 false).pump l
  | .hush, _ => s

/-- The judgement of a LINE_GO at intake (R144): the line and target of one that is taken, or the result and result data of a
refusal, BAD_PARAM before BUSY before LINE_STATE. A refusal that names a line shows it as it stands. -/
def State.judgeGo (s : State) (params : List Byte) : Except (Result × List Byte) (Fin 2 × Target) :=
  match asFin 2 (leAt params 0 1) with
  | none => .error (.badParam, [])
  | some l =>
    let x := s.lines[l]
    match Target.ofCode (leAt params 1 1) with
    | none => .error (.badParam, x.goData false)
    | some target =>
      if x.state = .survey ∨ x.state = .wake ∨ x.mark.isSome then .error (.busy, x.goData false)
      else if !target.takenIn x.state then .error (.lineState, x.goData false)
      else .ok (l, target)

/-- A LINE_GO that is taken sets the mark of its line and follows its course (R144). -/
def State.takeGo (s : State) (b : Fin 16) (l : Fin 2) (target : Target) : State :=
  (s.setLine l { s.lines[l] with mark := some { block := b, target := target } }).startGo l target

/-! ## Breaks and waits of a line (R146, R151 to R153) -/

/-- A break reaches 100 ms: FAULT in the four states that watch (R153). -/
def State.longBreak (s : State) (l : Fin 2) : State :=
  match s.lines[l].state with
  | .survey | .run | .hush | .wake => s.enterFault l
  | .off | .ready | .fault => s

/-- A break shorter than 100 ms ends on a line in HUSH: of 1 ms or more it is a wake request (R151). -/
def State.wakeAsked (s : State) (l : Fin 2) (millis : Nat) : State :=
  let x := s.lines[l]
  if x.state = .hush ∧ 1 ≤ millis ∧ millis < 100 then
    let s := s.admitRequest { kind := .wakeRequest, place := linePlace l, subject := millis, value := flagBit x.setup.wakeFlag }
    if x.setup.wakeFlag then s.enterWake l 2 else s
  else s

/-- The 50 ms watch out of FAULT ends with no break seen (R146). -/
def State.watchClean (s : State) (l : Fin 2) : State :=
  if s.lines[l].activity = .watch then s.enterReady l 1 false else s

/-- The watch sees a break of 1 ms or more: the line stays in FAULT and the order ends LINE_FAULT (R146). -/
def State.watchBroken (s : State) (l : Fin 2) : State :=
  if s.lines[l].activity = .watch then (s.setActivity l .idle).endGo l .lineFault false else s

/-- The 20 ms wake break ends: the settle begins (R152). -/
def State.breakSent (s : State) (l : Fin 2) : State :=
  if s.lines[l].activity = .wakeBreak then s.setActivity l .wakeSettle else s

/-- The 10 ms settle ends: the line enters RUN, for a LINE_GO with cause 1 and on its own with 4 (R152). -/
def State.settled (s : State) (l : Fin 2) : State :=
  if s.lines[l].activity = .wakeSettle then
    (s.enterRun l (if s.lines[l].mark.isSome then 1 else 4) false).settle
  else s

end Sys2Proof.Machine
end

