-- ==== Sys2Proof/Machine/LineEvents.lean ====
section
/-! DEFINITION. What reaches a door line from outside: the replies of drops, the windows, the breaks (chapters 8
and 9). -/

namespace Sys2Proof.Machine

open Sys2Proof

/-! ## Replies (R127, R131, R133, R140) -/

/-- NIL: nothing to report. -/
def execNil (l : Fin 2) (s : State) : Host.Outcome State Fault Refusal :=
  .next (s.reply l .nil)

/-- CARD_READ: the twenty-byte card image. -/
def execCardRead (l : Fin 2) (image : List Byte) (s : State) : Host.Outcome State Fault Refusal :=
  .next (s.reply l (.cardRead image))

/-- DOOR_STATE: door, bolt, egress flag. -/
def execDoorState (l : Fin 2) (door bolt egress : Byte) (s : State) : Host.Outcome State Fault Refusal :=
  .next (s.reply l (.doorState door bolt egress))

/-- TRAY_DATA: readings of trays from the first on. -/
def execTrayData (l : Fin 2) (first count : Byte) (readings : List Half) (s : State) :
    Host.Outcome State Fault Refusal :=
  .next (s.reply l (.trayData first count readings))

/-- IDENT: drop kind, fast-capable flag. -/
def execIdent (l : Fin 2) (kind fast : Byte) (s : State) : Host.Outcome State Fault Refusal :=
  .next (s.reply l (.ident kind fast))

/-- ACK: a directed message is acknowledged. -/
def execAck (l : Fin 2) (s : State) : Host.Outcome State Fault Refusal :=
  .next (s.reply l .ack)

/-- BAD_REPLY: characters as the receiver finds them, in error or not, a whole reply or a part of one (R124, R129). -/
def execBadReply (l : Fin 2) (first : LineChar) (rest : List LineChar) (s : State) : Host.Outcome State Fault Refusal :=
  .next (s.rawReply l (first :: rest))

/-- REPLY_WINDOW_EXPIRY (R129). -/
def execReplyWindowExpiry (l : Fin 2) (s : State) : Host.Outcome State Fault Refusal := .next (s.windowOut l)

/-- BROADCAST_WINDOW_END (R128). -/
def execBroadcastWindowEnd (l : Fin 2) (s : State) : Host.Outcome State Fault Refusal := .next (s.broadcastEnds l)

/-! ## Breaks (R146, R151 to R153) -/

/-- LONG_BREAK: a break reaches 100 ms (R153). -/
def execLongBreak (l : Fin 2) (s : State) : Host.Outcome State Fault Refusal := .next (s.longBreak l)

/-- WAKE_REQUEST: a break shorter than 100 ms ends (R151). -/
def execWakeRequest (l : Fin 2) (millis : Nat) (s : State) : Host.Outcome State Fault Refusal :=
  .next (s.wakeAsked l millis)

/-- FAULT_WATCH_END (R146). -/
def execFaultWatchEnd (l : Fin 2) (s : State) : Host.Outcome State Fault Refusal := .next (s.watchClean l)

/-- FAULT_WATCH_BREAK (R146). -/
def execFaultWatchBreak (l : Fin 2) (s : State) : Host.Outcome State Fault Refusal := .next (s.watchBroken l)

/-- WAKE_BREAK_END (R152). -/
def execWakeBreakEnd (l : Fin 2) (s : State) : Host.Outcome State Fault Refusal := .next (s.breakSent l)

/-- WAKE_SETTLE_END (R152). -/
def execWakeSettleEnd (l : Fin 2) (s : State) : Host.Outcome State Fault Refusal := .next (s.settled l)

end Sys2Proof.Machine
end

