-- ==== Sys2Proof/Machine/LineOrders.lean ====
section
/-! DEFINITION. DROP_SET and LINE_SETUP (chapter 8). -/

namespace Sys2Proof.Machine

open Sys2Proof

/-! ## DROP_SET (R135, R136) -/

/-- What a DROP_SET asks for. -/
inductive DropAction where
  | bind (binding : Binding) (openTime : Nat)
  | unbind
  deriving DecidableEq, Repr

/-- The binding a kind byte and an index name, if in range (R135, 12.6). -/
def bindingOf (kind index : Nat) : Option Binding :=
  match kind with
  | 1 => (asFin 48 index).map .door
  | 2 => (asFin 8 index).map .gate
  | 3 => (asFin 48 index).map .minibar
  | _ => none

/-- The line, address and action of a DROP_SET, if in range (R135). -/
def dropFields (p : List Byte) : Option (Fin 2 × Fin 64 × DropAction) :=
  match asFin 2 (leAt p 0 1), asFin 64 (leAt p 1 1) with
  | some l, some a =>
    if a = 0 then none
    else
      match leAt p 2 1 with
      | 0 => (bindingOf (leAt p 3 1) (leAt p 4 1)).map fun b => (l, a, .bind b (leAt p 5 1))
      | 1 => some (l, a, .unbind)
      | _ => none
  | _, _ => none

/-- A BIND in conflict: the address is bound, or the room has a drop of the kind on either line (R135). -/
def State.bindConflict (s : State) (l : Fin 2) (a : Fin 64) (b : Binding) : Bool :=
  (s.drop l a).binding.isSome || (b.shownRoom.isSome && (s.findDrop b).isSome)

/-- The open time a BIND leaves: 0 keeps the stored one, above 25 is taken as 25 (R135). -/
def boundOpenTime (stored given : Nat) : Nat := if given = 0 then stored else min given 25

/-- The presence of a drop judged again by its reported kind, in PRESENT or MISMATCH (R136). -/
def Drop.rejudged (d : Drop) (b : Binding) : Presence :=
  if d.presence = .present ∨ d.presence = .mismatch then
    if d.reported = some b.kindCode then .present else .mismatch
  else d.presence

/-- A newly bound drop is judged again, and the room mirror shows the binding: by the change of presence where there is one, else
by itself (R136, R174). -/
def State.rejudge (s : State) (l : Fin 2) (a : Fin 64) (b : Binding) : State :=
  let d := s.drop l a
  let p := d.rejudged b
  if p = d.presence then s.rewriteRoomOf (some b)
  else s.changeDrop l a { d with presence := p } (some (if p = .present then .dropPresent else .dropMismatch, 0))

/-- The owner of the kind is told of a bind (R49, R103, R136); a PRESENT gate asks for its zone's mode (R14). -/
def State.tellBound (s : State) (l : Fin 2) (a : Fin 64) (b : Binding) : State :=
  let present := (s.drop l a).presence = .present
  match b with
  | .door _ => s.doorBound l a
  | .gate _ =>
    let s := s.doorBound l a
    if present then s.askZoneHold l a else s
  | .minibar r => if present ∧ s.lines[l].state = .run then s.minibarReached r else s

/-- A BIND taken (R136). -/
def State.bindDrop (s : State) (l : Fin 2) (a : Fin 64) (b : Binding) (openTime : Nat) : State :=
  let d := s.drop l a
  let s := s.setDrop l a { d with binding := some b, openTime := boundOpenTime d.openTime openTime }
  (s.rejudge l a b).tellBound l a b

/-- The owner of the kind is told of an unbind: the door-side record has gone with the binding, a minibar goes out of
reach (R49, R104, R136). Its entries show the drop's place, though the binding has gone: DESIGN CHOICE, log 37. -/
def State.tellUnbound (s : State) (l : Fin 2) (a : Fin 64) (b : Binding) : State :=
  match b with
  | .door _ | .gate _ => s
  | .minibar r => s.minibarLost r (placeOf l a)

/-- An UNBIND taken (R136): LATCH for a gate of a held zone, the binding and door-side record removed, the owner told, a
MISMATCH drop PRESENT. -/
def State.unbindDrop (s : State) (l : Fin 2) (a : Fin 64) (b : Binding) : State :=
  let s := if s.gateHeld (some b) then s.ask l a .latch .zoneTable else s
  let s := s.setDrop l a { s.drop l a with binding := none, door := none }
  let s := (s.rewriteRoomOf (some b)).tellUnbound l a b
  let d := s.drop l a
  if d.presence = .mismatch then s.changeDrop l a { d with presence := .present } (some (.dropPresent, 0)) else s

/-- The result data of DROP_SET: presence and open time after the order (R136). -/
def State.dropData (s : State) (l : Fin 2) (a : Fin 64) : List Byte :=
  [byteOf (s.drop l a).presence.code, byteOf (s.drop l a).openTime]

/-- DROP_SET served (R135, R136). -/
def State.dropSet (h : Held) (s : State) : State :=
  match dropFields h.params with
  | none => s.complete h.block .badParam []
  | some (l, a, .bind b openTime) =>
    if s.bindConflict l a b then s.complete h.block .dropConflict []
    else
      let s := s.bindDrop l a b openTime
      s.complete h.block .ok (s.dropData l a)
  | some (l, a, .unbind) =>
    match (s.drop l a).binding with
    | none => s.complete h.block .notNeeded []
    | some b =>
      let s := s.unbindDrop l a b
      s.complete h.block .ok (s.dropData l a)

/-- DROP_SET in block `b`; an idle line in RUN then sends what was queued. -/
def execDropSet (b : Fin 16) (s : State) : Host.Outcome State Fault Refusal :=
  .next (s.serve b .dropSet State.dropSet State.settle)

/-! ## LINE_SETUP (R137) -/

/-- The fields of a LINE_SETUP (12.2). -/
structure SetupFields where
  line : Nat
  parity : Nat
  stopBits : Nat
  retryLimit : Nat
  wakeFlag : Bool
  length : Nat
  rate : Nat
  firstPosition : Nat
  count : Nat
  addresses : List Nat
  deriving DecidableEq, Repr

/-- The fields of the order's parameters. -/
def setupFields (p : List Byte) : SetupFields :=
  { line := leAt p 0 1, parity := leAt p 1 1, stopBits := leAt p 2 1, retryLimit := leAt p 3 1
    wakeFlag := (p.getD 4 0).getLsbD 0, length := leAt p 5 1, rate := leAt p 6 4, firstPosition := leAt p 10 1
    count := leAt p 11 1, addresses := (List.range (leAt p 11 1)).map fun i => leAt p (12 + i) 1 }

/-- The order sets a position. -/
def SetupFields.sets (f : SetupFields) (i : Nat) : Bool :=
  decide (f.firstPosition ≤ i ∧ i < f.firstPosition + f.count)

/-- The ranges of R137, but the line and the parity. -/
def SetupFields.inRange (f : SetupFields) (old : List (Fin 64)) : Bool :=
  decide (300 ≤ f.rate ∧ f.rate ≤ 230400) && decide (f.stopBits = 1 ∨ f.stopBits = 2) && decide (f.retryLimit ≤ 3) &&
  decide (f.length ≤ 128 ∧ f.count ≤ 24) && decide (f.count = 0 ∨ f.firstPosition + f.count ≤ f.length) &&
  (f.addresses.all fun a => decide (1 ≤ a ∧ a ≤ 63)) &&
  (List.range f.length).all fun i => decide (i < old.length) || f.sets i

/-- The poll table after the order (R137). -/
def SetupFields.newTable (f : SetupFields) (old : List (Fin 64)) : List (Fin 64) :=
  (List.range f.length).map fun i =>
    if f.sets i then Fin.ofNat 64 (f.addresses.getD (i - f.firstPosition) 0) else old.getD i 0

/-- The setup after the order (R137). -/
def SetupFields.apply (f : SetupFields) (parity : Parity) (old : Setup) : Setup :=
  { parity := parity, stopBits := f.stopBits, retryLimit := f.retryLimit, wakeFlag := f.wakeFlag, rate := f.rate
    divisor := divisorOf f.rate, table := f.newTable old.table }

/-- A line's setup is written, and the site mirror after a change of the configured rate (R125). -/
def State.putSetup (s : State) (l : Fin 2) (u : Setup) : State :=
  let t := s.setLine l { s.lines[l] with setup := u }
  if u.rate = s.lines[l].setup.rate then t else t.rewriteSite

/-- LINE_SETUP taken or refused by the rate and the line's state (R125, R137). -/
def State.takeSetup (s : State) (b : Fin 16) (l : Fin 2) (u : Setup) : State :=
  if rateTooFar u.rate then s.complete b .badRate []
  else if s.lines[l].state = .off ∨ s.lines[l].state = .ready then
    (s.putSetup l u).complete b .ok (leBytes 2 u.divisor ++ [0, 0] ++ leBytes 4 (actualRate u.divisor))
  else s.complete b .lineState []

/-- LINE_SETUP served (R137). -/
def State.lineSetup (h : Held) (s : State) : State :=
  let f := setupFields h.params
  match asFin 2 f.line, Parity.ofCode f.parity with
  | some l, some parity =>
    let old := s.lines[l].setup
    if f.inRange old.table then s.takeSetup h.block l (f.apply parity old) else s.complete h.block .badParam []
  | _, _ => s.complete h.block .badParam []

/-- LINE_SETUP in block `b`. -/
def execLineSetup (b : Fin 16) (s : State) : Host.Outcome State Fault Refusal :=
  .next (s.serve b .lineSetup State.lineSetup)

end Sys2Proof.Machine
end

