-- ==== Sys2Proof/Machine/MinibarOrders.lean ====
section
/-! DEFINITION. MINIBAR_SET and MINIBAR_SCAN (chapter 7). -/

namespace Sys2Proof.Machine

open Sys2Proof

/-! ## MINIBAR_SET (R119) -/

/-- The settings of one tray. -/
structure TraySetting where
  unit : Nat
  price : Nat
  stock : Nat
  deriving DecidableEq, Repr

/-- The fields of a MINIBAR_SET (12.2). -/
structure MinibarFields where
  trayCount : Nat
  limit : Nat
  firstTray : Nat
  settings : List TraySetting
  deriving DecidableEq, Repr

/-- The entries from P8 on, five bytes each (12.2). -/
def traySettings (p : List Byte) (count : Nat) : List TraySetting :=
  (List.range count).map fun i =>
    { unit := leAt p (8 + 5 * i) 2, price := leAt p (10 + 5 * i) 2, stock := leAt p (12 + 5 * i) 1 }

/-- The fields of the order's parameters. -/
def minibarFields (p : List Byte) : MinibarFields :=
  { trayCount := leAt p 1 1, limit := leAt p 2 3, firstTray := leAt p 5 1, settings := traySettings p (leAt p 6 1) }

/-- The setting an order gives tray `t`, if any. -/
def MinibarFields.settingOf (f : MinibarFields) (t : Nat) : Option TraySetting :=
  if f.firstTray ≤ t then f.settings[t - f.firstTray]? else none

/-- A setting in range (R119). -/
def TraySetting.inRange (x : TraySetting) : Bool := decide (1 ≤ x.unit ∧ x.unit ≤ 4095 ∧ x.stock ≤ 31)

/-- The refusals of R119 but the room index. -/
def MinibarFields.bad (f : MinibarFields) (m : Minibar) : Bool :=
  decide (f.trayCount < 1 ∨ 8 < f.trayCount) || decide (6 < f.settings.length) ||
  (decide (0 < f.settings.length) && decide (f.trayCount < f.firstTray + f.settings.length)) ||
  !f.settings.all TraySetting.inRange ||
  (List.finRange 8).any fun t =>
    decide (t.val < f.trayCount ∧ m.trays[t].unit = 0) && (f.settingOf t.val).isNone

/-- Step 2 of R119: a set tray takes its setting; a new unit leaves it not based and clears its fault. -/
def Tray.configure (t : Tray) (x : TraySetting) : Tray :=
  let t := { t with price := x.price, stock := x.stock }
  if x.unit = t.unit then t else { t with unit := x.unit, baseline := 0, fault := false }

/-- Step 3 of R119. -/
def Tray.capped (t : Tray) : Tray := { t with taken := min t.taken t.stock, base := min t.base t.stock }

/-- Step 5 of R119: taken computed anew from the stored reading. -/
def Tray.recounted (t : Tray) : Tray :=
  if t.baseline = 0 then { t with taken := 0 }
  else if t.fault then t
  else
    match t.last with
    | none => t
    | some r => if badReading r then t else { t with taken := min (t.quotient r) t.stock }

/-- The stored reading of a based, good tray shows more items gone than its stock (R115, R119). -/
def Tray.recountOver (t : Tray) : Bool :=
  match t.last with
  | none => false
  | some r => !t.fault && t.overStock r

/-- Steps 1 to 3 of R119 for tray `t`. -/
def MinibarFields.trayStep (f : MinibarFields) (t : Nat) (x : Tray) : Tray :=
  if f.trayCount ≤ t then Tray.cold
  else
    match f.settingOf t with
    | none => x.capped
    | some y => (x.configure y).capped

/-- A taken MINIBAR_SET (R119). That the recount sets OVER_STOCK as a scan does: DEDUCED, log 26. -/
def MinibarFields.apply (f : MinibarFields) (m : Minibar) : Minibar :=
  let trays := Vector.ofFn fun t : Fin 8 => f.trayStep t.val m.trays[t]
  Minibar.recharge { m with
    trayCount := f.trayCount
    limit := min f.limit Config.maxCharge
    overStock := m.overStock || trays.toList.any Tray.recountOver
    trays := trays.map Tray.recounted }

/-- MINIBAR_SET taken: the record, MINIBAR_CHARGE with reason 5 when the charge changes, OK (R119, R123). -/
def State.takeMinibarSet (s : State) (b : Fin 16) (r : Fin 48) (f : MinibarFields) : State :=
  let old := s.minibars[r]
  let m := f.apply old
  let s := s.putMinibar r m
  let s := if m.charge ≠ old.charge then
      s.admitRequest { kind := .minibarCharge, place := s.minibarPlace r, room := r.val, reason := 5, subject := m.charge }
    else s
  s.complete b .ok (leBytes 3 m.limit ++ [0] ++ leBytes 4 m.charge ++ [byteOf m.flags])

/-- MINIBAR_SET served (R119). -/
def State.minibarSet (h : Held) (s : State) : State :=
  match asFin 48 (leAt h.params 0 1) with
  | none => s.complete h.block .badParam []
  | some r =>
    let f := minibarFields h.params
    if f.bad s.minibars[r] then s.complete h.block .badParam []
    else
      match s.minibars[r].state with
      | .offline | .locked => s.takeMinibarSet h.block r f
      | .granted | .opened | .scanning => s.complete h.block .minibarBusy []

/-- MINIBAR_SET in block `b`. -/
def execMinibarSet (b : Fin 16) (s : State) : Host.Outcome State Fault Refusal :=
  .next (s.serve b .minibarSet State.minibarSet)

/-! ## MINIBAR_SCAN (R118) -/

/-- The trays a MINIBAR_SCAN asks for: none for mode ALL, one for SINGLE; no answer for a mode or tray out of range (R118). -/
def scanTarget (p : List Byte) (trayCount : Nat) : Option (Option Nat) :=
  match leAt p 1 1 with
  | 0 => some none
  | 1 => if leAt p 2 1 < trayCount then some (some (leAt p 2 1)) else none
  | _ => none

/-- MINIBAR_SCAN served (R118). A refusal that names a room shows its minibar as it stands; one that names none shows 0: DEDUCED, log 11. -/
def State.minibarScan (h : Held) (s : State) : State :=
  match asFin 48 (leAt h.params 0 1) with
  | none => s.complete h.block .badParam []
  | some r =>
    let m := s.minibars[r]
    match scanTarget h.params m.trayCount with
    | none => s.complete h.block .badParam (scanData m 0 0)
    | some single =>
      match m.state with
      | .offline => s.complete h.block .dropOffline (scanData m 0 0)
      | .granted | .opened | .scanning => s.complete h.block .minibarBusy (scanData m 0 0)
      | .locked => (s.passTo h.block (.minibarUnit r)).startScan r .host single

/-- MINIBAR_SCAN in block `b`; an idle line in RUN then sends what was queued. -/
def execMinibarScan (b : Fin 16) (s : State) : Host.Outcome State Fault Refusal :=
  .next (s.serve b .minibarScan State.minibarScan State.settle)

end Sys2Proof.Machine
end

