-- ==== Sys2Proof/Machine/Revocation.lean ====
section
/-! DEFINITION. REVOKE and UNREVOKE (chapter 5). -/

namespace Sys2Proof.Machine

open Sys2Proof

/-! ## The fields of an order (R73, R77) -/

/-- A REVOKE or UNREVOKE that passes its field checks; `generation` none is ANY. -/
inductive RevOrder where
  | guest (room : Fin 48) (generation : Option Nat) (copies : Byte)
  | staff (serial until_ : Nat)
  deriving DecidableEq, Repr

/-- The generation field: 0..255, or ANY as 0xFFFF (12.2). -/
def generationField (n : Nat) : Option (Option Nat) :=
  if n = 0xFFFF then some none else if n < 256 then some (some n) else none

/-- The field checks of R73 (R77 without the until). -/
def revFields (p : List Byte) (withUntil : Bool) : Option RevOrder :=
  match leAt p 0 1 with
  | 0 =>
    match asFin 48 (leAt p 1 1), generationField (leAt p 2 2) with
    | some r, some g => if p.getD 4 0 = 0 then none else some (.guest r g (p.getD 4 0))
    | _, _ => none
  | 1 =>
    let serial := leAt p 8 4
    let until_ := if withUntil then leAt p 12 4 else 0
    if serial = 0 ∨ serial = Config.serialLimit ∨ Config.lastMinute < until_ then none else some (.staff serial until_)
  | _ => none

/-! ## The list -/

/-- The entry is the room's GUEST entry. -/
def RevEntry.isOfRoom (r : Fin 48) : RevEntry → Bool
  | .guest room _ _ => decide (room = r)
  | .staff _ _ => false

/-- The entry is the serial's STAFF entry. -/
def RevEntry.isOfSerial (n : Nat) : RevEntry → Bool
  | .guest _ _ _ => false
  | .staff serial _ => decide (serial = n)

/-- The position of an entry, from 1, or 0 (R76). -/
def positionOf (revs : List RevEntry) (p : RevEntry → Bool) : Nat :=
  match revs.findIdx? p with
  | none => 0
  | some i => i + 1

/-- The until of the serial's entry, or 0. -/
def untilOf (revs : List RevEntry) (n : Nat) : Nat :=
  match revs.find? (RevEntry.isOfSerial n) with
  | some (.staff _ u) => u
  | _ => 0

/-- The room's GUEST entry with another copy mask, in its place (R69). -/
def setCopies (revs : List RevEntry) (r : Fin 48) (copies : Byte) : List RevEntry :=
  revs.map fun e => match e with
    | .guest room g c => if room = r then .guest room g copies else .guest room g c
    | .staff n u => .staff n u

/-- The serial's STAFF entry with another until, in its place (R69). -/
def setUntil (revs : List RevEntry) (n u : Nat) : List RevEntry :=
  revs.map fun e => match e with
    | .guest room g c => .guest room g c
    | .staff m v => if m = n then .staff m u else .staff m v

/-- Result data of a GUEST order (R76, 12.2). -/
def guestData (revs : List RevEntry) (r : Fin 48) (generation : Nat) (dropped : Byte) : List Byte :=
  [byteOf revs.length, byteOf (positionOf revs (RevEntry.isOfRoom r)), byteOf generation, dropped] ++
  leBytes 4 (revokedMask revs r).toNat

/-- Result data of a STAFF order (R76, 12.2). -/
def staffData (revs : List RevEntry) (n : Nat) : List Byte :=
  [byteOf revs.length, byteOf (positionOf revs (RevEntry.isOfSerial n)), 0, 0] ++ leBytes 4 (untilOf revs n)

/-! ## REVOKE GUEST (R74) -/

/-- The steps of R74: the result, the list after the order, the copies dropped at step 3, the copies newly revoked. -/
def revokeGuest (revs : List RevEntry) (r : Fin 48) (room : Room) (generation : Option Nat) (copies : Byte) :
    Result × List RevEntry × Byte × Byte :=
  let kept := copies &&& room.issued
  let dropped := copies &&& ~~~room.issued
  let old := revokedMask revs r
  if !room.state.inStay then (.roomState, revs, 0, 0)
  else if generation.isSome ∧ generation ≠ some room.generation then (.roomState, revs, 0, 0)
  else if kept = 0 then (.notNeeded, revs, dropped, 0)
  else if revs.any (RevEntry.isOfRoom r) then
    if kept &&& ~~~old = 0 then (.notNeeded, revs, dropped, 0)
    else (.ok, setCopies revs r (old ||| kept), dropped, kept &&& ~~~old)
  else if Config.revocationLimit ≤ revs.length then (.listFull, revs, dropped, 0)
  else (.ok, revs ++ [.guest r room.generation kept], dropped, kept)

/-- REVOKE GUEST: on OK the REVOKED entry, then the room mirror (R74, R76, R82). -/
def State.serveRevokeGuest (s : State) (b : Fin 16) (r : Fin 48) (generation : Option Nat) (copies : Byte) : State :=
  let room := s.rooms[r]
  let (res, revs, dropped, new) := revokeGuest s.revs r room generation copies
  let s : State := { s with revs := revs }
  let s := if res = .ok then
      (s.admitRequest { kind := .revoked, room := r.val, subject := (revokedMask revs r).toNat,
                        value := twoItems room.generation new.toNat }).rewriteRoom r
    else s
  s.complete b res (guestData revs r room.generation dropped)

/-! ## REVOKE STAFF (R75) -/

/-- The steps of R75: the result, the list after the order, and the value of the REVOKED entry. -/
def revokeStaff (revs : List RevEntry) (clock : Clock) (n u : Nat) : Result × List RevEntry × Nat :=
  if clock.state = .running ∧ u ≤ clock.minute then (.notNeeded, revs, 0)
  else if revs.any (RevEntry.isOfSerial n) then
    if u ≤ untilOf revs n then (.notNeeded, revs, 0) else (.ok, setUntil revs n u, 2)
  else if Config.revocationLimit ≤ revs.length then (.listFull, revs, 0)
  else (.ok, revs ++ [.staff n u], 1)

/-- REVOKE STAFF (R75, R76, R82). -/
def State.serveRevokeStaff (s : State) (b : Fin 16) (n u : Nat) : State :=
  let (res, revs, value) := revokeStaff s.revs s.clock n u
  let s : State := { s with revs := revs }
  let s := if res = .ok then s.admitRequest { kind := .revoked, subject := n, value := value } else s
  s.complete b res (staffData revs n)

/-- REVOKE served (R73 to R76). -/
def State.revoke (h : Held) (s : State) : State :=
  match revFields h.params true with
  | none => s.complete h.block .badParam []
  | some (.guest r g copies) => s.serveRevokeGuest h.block r g copies
  | some (.staff n u) => s.serveRevokeStaff h.block n u

/-- REVOKE in block `b`. -/
def execRevoke (b : Fin 16) (s : State) : Host.Outcome State Fault Refusal :=
  .next (s.serve b .revoke State.revoke)

/-! ## UNREVOKE (R77, R78) -/

/-- The generation of the room's entry. -/
def entryGeneration (revs : List RevEntry) (r : Fin 48) : Option Nat :=
  match revs.find? (RevEntry.isOfRoom r) with
  | some (.guest _ g _) => some g
  | _ => none

/-- The GUEST rows of R77: the result, the list after the order, the copies restored. -/
def unrevokeGuest (revs : List RevEntry) (r : Fin 48) (generation : Option Nat) (copies : Byte) :
    Result × List RevEntry × Byte :=
  let old := revokedMask revs r
  let restored := old &&& copies
  let left := old &&& ~~~copies
  match entryGeneration revs r with
  | none => (.notNeeded, revs, 0)
  | some g =>
    if generation.isSome ∧ generation ≠ some g then (.notNeeded, revs, 0)
    else if restored = 0 then (.notNeeded, revs, 0)
    else if left = 0 then (.ok, revs.filter fun e => !e.isOfRoom r, restored)
    else (.ok, setCopies revs r left, restored)

/-- Result data of UNREVOKE (R78, 12.2). -/
def unrevokeData (revs : List RevEntry) (p : RevEntry → Bool) (mask : Byte) : List Byte :=
  [byteOf revs.length, byteOf (positionOf revs p), 0, 0, mask]

/-- UNREVOKE GUEST: on OK the UNREVOKED entry, then the room mirror (R77, R78, R82). A NOT_NEEDED one shows the position of the
room's entry that stands: DEDUCED, log 42. -/
def State.serveUnrevokeGuest (s : State) (b : Fin 16) (r : Fin 48) (generation : Option Nat) (copies : Byte) : State :=
  let g := (entryGeneration s.revs r).getD 0
  let (res, revs, restored) := unrevokeGuest s.revs r generation copies
  let s : State := { s with revs := revs }
  let s := if res = .ok then
      (s.admitRequest { kind := .unrevoked, room := r.val, subject := (revokedMask revs r).toNat,
                        value := twoItems g restored.toNat }).rewriteRoom r
    else s
  s.complete b res (unrevokeData revs (RevEntry.isOfRoom r) (revokedMask revs r))

/-- UNREVOKE STAFF (R77, R78, R82). -/
def State.serveUnrevokeStaff (s : State) (b : Fin 16) (n : Nat) : State :=
  if s.revs.any (RevEntry.isOfSerial n) then
    let s : State := { s with revs := s.revs.filter fun e => !e.isOfSerial n }
    (s.admitRequest { kind := .unrevoked, subject := n }).complete b .ok (unrevokeData s.revs (RevEntry.isOfSerial n) 0)
  else s.complete b .notNeeded (unrevokeData s.revs (RevEntry.isOfSerial n) 0)

/-- Result data of an UNREVOKE refused for its fields: the list length and, where it names a room, that room's entry as it stands (R78).
DEDUCED, log 42. -/
def refusedUnrevokeData (revs : List RevEntry) (p : List Byte) : List Byte :=
  match asFin 48 (leAt p 1 1) with
  | some r =>
    if leAt p 0 1 = 0 then unrevokeData revs (RevEntry.isOfRoom r) (revokedMask revs r) else unrevokeData revs (fun _ => false) 0
  | none => unrevokeData revs (fun _ => false) 0

/-- UNREVOKE served (R77, R78). -/
def State.unrevoke (h : Held) (s : State) : State :=
  match revFields h.params false with
  | none => s.complete h.block .badParam (refusedUnrevokeData s.revs h.params)
  | some (.guest r g copies) => s.serveUnrevokeGuest h.block r g copies
  | some (.staff n _) => s.serveUnrevokeStaff h.block n

/-- UNREVOKE in block `b`. -/
def execUnrevoke (b : Fin 16) (s : State) : Host.Outcome State Fault Refusal :=
  .next (s.serve b .unrevoke State.unrevoke)

end Sys2Proof.Machine
end

