-- ==== Sys2Proof/Machine/RoomOrders.lean ====
section
/-! DEFINITION. ROOM_SET and CHECKOUT (chapter 2). -/

namespace Sys2Proof.Machine

open Sys2Proof

/-! ## ROOM_SET (R17, R18) -/

/-- Actions of ROOM_SET. -/
inductive RoomAction where
  | assign | release | outOfService | return_
  deriving DecidableEq, Repr

/-- The action a byte names, if any (12.6). -/
def RoomAction.ofCode : Nat → Option RoomAction
  | 0 => some .assign | 1 => some .release | 2 => some .outOfService | 3 => some .return_
  | _ => none

/-- The state an action is taken in (R18). -/
def RoomAction.takenIn : RoomAction → RoomState
  | .assign => .unused
  | .release | .outOfService => .vacant
  | .return_ => .outOfService

/-- The record after a taken action (R18). -/
def RoomAction.apply (a : RoomAction) (label : Nat) (x : Room) : Room :=
  match a with
  | .assign => { x with label := label, state := .vacant }
  | .release => { x with label := 0, state := .unused }
  | .outOfService => { x with state := .outOfService }
  | .return_ => { x with state := .vacant }

/-- A label ASSIGN refuses: 0, above 9,999, or held by another room (R17). -/
def State.badLabel (s : State) (r : Fin 48) (label : Nat) : Bool :=
  decide (label = 0 ∨ 9999 < label) || allRooms.any fun k => decide (k ≠ r ∧ s.rooms[k].label = label)

/-- ROOM_SET served (R17, R18). -/
def State.roomSet (h : Held) (s : State) : State :=
  let label := leAt h.params 2 2
  match asFin 48 (leAt h.params 0 1), RoomAction.ofCode (leAt h.params 1 1) with
  | some r, some action =>
    if action = .assign ∧ s.badLabel r label then s.complete h.block .badParam []
    else if s.rooms[r].state ≠ action.takenIn then s.complete h.block .roomState []
    else (s.moveRoom r (action.apply label s.rooms[r]) false).complete h.block .ok []
  | _, _ => s.complete h.block .badParam []

/-- ROOM_SET in block `b`. -/
def execRoomSet (b : Fin 16) (s : State) : Host.Outcome State Fault Refusal :=
  .next (s.serve b .roomSet State.roomSet)

/-! ## CHECKOUT (R26, R27) -/

/-- CHECKOUT taken: DEPARTING with an advanced generation and a wait of 30 seconds as one step, the ROOM_STATE entry, the
final scan asked for; the order passes to the Room Table (R27). -/
def State.takeCheckout (s : State) (b : Fin 16) (r : Fin 48) : State :=
  let left := s.rooms[r].state
  let s := (s.advance r fun x => { x with state := .departing, wait := 30 }).passTo b (.roomTable r)
  (s.admitRequest (roomStateRequest r s.rooms[r] left false)).finalRequested r

/-- CHECKOUT served (R26, R27). -/
def State.checkout (h : Held) (s : State) : State :=
  match asFin 48 (leAt h.params 0 1) with
  | none => s.complete h.block .badParam []
  | some r =>
    if s.rooms[r].state.inStay then s.takeCheckout h.block r else s.complete h.block .roomState []

/-- CHECKOUT in block `b`; an idle line in RUN then sends what was queued. -/
def execCheckout (b : Fin 16) (s : State) : Host.Outcome State Fault Refusal :=
  .next (s.serve b .checkout State.checkout State.settle)

end Sys2Proof.Machine
end

