-- ==== Sys2Proof/Machine/Site.lean ====
section
/-! DEFINITION. The Clock and Site Unit (chapter 1): SITE_SETUP, SET_CLOCK and ZONE_SET. -/

namespace Sys2Proof.Machine

open Sys2Proof

/-! ## SITE_SETUP (R2, R3) -/

/-- The site record an order's parameters give, after clamping (R2, 12.2). -/
def siteOf (p : List Byte) : Site :=
  { state := .configured, code := leAt p 0 2, keyM := leAt p 2 2, keyN := leAt p 4 2
    earlyGrace := min (leAt p 6 2) 240, checkoutGrace := min (leAt p 8 2) 240, heldLimit := clampTo 10 600 (leAt p 10 2) }

/-- The ranges of R2. -/
def Site.inRange (x : Site) : Bool :=
  decide (1 ≤ x.code ∧ x.code ≤ 65534 ∧ 1 ≤ x.keyM ∧ x.keyM ≤ 65520 ∧ x.keyN ≤ 65520)

/-- The order re-keys (R2). -/
def Site.rekeys (new old : Site) : Bool :=
  decide (new.code ≠ old.code ∨ new.keyM ≠ old.keyM ∨ new.keyN ≠ old.keyN)

/-- The six values as stored (R3, 12.2). -/
def Site.data (x : Site) : List Byte :=
  leBytes 2 x.code ++ leBytes 2 x.keyM ++ leBytes 2 x.keyN ++ leBytes 2 x.earlyGrace ++ leBytes 2 x.checkoutGrace ++
  leBytes 2 x.heldLimit

/-- The site record is written, and the site mirror after a change of the site state (R1). -/
def State.putSite (s : State) (x : Site) : State :=
  let t : State := { s with site := x }
  if x.state = s.site.state then t else t.rewriteSite

/-- SITE_SETUP served (R2, R3). -/
def State.siteSetup (h : Held) (s : State) : State :=
  let x := siteOf h.params
  let rekeys := x.rekeys s.site
  if !x.inRange then s.complete h.block .badParam []
  else if rekeys ∧ (s.rooms.toList.any fun r => r.state.inHouse) then s.complete h.block .roomsOccupied []
  else
    ((s.putSite x).admitRequest { kind := .siteSet, subject := x.code, value := flagBit rekeys }).complete h.block .ok x.data

/-- SITE_SETUP in block `b`. -/
def execSiteSetup (b : Fin 16) (s : State) : Host.Outcome State Fault Refusal :=
  .next (s.serve b .siteSetup State.siteSetup)

/-! ## SET_CLOCK (R9, R10) -/

/-- The minute lies more than 90 before the count of a clock that is set (R9). -/
def Clock.tooFarBack (c : Clock) (minute : Nat) : Bool := c.isSet && decide (minute + 90 < c.minute)

/-- A taken set raises a minute tick (R10). -/
def Clock.setRaisesTick (c : Clock) (minute : Nat) : Bool := !c.isSet || decide (c.minute < minute)

/-- SET_CLOCK served (R9, R10). -/
def State.setClock (h : Held) (s : State) : State :=
  let minute := leAt h.params 0 3
  let old := s.clock
  if 16777214 < minute then s.complete h.block .badParam []
  else if s.crystalFault then s.complete h.block .clockFault []
  else if old.tooFarBack minute then s.complete h.block .clockBackward []
  else
    let s := s.putClock { state := .running, minute := minute, second := 0 }
    let s := s.admitRequest { kind := .clockSet, subject := old.minute }
    let s := if old.setRaisesTick minute then s.minuteTick minute else s
    s.complete h.block .ok (leBytes 3 old.minute ++ [byteOf old.state.code])

/-- SET_CLOCK in block `b`. -/
def execSetClock (b : Fin 16) (s : State) : Host.Outcome State Fault Refusal :=
  .next (s.serve b .setClock State.setClock)

/-! ## ZONE_SET (R13) -/

/-- ZONE_SET served: the record, the entry, the messages to the zone's gates on entering or leaving HELD_OPEN (R13). -/
def State.zoneSet (h : Held) (s : State) : State :=
  let p := h.params
  let openFrom := leAt p 2 2
  let openTo := leAt p 4 2
  match asFin 8 (leAt p 0 1), ZoneMode.ofCode (leAt p 1 1) with
  | some z, some mode =>
    if 1439 < openFrom ∨ 1439 < openTo then s.complete h.block .badParam []
    else
      let old := s.zones[z].mode
      let s : State := { s with zones := s.zones.set z { mode := mode, openFrom := openFrom, openTo := openTo } }
      let s := s.admitRequest { kind := .zoneSet, subject := openFrom * 65536 + openTo, value := twoItems z.val mode.code }
      (s.zoneModeChanged z old mode).complete h.block .ok []
  | _, _ => s.complete h.block .badParam []

/-- ZONE_SET in block `b`; an idle line in RUN then sends what was queued. -/
def execZoneSet (b : Fin 16) (s : State) : Host.Outcome State Fault Refusal :=
  .next (s.serve b .zoneSet State.zoneSet State.settle)

end Sys2Proof.Machine
end

