-- ==== Sys2Proof/Machine/Time.lean ====
section
/-! DEFINITION. The seconds and minute ticks (chapter 1.2), the expiry of each count that follows them, and the clock
crystal. -/

namespace Sys2Proof.Machine

open Sys2Proof

/-! ## The clock (R4, R5, R7) -/

/-- Something counts the seconds: the clock crystal, or under a crystal-fault condition the reference crystal (R7). -/
def State.counting (s : State) : Bool := s.crystalRuns || (s.powered && s.crystalFault)

/-- The clock after `n` more minutes: RUNNING alone counts them, and ends at the last minute (R4, R5). -/
def Clock.addMinutes (c : Clock) (n : Nat) : Clock :=
  if c.state ≠ .running then c
  else if c.minute + n < Config.lastMinute then { c with minute := c.minute + n }
  else { c with minute := Config.lastMinute, state := .ended }

/-- The clock after `n` more seconds (R4). -/
def Clock.addSeconds (c : Clock) (n : Nat) : Clock :=
  { c with second := (c.second + n) % 60 }.addMinutes ((c.second + n) / 60)

/-- This second wraps the seconds count of a RUNNING clock: a minute tick is raised (R4). -/
def Clock.wraps (c : Clock) : Bool := decide (c.state = .running ∧ 60 ≤ c.second + 1)

/-! ## The seconds tick (R6) -/

/-- The seconds tick reaches its receivers in the order of R6's table: grant deadlines and held timers, minibars, rooms, the
encoder, the journal search. DESIGN CHOICE, log 7. -/
def State.secondsReceivers (s : State) : State :=
  let s := allDrops.foldl State.tickDoor s
  let s := allRooms.foldl State.tickMinibar s
  let s := allRooms.foldl State.tickRoom s
  s.tickEncoder.search

/-- One second of a part that runs (R4 to R6): the clock and the site mirror, CLOCK_END when the clock ends, the receivers of
the seconds tick, then those of the minute tick. -/
def State.tickRunning (s : State) : State :=
  let old := s.clock
  let s := s.putClock (old.addSeconds 1)
  let s := if old.state = .running ∧ s.clock.state = .ended then s.admitRequest { kind := .clockEnd } else s
  let s := s.secondsReceivers
  (if old.wraps then s.minuteTick s.clock.minute else s).settle

/-- One second of a part that does not run: the clock counts on and no tick is delivered (R8, R177). Once the start in progress has written
the mirrors, the site mirror is rewritten (R4). Before that, and in a part whose start stopped at its test of shared RAM (R177) or that has
no main supply, it is not: DESIGN CHOICE, log 50. -/
def State.tickUnready (s : State) : State :=
  let c := s.clock.addSeconds 1
  if s.mirrorsStand then s.putClock c else { s with clock := c }

/-- One second passes, when something counts it. -/
def State.tickSecond (s : State) : State :=
  if !s.counting then s else if s.ready then s.tickRunning else s.tickUnready

/-- SECONDS_TICK. -/
def execSecondsTick (s : State) : Host.Outcome State Fault Refusal := .next s.tickSecond

/-- CLOCK_END: the second that brings the minute count to its last value (R5). -/
def execClockEnd (s : State) : Host.Outcome State Fault Refusal :=
  .next (if s.ready ∧ s.clock.state = .running ∧ s.clock.minute + 1 = Config.lastMinute ∧ s.clock.second = 59 then
    s.tickSecond else s)

/-! ## Expiries: the tick that ends one count (log 17) -/

/-- Seconds ticks reach the blocks: the part runs, and something counts the seconds (R6, R7). -/
def State.ticks (s : State) : Bool := s.ready && s.counting

/-- DEPARTING_WAIT_EXPIRY (R28). -/
def execDepartingWaitExpiry (r : Fin 48) (s : State) : Host.Outcome State Fault Refusal :=
  .next (if s.ticks ∧ s.rooms[r].state = .departing ∧ s.rooms[r].wait ≤ 1 then s.waitExpired r else s)

/-- The grant deadline of a drop is at its last second (R64). -/
def State.grantRunsOut (s : State) (l : Fin 2) (a : Fin 64) : Bool :=
  match (s.drop l a).door with
  | none => false
  | some d =>
    match d.deadline with
    | none => false
    | some n => decide (n ≤ 1)

/-- GRANT_DEADLINE_EXPIRY (R64). -/
def execGrantDeadlineExpiry (l : Fin 2) (a : Fin 64) (s : State) : Host.Outcome State Fault Refusal :=
  .next (if s.ticks && s.grantRunsOut l a then s.tickGrant l a else s)

/-- The held count of a drop is one second short of the limit, its alarm not raised (R67). -/
def State.heldTooLong (s : State) (l : Fin 2) (a : Fin 64) : Bool :=
  match (s.drop l a).door with
  | none => false
  | some d => d.timer && !d.alarm && decide (s.site.heldLimit ≤ min (d.heldCount + 1) 65535)

/-- DOOR_HELD (R67). -/
def execDoorHeld (l : Fin 2) (a : Fin 64) (s : State) : Host.Outcome State Fault Refusal :=
  .next (if s.ticks && s.heldTooLong l a then s.tickHeld l a else s)

/-- The open window of a minibar is at its last second (R110). -/
def Minibar.windowRunsOut (m : Minibar) : Bool :=
  decide (m.state = .granted) &&
    match m.deadline with
    | none => false
    | some n => decide (n ≤ 1)

/-- MINIBAR_DEADLINE_EXPIRY (R110, R122). -/
def execMinibarDeadlineExpiry (r : Fin 48) (s : State) : Host.Outcome State Fault Refusal :=
  .next (if s.ticks && s.minibars[r].windowRunsOut then (s.minibarWindowEnds r).settle else s)

/-- SCAN_EXPIRY (R114). -/
def execScanExpiry (r : Fin 48) (s : State) : Host.Outcome State Fault Refusal :=
  .next (if s.ticks ∧ s.minibars[r].state = .scanning ∧ s.minibars[r].scanCount ≤ 1 then (s.scanExpires r).settle else s)

/-- The card wait of the running order is at its last second (R89). -/
def State.cardWaitRunsOut (s : State) : Bool :=
  match s.encoder.running with
  | none => false
  | some o => decide (s.encoder.state = .sensing ∧ o.waitCount ≤ 1)

/-- CARD_WAIT_EXPIRY (R89). -/
def execCardWaitExpiry (s : State) : Host.Outcome State Fault Refusal :=
  .next (if s.ticks && s.cardWaitRunsOut then s.tickEncoder else s)

/-! ## The crystal (R7) -/

/-- CLOCK_CRYSTAL_STOP: the seconds stop until the next start tests the crystal. -/
def execClockCrystalStop (s : State) : Host.Outcome State Fault Refusal := .next { s with crystalRuns := false }

end Sys2Proof.Machine
end

