-- ==== Sys2Proof/Machine/Starts.lean ====
section
/-! DEFINITION. Starts and the main supply (chapter 11.5). Each start is one command, which runs
its steps to the end or as far as it goes before another start begins. -/

namespace Sys2Proof.Machine

open Sys2Proof

/-- The four kinds of start (R176). -/
inductive StartKind where
  | cold | supply | pin | soft
  deriving DecidableEq, Repr

/-- What the self-test finds: shared RAM good, the table check equal to the covered records, the clock crystal running
(R177). -/
structure Findings where
  ramOk : Bool
  tablesOk : Bool
  crystalOk : Bool
  deriving DecidableEq, Repr

/-- The start flags: COLD alone, or one more flag (R176). -/
def StartKind.flags (k : StartKind) (old : BitVec 4) : BitVec 4 :=
  match k with
  | .cold => flagCold
  | .supply => old ||| flagSupply
  | .pin => old ||| flagPin
  | .soft => old ||| flagSoft

/-- The start tests shared RAM (R177 step 1). -/
def StartKind.testsRam : StartKind → Bool
  | .cold | .supply => true
  | .pin | .soft => false

/-! ## The two domains (R175) -/

/-- A drop record with its main-domain part at its start values; a bound DOOR or GATE drop has a door-side record, all
UNKNOWN (R47, R134). -/
def Drop.restart (d : Drop) : Drop :=
  { Drop.cold with
    binding := d.binding, openTime := d.openTime
    door := match d.binding with
      | some (.door _) | some (.gate _) => some DoorSide.unknown
      | some (.minibar _) | none => none }

/-- A line with its main-domain part at its start values: OFF at the base rate (R125, R137, R141). -/
def Line.restart (x : Line) : Line := { Line.cold with setup := x.setup, drops := x.drops.map Drop.restart }

/-- The main domain at the values every start gives it; what lies in the battery domain is kept (R84, R101, R102, R134, R141,
R166, R168, R177). -/
def State.mainLost (s : State) : State :=
  { s with
    ready := false, latch := false, cause := 0, mask := 0, held := [], engine := none, intakeNext := 0, crystalFault := false
    mirrorsStand := false, siteCount := 0, roomCounts := Vector.replicate 48 0
    rooms := s.rooms.map fun x => { x with wait := 0 }
    lastDeny := Vector.replicate 48 none
    minibars := s.minibars.map Minibar.offline
    encoder := Encoder.cold
    lines := s.lines.map Line.restart
    journal := Journal.cold }

/-- Every battery-domain record at its COLD value, the start flags apart (R1, R8, R11, R15, R32, R69, R102, R134, R137,
R175). -/
def State.batteryCold (s : State) : State :=
  { s with
    site := Site.cold, clock := Clock.cold, zones := Vector.replicate 8 Zone.cold
    rooms := Vector.replicate 48 Room.cold, serial := 1, revs := [], minibars := Vector.replicate 48 Minibar.cold
    lines := Vector.replicate 2 Line.cold, tableCheck := true }

/-! ## The steps of a start (R177) -/

/-- A room found in DEPARTING is made VACANT, unscanned (R33). -/
def Room.restarted (x : Room) : Room :=
  if x.state = .departing then { x with state := .vacant, unscanned := true, wait := 0 } else x

/-- The battery domain of a start that finds the table check good: DEPARTING rooms and stay-start marks (R33, R102). -/
def State.batteryKept (s : State) : State :=
  { s with rooms := s.rooms.map Room.restarted, minibars := s.minibars.map Minibar.applyMark }

/-- The rooms found in DEPARTING (R33), whose ROOM_STATE entries follow in rising index: DESIGN CHOICE, log 43. -/
def State.departing (s : State) : List (Fin 48) := allRooms.filter fun r => decide (s.rooms[r].state = .departing)

/-- The crystal is tested: a fault holds the condition and leaves the clock NOT_SET (R7). -/
def State.testCrystal (s : State) (ok : Bool) : State :=
  { s with
    crystalRuns := ok, crystalFault := !ok
    clock := if ok then s.clock else { s.clock with state := .notSet } }

/-- Every mirror is written, its count 1 and then 2 (R174). -/
def State.writeMirrors (s : State) : State := { allRooms.foldl State.rewriteRoom s.rewriteSite with mirrorsStand := true }

/-- The START entry: flags and code (R166, R177 step 3). -/
def State.startEntry (s : State) : State :=
  s.admitRequest { kind := .start, value := twoItems s.startFlags.toNat s.selfTest.code }

/-- The ROOM_STATE entry of a room the start made VACANT (R33). -/
def State.restartEntry (s : State) (r : Fin 48) : State :=
  s.admitRequest (roomStateRequest r s.rooms[r] .departing true)

/-- The self-test code of a start whose shared RAM is good (R177). -/
def codeOf (lost crystalOk : Bool) : SelfTest :=
  if lost then .tablesLost else if crystalOk then .ok else .crystalFault

/-- A start begins: its flag, READY clear, the main domain lost (R168, R175, R176), and the seconds that pass while no tick is
delivered (R8). After the beginning of a COLD start no table check stands until its step 2 (log 3). DESIGN CHOICE, log 15: R177 gives no
self-test code between a start's beginning and its step 1, and the one that stood before the start stands on; so do the bytes of shared RAM. -/
def State.begins (s : State) (k : StartKind) (elapsed : Nat) : State :=
  { s.mainLost with
    powered := true, startFlags := k.flags s.startFlags
    clock := if s.counting then s.clock.addSeconds elapsed else s.clock
    tableCheck := s.tableCheck && decide (k ≠ .cold) }

/-- The start stops at the shared RAM test (R177 step 1): START in CAUSE, READY clear. -/
def State.startStops (s : State) : State :=
  { s with ram := [], cause := causeStart, selfTest := .sharedRamFault }

/-- Step 1 of a start whose shared RAM is good: the RAM tested and left 0, the table check compared, the crystal tested, the code
(R177). -/
def State.selfTests (s : State) (k : StartKind) (f : Findings) : State :=
  let check := s.tableCheck && f.tablesOk
  { s.testCrystal f.crystalOk with
    ram := if k.testsRam then [] else s.ram
    tableCheck := check
    selfTest := codeOf (decide (k ≠ .cold) && !check) f.crystalOk }

/-- Step 2: the battery domain takes its COLD values where no table check stands; the order blocks, the descriptors and the mirrors
are written anew (R167, R174, R175, R177). -/
def State.restores (s : State) : State :=
  let s := if s.tableCheck then s.batteryKept else s.batteryCold
  { s with ram := s.ram.clear 0 0xB00 }.writeMirrors

/-- Step 4, and the minute tick of R8. -/
def State.endStart (s : State) : State :=
  let s : State := { s with ready := true, cause := causeStart }
  if s.clock.state = .running then s.minuteTick s.clock.minute else s

/-- A start (R176, R177), as far as it goes: one that another start abandons leaves what its steps so far have made (log 15). -/
def State.start (s : State) (k : StartKind) (f : Findings) (course : StartCourse) : State :=
  let s := s.begins k course.seconds
  if course.reach = .begun then s
  else if k.testsRam && !f.ramOk then s.startStops
  else
    let s := s.selfTests k f
    if course.reach = .tested then s
    else
      let departing := if s.tableCheck then s.departing else []
      let s := s.restores
      if course.reach = .restored then s
      else
        let s := departing.foldl State.restartEntry s.startEntry
        if course.reach = .journaled then s else s.endStart

/-! ## Commands -/

/-- COLD_START: the battery domain is powered from none. -/
def execColdStart (tests : ColdTests) (reach : StartReach) (s : State) : Host.Outcome State Fault Refusal :=
  .next (s.start .cold { ramOk := tests.ramOk, tablesOk := true, crystalOk := tests.crystalOk } { seconds := 0, reach := reach })

/-- SUPPLY_START: the main supply returns. -/
def execSupplyStart (ramOk tablesOk crystalOk : Bool) (course : StartCourse) (s : State) :
    Host.Outcome State Fault Refusal :=
  .next (s.start .supply { ramOk := ramOk, tablesOk := tablesOk, crystalOk := crystalOk } course)

/-- PIN_START: the RESET pin is released. -/
def execPinStart (tablesOk crystalOk : Bool) (course : StartCourse) (s : State) : Host.Outcome State Fault Refusal :=
  .next (if s.powered then s.start .pin { ramOk := true, tablesOk := tablesOk, crystalOk := crystalOk } course else s)

/-- SOFT_RESET: a write to CONTROL, with SOFT_RESET set it begins a SOFT start (R168, R176). -/
def execSoftReset (value : Half) (tablesOk crystalOk : Bool) (course : StartCourse) (s : State) :
    Host.Outcome State Fault Refusal :=
  .next (if s.powered && value.getLsbD 0 then
    s.start .soft { ramOk := true, tablesOk := tablesOk, crystalOk := crystalOk } course else s)

/-- MAIN_SUPPLY_FAIL: the main domain is lost, and the part presents nothing (R175, 11.6). What the lost state reads as is not
observable but for what a start shows before its step 1, the self-test code OK and shared RAM 0: DESIGN CHOICE, log 6. -/
def execMainSupplyFail (s : State) : Host.Outcome State Fault Refusal :=
  .next (if s.powered then { s.mainLost with powered := false, ram := [], selfTest := .ok } else s)

end Sys2Proof.Machine
end

