-- ==== Sys2Proof/Machine/Window.lean ====
section
/-! DEFINITION. The Window Controller (chapter 11): the registers, the intake of orders, CANCEL, and the orders judged at
intake. -/

namespace Sys2Proof.Machine

open Sys2Proof

/-! ## Intake (R169, R170) -/

/-- The host's posting of an order in a block: kind, priority, parameters, then POSTED with result code 0 (11.3, 12.2). -/
def postingWrites (b : Fin 16) (kind : OrderKind) (prio : Byte) (params : List Byte) : List HostWrite :=
  let at_ := blockAddr b
  ([byteOf kind.code, prio] ++ params).zipIdx.map (fun x => (at_ + 2 + x.2, x.1)) ++
  [(at_, BlockState.posted.code), (at_ + 1, 0)]

/-- An order is held, and its block written TAKEN (R170). -/
def State.hold (s : State) (h : Held) : State :=
  ({ s with held := s.held ++ [h] } : State).setBlockState h.block .taken

/-- An order handed to the Encoder Controller: refused, or held and in its list (R97 to R99, R170). -/
def State.handToEncoder (s : State) (h : Held) (o : Except Result EncOrder) : State :=
  match o with
  | .error res => s.complete h.block res []
  | .ok o => (s.hold { h with owner := .encoder }).joinEncoder o

/-- A LINE_GO handed to its Line Controller: refused, or held and on its course (R144, R170). -/
def State.handToLine (s : State) (h : Held) : State :=
  match s.judgeGo h.params with
  | .error (res, data) => s.complete h.block res data
  | .ok (l, target) => (s.hold { h with owner := .line l }).takeGo h.block l target

/-- An order is handed to its owner (table of R170). -/
def State.handOver (s : State) (h : Held) : State :=
  match h.kind with
  | .issue => s.handToEncoder h (s.issueIntake h)
  | .readCard => s.handToEncoder h (.ok (readOrder h))
  | .eraseCard => s.handToEncoder h (.ok (eraseOrder h))
  | .lineGo => s.handToLine h
  | .siteSetup | .setClock | .zoneSet | .roomSet | .checkout | .revoke | .unrevoke | .minibarSet | .minibarScan | .dropSet
  | .lineSetup | .journalCut | .cancel => s.hold h

/-- The parameters of a block as they stand in shared RAM (12.2). -/
def State.blockParams (s : State) (b : Fin 16) : List Byte := (List.range 40).map fun k => s.byte (blockAddr b + 4 + k)

/-- An intake reads one block: POSTED and not held, its order is taken (R170). -/
def State.takeBlock (s : State) (b : Fin 16) : State :=
  let at_ := blockAddr b
  if s.byte at_ ≠ BlockState.posted.code ∨ (s.heldIn b).isSome then s
  else
    let t : State := { s with intakeNext := s.intakeNext + 1 }
    match OrderKind.ofCode (s.byte (at_ + 2)).toNat with
    | none => t.complete b .unknownOrder []
    | some kind =>
      t.handOver { block := b, kind := kind, priority := min (s.byte (at_ + 3)).toNat 7, intake := s.intakeNext,
                   owner := .engine, params := s.blockParams b }

/-- An intake: the latch is cleared and blocks 0 to 15 are taken; at its end a free table engine takes an order (R170, R171). -/
def State.intake (s : State) : State :=
  let s := allBlocks.foldl State.takeBlock { s with latch := false }
  if s.engine.isNone then s.chooseOrder else s

/-- The attention latch is set: an intake, and a journal search (R160, R170). -/
def State.attend (s : State) : State := s.intake.search

/-- The host writes shared RAM and then the ATTN register: bit 0 sets the latch while READY is set. While the main supply is
absent the host has no bus (R167, R168, 11.6). -/
def State.attentionWrite (s : State) (writes : List HostWrite) (value : Half) : State :=
  if !s.powered then s
  else
    let s := s.hostWrites writes
    if value.getLsbD 0 && s.ready then s.attend else s

/-- ATTENTION_LATCH_SET: a write to ATTN, after the host's writes to shared RAM. -/
def execAttentionLatchSet (writes : List HostWrite) (value : Half) (s : State) : Host.Outcome State Fault Refusal :=
  .next (s.attentionWrite writes value)

/-- ISSUE posted in block `b` (R97). -/
def execIssue (b : Fin 16) (prio : Byte) (params : List Byte) (s : State) : Host.Outcome State Fault Refusal :=
  .next (s.attentionWrite (postingWrites b .issue prio params) 1)

/-- READ_CARD posted in block `b` (R98). -/
def execReadCard (b : Fin 16) (prio : Byte) (params : List Byte) (s : State) : Host.Outcome State Fault Refusal :=
  .next (s.attentionWrite (postingWrites b .readCard prio params) 1)

/-- ERASE_CARD posted in block `b` (R99). -/
def execEraseCard (b : Fin 16) (prio : Byte) (params : List Byte) (s : State) : Host.Outcome State Fault Refusal :=
  .next (s.attentionWrite (postingWrites b .eraseCard prio params) 1)

/-- LINE_GO posted in block `b` (R144). -/
def execLineGo (b : Fin 16) (prio : Byte) (params : List Byte) (s : State) : Host.Outcome State Fault Refusal :=
  .next (s.attentionWrite (postingWrites b .lineGo prio params) 1)

/-! ## Registers (R168) -/

/-- CAUSE_CLEAR: a write to CAUSE clears the bits it sets. -/
def execCauseClear (value : Half) (s : State) : Host.Outcome State Fault Refusal :=
  .next (if s.powered then { s with cause := s.cause &&& ~~~value } else s)

/-- MASK_WRITE: the named bits are written. -/
def execMaskWrite (value : Half) (s : State) : Host.Outcome State Fault Refusal :=
  .next (if s.powered then { s with mask := value &&& causeBits } else s)

/-- START_FLAGS_CLEAR: a write to START clears the flags it sets; the code and READY are not written. -/
def execStartFlagsClear (value : Half) (s : State) : Host.Outcome State Fault Refusal :=
  .next (if s.powered then { s with startFlags := s.startFlags &&& ~~~(value.setWidth 4) } else s)

/-! ## CANCEL (R173) -/

/-- The result data of CANCEL: the named block and what its order was found as (R173, 12.2). -/
def cancelData (named : Nat) (found : Byte) : List Byte := [byteOf named, found]

/-- The result data of a CANCEL of its own block: what its order was found as is not given, a free value (log 10). -/
def State.cancelOwnData (s : State) (b : Fin 16) : List Byte := byteOf b.val :: s.freeBytes 1

/-- CANCEL of an encoder order (R87): 2 waiting, 3 paused, 4 running. -/
def State.cancelEncoder (s : State) (b k : Fin 16) : State :=
  match s.encoder.waiting.find? fun o => decide (o.block = k) with
  | some o => (s.cancelWaiting o).complete b .ok (cancelData k.val (if o.paused then 3 else 2))
  | none => (s.markCancel k).complete b .ok (cancelData k.val 4)

/-- CANCEL served against the held list (R173). An order withdrawn from the engine's list ends CANCELLED with result data 0, which no rule
gives: DESIGN CHOICE, log 48. A block out of range is shown as named, with no held order: DEDUCED, log 11. -/
def State.cancel (h : Held) (s : State) : State :=
  match asFin 16 (leAt h.params 0 1) with
  | none => s.complete h.block .badParam (cancelData (leAt h.params 0 1) 0)
  | some k =>
    if k = h.block then (s.spendFree 1).complete h.block .notCancellable (s.cancelOwnData k)
    else
      match s.heldIn k with
      | none => s.complete h.block .notActive (cancelData k.val 0)
      | some t =>
        match t.owner with
        | .engine => (s.complete k .cancelled []).complete h.block .ok (cancelData k.val 1)
        | .encoder => s.cancelEncoder h.block k
        | .roomTable _ | .minibarUnit _ | .line _ => s.complete h.block .notCancellable (cancelData k.val 5)

/-- CANCEL in block `b`. -/
def execCancel (b : Fin 16) (s : State) : Host.Outcome State Fault Refusal :=
  .next (s.serve b .cancel State.cancel)

end Sys2Proof.Machine
end

