-- ==== Sys2Proof/Machine/Dispatch.lean ====
section
/-! DEFINITION. What each command does: one arm per constructor of Instr, each a call of its meaning. -/

namespace Sys2Proof.Machine

open Sys2Proof

/-- The effect of a command on everything but the queue of commands. -/
def exec (i : Instr) (s : State) : Host.Outcome State Fault Refusal :=
  match i with
  | .siteSetup b => Sys2Proof.Machine.execSiteSetup b s
  | .setClock b => Sys2Proof.Machine.execSetClock b s
  | .zoneSet b => Sys2Proof.Machine.execZoneSet b s
  | .roomSet b => Sys2Proof.Machine.execRoomSet b s
  | .checkout b => Sys2Proof.Machine.execCheckout b s
  | .revoke b => Sys2Proof.Machine.execRevoke b s
  | .unrevoke b => Sys2Proof.Machine.execUnrevoke b s
  | .issue b prio params => Sys2Proof.Machine.execIssue b prio params s
  | .readCard b prio params => Sys2Proof.Machine.execReadCard b prio params s
  | .eraseCard b prio params => Sys2Proof.Machine.execEraseCard b prio params s
  | .minibarSet b => Sys2Proof.Machine.execMinibarSet b s
  | .minibarScan b => Sys2Proof.Machine.execMinibarScan b s
  | .dropSet b => Sys2Proof.Machine.execDropSet b s
  | .lineSetup b => Sys2Proof.Machine.execLineSetup b s
  | .lineGo b prio params => Sys2Proof.Machine.execLineGo b prio params s
  | .journalCut b => Sys2Proof.Machine.execJournalCut b s
  | .cancel b => Sys2Proof.Machine.execCancel b s
  | .attentionLatchSet writes value => Sys2Proof.Machine.execAttentionLatchSet writes value s
  | .causeClear value => Sys2Proof.Machine.execCauseClear value s
  | .maskWrite value => Sys2Proof.Machine.execMaskWrite value s
  | .startFlagsClear value => Sys2Proof.Machine.execStartFlagsClear value s
  | .softReset value tablesOk crystalOk course => Sys2Proof.Machine.execSoftReset value tablesOk crystalOk course s
  | .coldStart tests reach => Sys2Proof.Machine.execColdStart tests reach s
  | .supplyStart ramOk tablesOk crystalOk course => Sys2Proof.Machine.execSupplyStart ramOk tablesOk crystalOk course s
  | .pinStart tablesOk crystalOk course => Sys2Proof.Machine.execPinStart tablesOk crystalOk course s
  | .mainSupplyFail => Sys2Proof.Machine.execMainSupplyFail s
  | .secondsTick => Sys2Proof.Machine.execSecondsTick s
  | .clockEnd => Sys2Proof.Machine.execClockEnd s
  | .departingWaitExpiry room => Sys2Proof.Machine.execDepartingWaitExpiry room s
  | .grantDeadlineExpiry line addr => Sys2Proof.Machine.execGrantDeadlineExpiry line addr s
  | .doorHeld line addr => Sys2Proof.Machine.execDoorHeld line addr s
  | .minibarDeadlineExpiry room => Sys2Proof.Machine.execMinibarDeadlineExpiry room s
  | .scanExpiry room => Sys2Proof.Machine.execScanExpiry room s
  | .cardWaitExpiry => Sys2Proof.Machine.execCardWaitExpiry s
  | .journalWrite => Sys2Proof.Machine.execJournalWrite s
  | .nil line => Sys2Proof.Machine.execNil line s
  | .cardRead line image => Sys2Proof.Machine.execCardRead line image s
  | .doorState line door bolt egress => Sys2Proof.Machine.execDoorState line door bolt egress s
  | .trayData line first count readings => Sys2Proof.Machine.execTrayData line first count readings s
  | .ident line kind fast => Sys2Proof.Machine.execIdent line kind fast s
  | .ack line => Sys2Proof.Machine.execAck line s
  | .badReply line first rest => Sys2Proof.Machine.execBadReply line first rest s
  | .replyWindowExpiry line => Sys2Proof.Machine.execReplyWindowExpiry line s
  | .broadcastWindowEnd line => Sys2Proof.Machine.execBroadcastWindowEnd line s
  | .longBreak line => Sys2Proof.Machine.execLongBreak line s
  | .wakeRequest line millis => Sys2Proof.Machine.execWakeRequest line millis s
  | .faultWatchEnd line => Sys2Proof.Machine.execFaultWatchEnd line s
  | .faultWatchBreak line => Sys2Proof.Machine.execFaultWatchBreak line s
  | .wakeBreakEnd line => Sys2Proof.Machine.execWakeBreakEnd line s
  | .wakeSettleEnd line => Sys2Proof.Machine.execWakeSettleEnd line s
  | .cardState card => Sys2Proof.Machine.execCardState card s
  | .sensePace => Sys2Proof.Machine.execSensePace s
  | .image bytes => Sys2Proof.Machine.execImage bytes s
  | .readFail => Sys2Proof.Machine.execReadFail s
  | .done => Sys2Proof.Machine.execDone s
  | .writeFail => Sys2Proof.Machine.execWriteFail s
  | .encoderBadReply first rest => Sys2Proof.Machine.execEncoderBadReply first rest s
  | .encoderReplyTimeout => Sys2Proof.Machine.execEncoderReplyTimeout s
  | .clockCrystalStop => Sys2Proof.Machine.execClockCrystalStop s

end Sys2Proof.Machine
end

