-- ==== Sys2Proof/Safety.lean ====
section
/-! DEFINITION. What a safe run keeps, in the terms the statements use: the invariants the manual's chapters state of the
tables, and the words for an order that is served, held or ended. -/

namespace Sys2Proof.Machine

open Sys2Proof

/-! ## Orders -/

/-- The table engine has taken the order `h` of block `b` and kind `k`, and serves it (R171). -/
def State.ServesNow (s : State) (b : Fin 16) (k : OrderKind) (h : Held) : Prop :=
  s.ready = true ∧ s.engine = some b ∧ s.heldIn b = some h ∧ h.kind = k

/-- The order of block `b` has ended with a result: the block reads DONE and the code, the order is not held, and ORDER_DONE
is set (R172). -/
def State.Ended (t : State) (b : Fin 16) (res : Result) : Prop :=
  t.byte (64 * b.val) = 4 ∧ t.byte (64 * b.val + 1) = byteOf res.code ∧ t.heldIn b = none ∧
  t.cause.getLsbD 0 = true

/-- A field of `n` bytes of a block's result data, from D`i` on (12.2). -/
def State.resultAt (t : State) (b : Fin 16) (i n : Nat) : Nat := t.field (64 * b.val + 44 + i) n

/-- The order of block `b` is held by `o`. -/
def State.HeldFor (t : State) (b : Fin 16) (o : Owner) : Prop := ∃ h ∈ t.held, h.block = b ∧ h.owner = o

/-- The host can post an order alone in block `b`: the part runs, the block's order is not held, and no other block is
POSTED. -/
def State.CanPost (s : State) (b : Fin 16) : Prop :=
  s.powered = true ∧ s.ready = true ∧ s.heldIn b = none ∧ ∀ k : Fin 16, k ≠ b → s.byte (64 * k.val) ≠ 1

/-- Line `l` runs, no LINE_GO is in progress on it, and `x` is its open exchange, to which nothing of a reply has come. -/
def State.Exchanging (s : State) (l : Fin 2) (x : Exchange) : Prop :=
  s.lines[l].state = .run ∧ s.lines[l].mark = none ∧ s.lines[l].activity = .exchange x ∧ x.received = []

/-- A directed message waits in the queue of line `l`, or is its open exchange. -/
def State.Sends (s : State) (l : Fin 2) (m : QMsg) : Prop :=
  m ∈ s.lines[l].queue ∨ s.lines[l].inExchange = some m

/-- The encoder's open exchange, to which nothing of a reply has come, its stage and running order. -/
def State.Encoding (s : State) (x : EncExchange) (g : Stage) (o : EncOrder) : Prop :=
  s.encoder.exchange = some x ∧ s.encoder.stage = g ∧ s.encoder.running = some o ∧ x.received = []

/-- The encoder sends a message for the order `o`: a first attempt, two left after it (R83). -/
def State.Sending (t : State) (m : EncMsg) (g : Stage) (o : EncOrder) : Prop :=
  t.encoder.exchange = some { msg := m, retries := 2 } ∧ t.encoder.stage = g ∧ t.encoder.running = some o

/-! ## Parts of shared RAM (11.1, 12.2) -/

/-- The bytes a completing order writes in its block: state, result code, result data. -/
def ofResult (b : Fin 16) (x : Nat) : Prop := x = 64 * b.val ∨ x = 64 * b.val + 1 ∨ (64 * b.val + 44 ≤ x ∧ x < 64 * b.val + 64)

/-- The four descriptors. -/
def ofDescriptors (x : Nat) : Prop := 0x400 ≤ x ∧ x < 0x440

/-- The site mirror. -/
def ofSiteMirror (x : Nat) : Prop := 0x440 ≤ x ∧ x < 0x480

/-- The mirror record of a room. -/
def ofRoomMirror (r : Fin 48) (x : Nat) : Prop := 0x480 + 32 * r.val ≤ x ∧ x < 0x480 + 32 * r.val + 32

/-- The mirror byte of a drop. -/
def ofDropMirror (l : Fin 2) (a : Fin 64) (x : Nat) : Prop := x = 0xA80 + 64 * l.val + a.val

/-- Every byte of shared RAM outside a part reads as before. -/
def State.KeepsBytes (s t : State) (part : Nat → Prop) : Prop := ∀ x, ¬ part x → t.byte x = s.byte x

/-- The causes after an event that sets `c`, and JOURNAL when the entries it admits ask for it (R160, R165). -/
def State.CausesAfter (s t : State) (c : Half) : Prop :=
  t.cause = s.cause ||| c ∨ t.cause = s.cause ||| c ||| causeJournal

/-! ## Journal requests (R154, R155) -/

/-- The entry a request would be with a sequence number. -/
def State.entryWith (s : State) (seq : Nat) (q : Request) : Entry :=
  { sequence := seq, minute := s.clock.minute, second := s.clock.second, kind := q.kind, place := q.place,
    room := q.room, reason := q.reason, subject := q.subject, value := q.value }

/-- The holding queue after a request, by R155: a GAP entry first when lost requests are to be told and the queue is below 28;
then the entry, when a ROUTINE one finds the queue below 28 or an ALARM one below 32. -/
def State.queueAfter (s : State) (q : Request) : List Entry :=
  let long := s.journal.queue.length
  let seq := s.journal.sequence
  let limit := if q.kind.isAlarm then 32 else 28
  if 0 < s.journal.gap ∧ long < 28 then
    let gap := s.entryWith seq { kind := .gap, value := s.journal.gap }
    if long + 1 < limit then s.journal.queue ++ [gap, s.entryWith ((seq + 1) % 65536) q]
    else s.journal.queue ++ [gap]
  else if long < limit then s.journal.queue ++ [s.entryWith seq q]
  else s.journal.queue

/-- The gap count after a request (R155). -/
def State.gapAfter (s : State) (q : Request) : Nat :=
  let long := s.journal.queue.length
  let limit := if q.kind.isAlarm then 32 else 28
  if 0 < s.journal.gap ∧ long < 28 then (if long + 1 < limit then 0 else 1)
  else if long < limit then s.journal.gap
  else min (s.journal.gap + 1) 65535

/-- The entries a list of requests becomes, numbered from `seq` on. -/
def State.entriesFrom (s : State) : Nat → List Request → List Entry
  | _, [] => []
  | seq, q :: qs => s.entryWith seq q :: s.entriesFrom ((seq + 1) % 65536) qs

/-- The journal has taken the requests, in order, after what it held (R155, R157). -/
def State.Admits (s t : State) (qs : List Request) : Prop :=
  t.journal.queue = s.journal.queue ++ s.entriesFrom s.journal.sequence qs

/-- The journal has taken one request as R155 says. -/
def State.Asks (s t : State) (q : Request) : Prop := t.journal.queue = s.queueAfter q ∧ t.journal.gap = s.gapAfter q

/-- No gap is to be told, and the holding queue has room for `n` more ROUTINE entries (R155). -/
def State.HasRoom (s : State) (n : Nat) : Prop := s.journal.gap = 0 ∧ s.journal.queue.length + n ≤ 28

/-! ## The search for a descriptor (R160, R165) -/

/-- A descriptor's place in shared RAM (11.1). -/
def descriptorPlace (k : Fin 4) : Nat := 0x400 + 16 * k.val

/-- The descriptor a search looks at as its `i`-th, from 0: those after the cursor in cyclic order, the cursor's own last (R160). -/
def State.turn (s : State) (i : Fin 4) : Fin 4 := s.journal.cursor + 1 + i

/-- The descriptor is ARMED (10.3). -/
def State.armed (s : State) (k : Fin 4) : Bool := decide (s.byte (descriptorPlace k) = 1)

/-- The capacity a descriptor shows (12.3). -/
def State.capacityAt (s : State) (k : Fin 4) : Nat := s.field (descriptorPlace k + 2) 2

/-- The buffer offset a descriptor shows (12.3). -/
def State.offsetAt (s : State) (k : Fin 4) : Nat := s.field (descriptorPlace k + 4) 2

/-- The bounds a descriptor shows are good: capacity 1 to 1,792; offset a multiple of 16, from 0x1000 to 0x7FF0; the buffer ends within shared
RAM (R160). -/
def State.boundsGood (s : State) (k : Fin 4) : Bool :=
  decide (1 ≤ s.capacityAt k ∧ s.capacityAt k ≤ 1792 ∧ s.offsetAt k % 16 = 0 ∧ 0x1000 ≤ s.offsetAt k ∧ s.offsetAt k ≤ 0x7FF0 ∧
    s.offsetAt k + 16 * s.capacityAt k ≤ 0x8000)

/-- The search's `i`-th descriptor is ARMED with good bounds. -/
def State.usable (s : State) (i : Fin 4) : Bool := s.armed (s.turn i) && s.boundsGood (s.turn i)

/-- The search's `i`-th descriptor is ARMED with bad bounds. -/
def State.unusable (s : State) (i : Fin 4) : Bool := s.armed (s.turn i) && !s.boundsGood (s.turn i)

/-- The search takes up its `i`-th descriptor: the first usable one (R160). -/
def State.takesUp (s : State) (i : Fin 4) : Prop := s.usable i = true ∧ ∀ j, j < i → s.usable j = false

/-- The state byte of the search's `j`-th descriptor after the search has passed it: BAD for one with bad bounds (R160). -/
def State.passedState (s : State) (j : Fin 4) : Byte :=
  if s.unusable j then 4 else s.byte (descriptorPlace (s.turn j))

/-- A search from `s` has left `t` (R160). The first usable descriptor is the cursor's and FILLING, its written count, end status and end minute
0; the unusable ones passed over are BAD, and those after it stand. With no usable one the cursor stays, nothing is FILLING, and every
unusable one is BAD. -/
def State.LooksFor (s t : State) : Prop :=
  (∀ i : Fin 4, s.takesUp i →
    let k := s.turn i
    t.journal.cursor = k ∧
    t.journal.filling = some { index := k, cutOnAlarm := (s.byte (descriptorPlace k + 1)).getLsbD 0, capacity := s.capacityAt k
                               offset := s.offsetAt k, written := 0, firstSeq := 0, lastSeq := 0 } ∧
    t.byte (descriptorPlace k) = 2 ∧ t.field (descriptorPlace k + 6) 2 = 0 ∧ t.field (descriptorPlace k + 12) 4 = 0 ∧
    (∀ j, j < i → t.byte (descriptorPlace (s.turn j)) = s.passedState j) ∧
    ∀ j, i < j → t.byte (descriptorPlace (s.turn j)) = s.byte (descriptorPlace (s.turn j))) ∧
  ((∀ i : Fin 4, s.usable i = false) →
    t.journal.cursor = s.journal.cursor ∧ t.journal.filling = none ∧
    ∀ j : Fin 4, t.byte (descriptorPlace (s.turn j)) = s.passedState j)

/-- From `s`, where nothing is FILLING, to `t`, where an entry is queued, one search has been made (R160): the fields no search writes stand in
each descriptor. JOURNAL is set, if it was not, for an unusable descriptor passed over, or as the no-room signal when the queue has come to
16 entries with nothing FILLING (R165). -/
def State.Searches (s t : State) : Prop :=
  s.LooksFor t ∧
  (∀ (k : Fin 4) (j : Fin 16), (1 ≤ j.val ∧ j.val ≤ 5) ∨ (8 ≤ j.val ∧ j.val ≤ 11) →
    t.byte (descriptorPlace k + j.val) = s.byte (descriptorPlace k + j.val)) ∧
  (t.cause.getLsbD 1 = true ↔
    s.cause.getLsbD 1 = true ∨ (∃ i : Fin 4, s.unusable i = true ∧ ∀ j, j < i → s.usable j = false) ∨
      (t.journal.filling = none ∧ s.journal.queue.length < 16 ∧ 16 ≤ t.journal.queue.length))

/-- No search has been made from `s` to `t`: descriptors, cursor and JOURNAL are as they were (R160, R165). -/
def State.NoSearch (s t : State) : Prop :=
  t.journal.filling = s.journal.filling ∧ t.journal.cursor = s.journal.cursor ∧ t.cause.getLsbD 1 = s.cause.getLsbD 1 ∧
  ∀ x, ofDescriptors x → t.byte x = s.byte x

/-! ## Orders that complete -/

/-- The order of block `b` completes, alone: it ends, leaves the held list, and sets ORDER_DONE (R172). -/
def State.Completes (s t : State) (b : Fin 16) (res : Result) : Prop :=
  t.Ended b res ∧ t.held = s.held.filter (fun h => decide (h.block ≠ b)) ∧ s.CausesAfter t causeOrderDone

/-- A table order of block `b` is refused and changes nothing but its own block, the held list and ORDER_DONE; the engine takes the
next order, if one waits (R171). -/
def State.Refuses (s t : State) (b : Fin 16) (res : Result) : Prop :=
  t.Ended b res ∧ s.KeepsBytes t (ofResult b) ∧ t.engine = t.engineChoice.map Held.block ∧
  t = { s with
    ram := t.ram, held := s.held.filter fun h => decide (h.block ≠ b), engine := t.engine, cause := s.cause ||| causeOrderDone }

/-! ## Invariants -/

/-- A FILLING descriptor's own copy: bounds good, and room for the next entry (R160 to R162). -/
def Filling.Good (f : Filling) : Prop :=
  1 ≤ f.capacity ∧ 0x1000 ≤ f.offset ∧ f.offset + 16 * f.capacity ≤ 0x8000 ∧ f.written < f.capacity

/-- Shared RAM is in its canonical form, and the FILLING descriptor lends good room. -/
def State.MemoryInv (s : State) : Prop := s.ram.wf = true ∧ ∀ f, s.journal.filling = some f → f.Good

/-- The journal's bounds (R155, R157); a FILLING descriptor with nothing written has an entry waiting for it (R160, R161). -/
def State.JournalInv (s : State) : Prop :=
  s.journal.queue.length ≤ 32 ∧ (s.journal.queue.filter fun e => !e.kind.isAlarm).length ≤ 28 ∧
  s.journal.gap ≤ 65535 ∧ s.journal.sequence < 65536 ∧
  ∀ f, s.journal.filling = some f → f.written = 0 → s.journal.queue ≠ []

/-- A part that is READY has had its mirrors written, which its start does before it sets READY, and none stands without the main supply (R174,
R175, R177). -/
def State.StartInv (s : State) : Prop := (s.ready = true → s.mirrorsStand = true) ∧ (s.mirrorsStand = true → s.powered = true)

/-- The clock's ranges (R4, R5). -/
def State.ClockInv (s : State) : Prop :=
  s.clock.second < 60 ∧ s.clock.minute ≤ 16777215 ∧ (s.clock.state = .running → s.clock.minute < 16777215) ∧
  (s.clock.state = .ended → s.clock.minute = 16777215)

/-- Two rooms never share a label; a room in none of OCCUPIED and OVERSTAY has an empty issued mask (R17, R18). -/
def State.RoomInv (s : State) : Prop :=
  (∀ r k : Fin 48, r ≠ k → s.rooms[r].label = s.rooms[k].label → s.rooms[r].label = 0) ∧
  ∀ r : Fin 48, s.rooms[r].state.inStay = false → s.rooms[r].issued = 0

/-- Two entries of the Revocation List name different rooms, or different serials (R69). -/
def RevEntry.Differ : RevEntry → RevEntry → Prop
  | .guest r _ _, .guest k _ _ => r ≠ k
  | .staff n _, .staff m _ => n ≠ m
  | _, _ => True

/-- An entry's own law: a GUEST entry carries its room's generation and a non-empty set of issued copies of a stay; a STAFF
entry a serial 1..0xFFFFFFFE and a minute (R69, R72). -/
def State.RevLaw (s : State) : RevEntry → Prop
  | .guest r g copies =>
    g = s.rooms[r].generation ∧ copies ≠ 0 ∧ copies &&& ~~~s.rooms[r].issued = 0 ∧ s.rooms[r].state.inStay = true
  | .staff n u => 1 ≤ n ∧ n ≤ 0xFFFFFFFE ∧ u ≤ 16777215

/-- The laws of the Revocation List (R69, R72). -/
def State.RevInv (s : State) : Prop :=
  s.revs.length ≤ 64 ∧ s.revs.Pairwise RevEntry.Differ ∧ ∀ e ∈ s.revs, s.RevLaw e

/-- The bounds of R116 and R119: charges and limit within 0..999,999, taken and base within 0..stock. -/
def Minibar.Bounded (m : Minibar) : Prop :=
  m.charge ≤ 999999 ∧ m.carried ≤ 999999 ∧ m.limit ≤ 999999 ∧
  ∀ t : Fin 8, m.trays[t].taken ≤ m.trays[t].stock ∧ m.trays[t].base ≤ m.trays[t].stock

/-- The sum R116 forms: the carried charge and, for each tray below the tray count, its price times the items gone since the stay
began. -/
def Minibar.sumOwed (m : Minibar) : Nat :=
  m.carried + ((List.finRange 8).map fun i : Fin 8 =>
    if i.val < m.trayCount then m.trays[i].price * (m.trays[i].taken - m.trays[i].base) else 0).sum

/-- A good reading of a based tray shows more items gone than its stock (R115): the baseline less the reading, in units, halves upward. -/
def Tray.exceeds (y : Tray) (reading : Nat) : Prop :=
  y.baseline ≠ 0 ∧ reading ≠ 0 ∧ reading ≠ 4095 ∧ reading < y.baseline ∧ y.stock < (2 * (y.baseline - reading) + y.unit) / (2 * y.unit)

/-- The two flags of a minibar as 12.2 shows them: bit 0 CHARGE_SATURATED, bit 1 OVER_STOCK. -/
def Minibar.flagByte (m : Minibar) : Nat := (if m.saturated then 1 else 0) + (if m.overStock then 2 else 0)

/-- Every minibar is within its bounds. -/
def State.MinibarInv (s : State) : Prop := ∀ r : Fin 48, s.minibars[r].Bounded

/-- A binding of a DOOR or GATE drop. -/
def Binding.hasDoor : Binding → Bool
  | .door _ | .gate _ => true
  | .minibar _ => false

/-- Bindings (R47, R134): address 0 is bound to nothing; each room is bound to at most one DOOR and one MINIBAR drop over both
lines; a door-side record exists exactly for a DOOR or GATE drop. -/
def State.BindingInv (s : State) : Prop :=
  (∀ l : Fin 2, (s.drop l 0).binding = none) ∧
  (∀ (l k : Fin 2) (a c : Fin 64) (b : Binding), b.shownRoom.isSome = true → (s.drop l a).binding = some b →
    (s.drop k c).binding = some b → l = k ∧ a = c) ∧
  ∀ (l : Fin 2) (a : Fin 64),
    (s.drop l a).door.isSome = true ↔ ∃ b, (s.drop l a).binding = some b ∧ b.hasDoor = true

/-- The directed queue of a line (8.6, R139, R142): messages wait in RUN alone; at most 16 places are used; a drop has at most one
waiting message, and no owed mark beside it; no OPEN and no DENY is ever owed. -/
def Line.QueueLaw (x : Line) : Prop :=
  (x.state ≠ .run → x.queue = []) ∧ x.places ≤ 16 ∧ (x.queue.map QMsg.addr).Nodup ∧
  (∀ m ∈ x.queue, x.drops[m.addr].owed = none) ∧
  ∀ (a : Fin 64) (o : Owed), x.drops[a].owed = some o → (∀ n, o.msg ≠ .openLock n) ∧ ∀ n, o.msg ≠ .deny n

/-- What a line does fits its state (R138, R145 to R147, R152): exchanges in RUN, and probes in SURVEY; the window of RATE in SURVEY and that of
QUIET in RUN; the two parts of a wake in WAKE; the watch in FAULT. -/
def Line.ActivityLaw (x : Line) : Prop :=
  match x.activity with
  | .idle => True
  | .exchange e => x.state = .run ∨ x.state = .survey ∧ e.msg = .identify
  | .rateWindow _ _ _ => x.state = .survey
  | .quietWindow => x.state = .run
  | .wakeBreak | .wakeSettle => x.state = .wake
  | .watch => x.state = .fault

/-- A LINE_GO in progress on a running line is one to OFF or HUSH, and the line still has something open (R145). -/
def Line.GoLaw (x : Line) : Prop :=
  ∀ m, x.state = .run → x.mark = some m → x.activity ≠ .idle ∧ (m.target = .off ∨ m.target = .hush)

/-- The laws of both lines. -/
def State.LineInv (s : State) : Prop :=
  ∀ l : Fin 2, s.lines[l].QueueLaw ∧ s.lines[l].ActivityLaw ∧ s.lines[l].GoLaw

/-- A minibar within reach has its drop PRESENT on a line in RUN (R103, R104). -/
def State.ReachInv (s : State) : Prop :=
  ∀ r : Fin 48, s.minibars[r].state ≠ .offline → ∃ (l : Fin 2) (a : Fin 64),
    (s.drop l a).binding = some (.minibar r) ∧ (s.drop l a).presence = .present ∧ s.lines[l].state = .run

/-- The held list has at most one entry for a block (R169). -/
def State.HeldInv (s : State) : Prop := (s.held.map Held.block).Nodup

/-- Each owner of an order has it held (R169, R171): the table engine has taken one of the orders that
wait for it while any waits; the orders of the encoder are held for it, one for a block; a LINE_GO in progress is held for its line. -/
def State.OwnerInv (s : State) : Prop :=
  s.HeldInv ∧ (∀ h ∈ s.held, h.owner = .engine → s.engine.isSome = true) ∧
  (∀ b, s.engine = some b → s.HeldFor b .engine) ∧
  (∀ o ∈ s.encoder.running.toList ++ s.encoder.waiting, s.HeldFor o.block .encoder) ∧
  ((s.encoder.running.toList ++ s.encoder.waiting).map EncOrder.block).Nodup ∧
  ∀ (l : Fin 2) (m : GoMark), s.lines[l].mark = some m → s.HeldFor m.block (.line l)

/-- Paused encoder orders (R86): each has a priority below that of the running order, and no two share a priority. -/
def State.EncoderInv (s : State) : Prop :=
  (∀ o ∈ s.encoder.waiting, o.paused = true → ∀ r, s.encoder.running = some r → o.priority < r.priority) ∧
  (s.encoder.waiting.filter EncOrder.paused).Pairwise fun o p => o.priority ≠ p.priority

/-! ## Decisions on a read (R51 to R57) -/

/-- The room a card names is in a stay that covers the card: the first of generation, copy and state that fails (R52, R53). -/
def Room.refuses (x : Room) (c : List Byte) : Option Deny :=
  if cardGeneration c ≠ x.generation then some .generationOld
  else if copyIn x.issued (cardCopy c) = false then some .notIssued
  else if x.state ≠ .occupied then some .roomState
  else none

/-- The tests of a good card's class (R52 to R57), in the order of their tables, at a drop of binding `b` whose bolt field reads `bolt`:
the first that fails, if any. -/
def State.classRefuses (s : State) (b : Binding) (bolt : Bolt) (c : List Byte) : Option Deny :=
  let full : Option Deny := if 28 ≤ s.journal.queue.length then some .journalFull else none
  match cardClass c, b with
  | 1, .door r =>
    if cardRoom c ≠ r.val ∨ s.rooms[r].state = .unused then some .wrongRoom
    else (s.rooms[r].refuses c).or (if bolt = .engaged then some .deadbolt else none)
  | 1, .gate z =>
    if h : cardRoom c < 48 then
      if s.rooms[cardRoom c].state = .unused then some .wrongRoom
      else (s.rooms[cardRoom c].refuses c).or
        (if (cardZones c).getLsbD z.val = false then some .noZone
         else if s.zones[z].isOpen s.clock = false then some .zoneClosed else none)
    else some .wrongRoom
  | 2, .door _ => if bolt = .engaged ∧ (cardRights c).getLsbD 1 = false then some .deadbolt else full
  | 3, .door r =>
    if s.rooms[r].state ≠ .vacant ∧ s.rooms[r].state ≠ .outOfService then some .roomState
    else if bolt = .engaged then some .deadbolt else full
  | 2, .gate z | 3, .gate z => if (cardZones c).getLsbD z.val = false then some .noZone else full
  | _, _ => none

/-- The decision on a read at a bound drop that is PRESENT (R51): the verdict's reason, else that of the class. -/
def State.decides (s : State) (b : Binding) (bolt : Bolt) (c : List Byte) : Option Deny :=
  (evaluate s.site s.clock s.revs c).or (s.classRefuses b bolt c)

/-- The decision on a read at a PRESENT minibar drop (R105 to R107). -/
def State.minibarDecides (s : State) (r : Fin 48) (c : List Byte) : Option Deny :=
  let room := s.rooms[r]
  let m := s.minibars[r]
  (evaluate s.site s.clock s.revs c).or <|
    match cardClass c with
    | 1 =>
      if (cardRights c).getLsbD 0 = false then some .noRight
      else if cardRoom c ≠ r.val ∨ room.state = .unused then some .wrongRoom
      else (room.refuses c).or
        (if m.limit ≤ m.charge then some .limitReached else if m.state ≠ .locked then some .minibarBusy else none)
    | 3 =>
      if (cardRights c).getLsbD 2 = false then some .noRight
      else if room.state = .unused then some .roomState
      else if m.state ≠ .locked then some .minibarBusy
      else if 28 ≤ s.journal.queue.length then some .journalFull else none
    | _ => some .classNotAllowed

/-- A drop of a line in RUN takes a new OPEN or DENY (R139): no message of another kind waits for it or is owed, and a message of its
own waits there, which the new one replaces, or the queue has a free place. -/
def State.takesMessage (s : State) (l : Fin 2) (a : Fin 64) : Prop :=
  (∀ m ∈ s.lines[l].queue, m.addr = a → m.msg.isOpenOrDeny = true) ∧ (s.drop l a).owed = none ∧
  ((∃ m ∈ s.lines[l].queue, m.addr = a) ∨ s.lines[l].queue.length < 16)

/-- A drop of a line in RUN takes no new OPEN or DENY: a message of another kind waits for it or is owed, or nothing waits for it and the
queue is full (R139). -/
def State.refusesMessage (s : State) (l : Fin 2) (a : Fin 64) : Prop :=
  (∃ m ∈ s.lines[l].queue, m.addr = a ∧ (∀ n, m.msg ≠ .openLock n) ∧ ∀ n, m.msg ≠ .deny n) ∨ (s.drop l a).owed.isSome = true ∨
  ((∀ m ∈ s.lines[l].queue, m.addr ≠ a) ∧ 16 ≤ s.lines[l].queue.length)

/-- The room index an entry of a read shows (R59). -/
def entryRoom (b : Binding) (c : List Byte) : Nat :=
  match b with
  | .door r | .minibar r => r.val
  | .gate _ => if cardRoom c < 48 then cardRoom c else 255

/-- The line answers a POLL of the drop at `a`, PRESENT, with the binding `b` and the door-side record `d`. -/
def State.Polling (s : State) (l : Fin 2) (a : Fin 64) (b : Binding) (d : DoorSide) : Prop :=
  (∃ n, s.Exchanging l { addr := a, msg := .poll, retries := n }) ∧ (s.drop l a).presence = .present ∧
  (s.drop l a).binding = some b ∧ (s.drop l a).door = some d

/-! ## A minibar that is LOCKED or goes out of reach (R104, R110, R117, R120) -/

/-- The record in a state with nothing in progress: no opener, deadline, opening or scan, both marks clear. -/
def Minibar.cleared (m : Minibar) (st : MinibarState) : Minibar :=
  { m with
    state := st, opener := none, deadline := none, onClose := none, purpose := none, finalMark := false
    latchMark := false, requested := 0, collected := Vector.replicate 8 none, scanCount := 0 }

/-- The record after its stay-start mark, if set, is applied (R120): nothing carried, each tray's base its taken, charge 0, both flags and the
mark clear. -/
def Minibar.marked (m : Minibar) : Minibar :=
  if m.stayMark then
    { m with
      carried := 0, charge := 0, saturated := false, overStock := false, stayMark := false
      trays := m.trays.map fun y : Tray => { y with base := y.taken } }
  else m

/-- The record out of reach (R104, R120). -/
def Minibar.gone (m : Minibar) : Minibar := ({ m.cleared .offline with pending := none } : Minibar).marked

/-- The requested trays that have no reading, as a set (R114). -/
def Minibar.unread (m : Minibar) : Nat :=
  ((List.finRange 8).map fun i : Fin 8 => if m.requested.getLsbD i.val = true ∧ m.collected[i] = none then 2 ^ i.val else 0).sum

/-- The Room Table waits for a final scan that this minibar's loss ends unscanned (R104). -/
def Minibar.owesReport (m : Minibar) : Bool :=
  match m.state with
  | .granted => m.finalMark
  | .opened => decide (m.onClose = some .final) || m.finalMark
  | .scanning => decide (m.purpose = some .final) || m.finalMark
  | .offline | .locked => false

/-- The record of a room closed unscanned (R28, R29, R30). -/
def Room.unscannedClose (y : Room) : Room := { y with state := .vacant, unscanned := true, wait := 0 }

/-- The entry of a grant whose OPEN left the line without an ACK: cause 2 failed, 3 discarded (R63, R110). -/
def Grant.lostEntry (g : Grant) (place cause : Nat) : Request :=
  { kind := .grantUndelivered, place := place, room := g.room, reason := g.cls.code, subject := g.serial, value := cause }

/-- The entries of minibar `r`, whose record is `m`, as it goes out of reach (R104): GRANT_UNDELIVERED with cause 3 for a pending grant, MINIBAR_FAULT
with reason 3 for a scan; then, with the report that closes a DEPARTING room, FINAL_CHARGE and ROOM_STATE (R29, R30). -/
def State.lossEntries (s : State) (r : Fin 48) (m : Minibar) (place : Nat) : List Request :=
  (match m.state with
    | .granted => m.pending.toList.map fun g => g.lostEntry place 3
    | .scanning => [{ kind := .minibarFault, place := place, room := r.val, reason := 3, subject := m.charge, value := m.unread }]
    | .offline | .locked | .opened => []) ++
  if m.owesReport = true ∧ s.rooms[r].state = .departing then
    [{ kind := .finalCharge, room := r.val, subject := m.gone.charge, value := 1 },
     { kind := .roomState, room := r.val, reason := 1, subject := s.rooms[r].generation, value := 1 * 256 + 4 }]
  else []

/-- Minibar `r`, whose record was `m`, has gone out of reach (R104): its record; its room, closed unscanned where the report of a final scan ends a
DEPARTING; the orders that end with it, MINIBAR_SCAN with DROP_OFFLINE and the missing trays, CHECKOUT with OK (R30). -/
def State.OutOfReach (s t : State) (r : Fin 48) (m : Minibar) : Prop :=
  let closes : Prop := m.owesReport = true ∧ s.rooms[r].state = .departing
  t.minibars[r] = m.gone ∧ (closes → t.rooms[r] = s.rooms[r].unscannedClose) ∧ (¬ closes → t.rooms[r] = s.rooms[r]) ∧
  (s.OwnerInv →
    (∀ h, m.state = .scanning → m.purpose = some .host → s.heldBy (.minibarUnit r) = some h →
      t.Ended h.block .dropOffline ∧ t.resultAt h.block 0 1 = 0 ∧ t.resultAt h.block 1 1 = m.unread) ∧
    ∀ h, closes → s.heldBy (.roomTable r) = some h →
      t.Ended h.block .ok ∧ t.resultAt h.block 1 1 = 1 ∧ t.resultAt h.block 4 4 = m.gone.charge % 4294967296)

/-! ## The directed queue of a line (8.6) -/

/-- The messages that stand in a line's queue: the one in exchange first, then the waiting ones, oldest first (8.6). -/
def Line.standing (x : Line) : List QMsg := x.inExchange.toList ++ x.queue

/-- The waiting messages after `m` is queued (R139): `m` in the place of the drop's waiting message, or at the end. -/
def Line.queueWith (x : Line) (m : QMsg) : List QMsg :=
  if ∃ q ∈ x.queue, q.addr = m.addr then x.queue.map fun q => if q.addr = m.addr then m else q else x.queue ++ [m]

/-- The owed marks of a line as messages, lowest address first (R140). -/
def Line.owedMessages (x : Line) : List QMsg :=
  allAddrs.filterMap fun a => x.drops[a].owed.map fun o => { addr := a, msg := o.msg, asker := o.asker }

/-- With no directed message open on line `l` of `s`, its owed marks have been placed in `t` at the end of its queue, lowest address first, until the
queue was full or none was left, and cleared (R140). -/
def State.PlacesOwed (s t : State) (l : Fin 2) : Prop :=
  let x := s.lines[l]
  let placed := x.owedMessages.take (16 - x.queue.length)
  t.lines[l].standing = x.queue ++ placed ∧
  ∀ a : Fin 64, (t.drop l a).owed = if ∃ q ∈ placed, q.addr = a then none else (s.drop l a).owed

/-- A newer OPEN to the drop waits (R140). -/
def Line.newerOpen (x : Line) (a : Fin 64) : Prop := ∃ q ∈ x.queue, q.addr = a ∧ q.msg.isOpen = true

/-! ## A queue disposed of (R142) -/

/-- An OPEN to the drop that a block asked for stands in the line's queue. -/
def Line.opens (x : Line) (a : Fin 64) (asker : Asker) : Bool :=
  x.standing.any fun q => decide (q.addr = a ∧ q.asker = asker) && q.msg.isOpen

/-- The owed mark of a drop after the disposal (R142): that of a waiting HOLD or LATCH; else the mark that stood, newer than the message in
exchange; else that of a HOLD or LATCH in exchange. -/
def State.owedLeft (s : State) (l : Fin 2) (a : Fin 64) : Option Owed :=
  let x := s.lines[l]
  let kept (q : QMsg) : Bool := decide (q.addr = a ∧ (q.msg = .hold ∨ q.msg = .latch))
  let mark (q : QMsg) : Owed := { msg := q.msg, asker := q.asker }
  ((x.queue.find? kept).map mark).or ((s.drop l a).owed.or ((x.inExchange.filter kept).map mark))

/-- The pending grant of the block that asked for a message to a drop (4.1, 7.1). -/
def State.grantOf (s : State) (l : Fin 2) (q : QMsg) : Option Grant :=
  match q.asker, (s.drop l q.addr).binding with
  | .doorUnit, _ => (s.drop l q.addr).door.bind DoorSide.pending
  | .minibarUnit, some (.minibar r) => s.minibars[r].pending
  | _, _ => none

/-- The entries of the OPENs a disposal discards, that in exchange first (R63, R110, R142): GRANT_UNDELIVERED with cause 3, one for each pending
grant. -/
def State.discarded (s : State) (l : Fin 2) : List Request :=
  let x := s.lines[l]
  let again (q : QMsg) : Bool := x.inExchange.any fun e => decide (e.addr = q.addr ∧ e.asker = q.asker) && e.msg.isOpen
  ((x.inExchange.toList ++ x.queue.filter fun q => !again q).filter fun q => q.msg.isOpen).filterMap fun q =>
    (s.grantOf l q).map fun g => g.lostEntry (128 * l.val + q.addr.val) 3

/-- A door-side record whose OPEN was lost: no grant pending, and GRANTED with no deadline is LATCHED again (R63). -/
def DoorSide.withoutGrant (d : DoorSide) : DoorSide :=
  if d.pending.isSome then
    { d with pending := none, latch := if d.latch = .granted ∧ d.deadline = none then .latched else d.latch }
  else d

/-- A door-side record whose drop is not PRESENT: leaf, bolt and latch UNKNOWN, no deadline, no held timer, no alarm; a pending grant stays (R48). -/
def DoorSide.unseen (d : DoorSide) : DoorSide :=
  { d with leaf := .unknown, bolt := .unknown, latch := .unknown, deadline := none, timer := false, heldCount := 0, alarm := false }

/-- The door-side record of a drop after its line's queue is disposed of (R63, R142). -/
def State.doorLeft (s : State) (l : Fin 2) (a : Fin 64) : Option DoorSide :=
  if s.lines[l].opens a .doorUnit then (s.drop l a).door.map DoorSide.withoutGrant else (s.drop l a).door

/-- The record of a minibar whose OPEN was lost: no grant pending, and GRANTED with no deadline is LOCKED (R110, R120). -/
def Minibar.withoutGrant (m : Minibar) : Minibar :=
  if m.pending.isSome then
    let n : Minibar := { m with pending := none }
    if m.state = .granted ∧ m.deadline = none then (n.cleared .locked).marked else n
  else m

/-- The record of the minibar bound at an address after its line's queue is disposed of (R110, R142). -/
def State.minibarLeft (s : State) (l : Fin 2) (a : Fin 64) (r : Fin 48) : Minibar :=
  if s.lines[l].opens a .minibarUnit then s.minibars[r].withoutGrant else s.minibars[r]

/-- The entries of a line that leaves RUN: those of the OPENs discarded, then those of its minibars by rising address (R104, R142). The two orders
are the model's choice (logs 22, 44). -/
def State.leavingEntries (s : State) (l : Fin 2) : List Request :=
  s.discarded l ++ allAddrs.flatMap fun a =>
    match (s.drop l a).binding with
    | some (.minibar r) => s.lossEntries r (s.minibarLeft l a r) (128 * l.val + a.val)
    | _ => []

/-- Line `l` has left RUN, or another state, for HUSH, OFF or FAULT (R104, R142): nothing waits, no report is held, every HOLD and LATCH that
stood in the queue is owed, its minibars are out of reach and no other minibar has changed. The journal has taken the entries of all that, then
`rest`. -/
def State.LeavesRun (s t : State) (l : Fin 2) (rest : List Request) : Prop :=
  t.lines[l].standing = [] ∧ t.lines[l].returning = none ∧ t.lines[l].setup = s.lines[l].setup ∧
  (∀ a : Fin 64, (t.drop l a).owed = s.owedLeft l a) ∧
  (s.BindingInv → s.ReachInv →
    (∀ (a : Fin 64) (r : Fin 48), (s.drop l a).binding = some (.minibar r) →
      (s.minibars[r].state ≠ .offline → s.OutOfReach t r (s.minibarLeft l a r)) ∧
      (s.minibars[r].state = .offline → t.minibars[r] = s.minibarLeft l a r ∧ t.rooms[r] = s.rooms[r])) ∧
    (∀ r : Fin 48, (∀ a : Fin 64, (s.drop l a).binding ≠ some (.minibar r)) →
      t.minibars[r] = s.minibars[r] ∧ t.rooms[r] = s.rooms[r]) ∧
    (s.HasRoom ((s.leavingEntries l ++ rest).length) → s.Admits t (s.leavingEntries l ++ rest)))

/-- Line `l` has entered OFF (R145): at the base rate with no LINE_GO in progress, its queue disposed of, every drop ABSENT with miss count 0, no
reported kind and the fast-capable flag clear, its binding and open time kept, and the door-side record of one that was not ABSENT unseen. -/
def State.EntersOff (s t : State) (l : Fin 2) (rest : List Request) : Prop :=
  let y := t.lines[l]
  y.state = .off ∧ y.mark = none ∧ y.rate = 9600 ∧ y.divisor = 95 ∧ y.activity = .idle ∧ s.LeavesRun t l rest ∧
  (∀ a : Fin 64, a ≠ 0 →
    (t.drop l a).presence = .absent ∧ (t.drop l a).miss = 0 ∧ (t.drop l a).reported = none ∧ (t.drop l a).fast = false ∧
    (t.drop l a).binding = (s.drop l a).binding ∧ (t.drop l a).openTime = (s.drop l a).openTime ∧
    ∀ r, (s.drop l a).binding = some (.minibar r) → (s.drop l a).presence ≠ .absent → t.minibars[r].state = .offline) ∧
  (s.BindingInv → ∀ a : Fin 64, a ≠ 0 →
    (t.drop l a).door = if (s.drop l a).presence = .absent then s.doorLeft l a else (s.doorLeft l a).map DoorSide.unseen)

/-- The LINE_STATE or LINE_FAULT entry of a change of line state (R143). -/
def lineRequest (l : Fin 2) (new left : LineState) (reason rate : Nat) : Request :=
  { kind := if new = .fault then .lineFault else .lineState, place := 128 * l.val, reason := reason, subject := rate
    value := new.code * 256 + left.code }

/-! ## Frames -/

/-- The state without what an event of a door line can reach (chapters 8 and 9): its lines, the minibars and rooms, the deny
pairs, the journal, the held orders, the causes and shared RAM. -/
def State.beyondLines (s : State) : State :=
  { s with
    ram := [], siteCount := 0, roomCounts := Vector.replicate 48 0, cause := 0, held := [], journal := Journal.cold
    rooms := Vector.replicate 48 Room.cold, lastDeny := Vector.replicate 48 none
    minibars := Vector.replicate 48 Minibar.cold, lines := Vector.replicate 2 Line.cold }

/-- The state without what an event of the encoder port can reach (chapter 6): the encoder, the rooms, the serial counter, the
Revocation List, the minibars, the journal, the held orders, the causes and shared RAM. -/
def State.beyondEncoder (s : State) : State :=
  { s with
    ram := [], siteCount := 0, roomCounts := Vector.replicate 48 0, cause := 0, held := [], journal := Journal.cold
    rooms := Vector.replicate 48 Room.cold, serial := 0, revs := [], minibars := Vector.replicate 48 Minibar.cold
    encoder := Encoder.cold }

/-- The state without what every table order writes: its block, the mirrors and descriptors in shared RAM, the causes, the held
list, the order the engine has taken, and the journal. -/
def State.records (s : State) : State :=
  { s with
    ram := [], siteCount := 0, roomCounts := Vector.replicate 48 0, cause := 0, held := [], engine := none
    journal := Journal.cold }

/-- The state without what a second can reach: the clock, and what the receivers of the ticks hold and write (R6). -/
def State.beyondTime (s : State) : State :=
  { s.beyondLines with clock := Clock.cold, revs := [], encoder := Encoder.cold }

/-- The command that brings a reply on a line (12.5). -/
def Reply.row (l : Fin 2) : Reply → Instr
  | .nil => .nil l
  | .cardRead image => .cardRead l image
  | .doorState door bolt egress => .doorState l door bolt egress
  | .trayData first count readings => .trayData l first count readings
  | .ident kind fast => .ident l kind fast
  | .ack => .ack l

/-- The command that brings an answer of the encoder (12.5). -/
def EncAnswer.row : EncAnswer → Instr
  | .cardState card => .cardState card
  | .image bytes => .image bytes
  | .readFail => .readFail
  | .done => .done
  | .writeFail => .writeFail

/-- The command is a start (R176). -/
def startsPart : Instr → Bool
  | .softReset _ _ _ _ | .coldStart _ _ | .supplyStart _ _ _ _ | .pinStart _ _ _ => true
  | _ => false

/-- The command is an event of a door line (chapters 8 and 9). -/
def ofDoorLine : Instr → Bool
  | .nil _ | .cardRead _ _ | .doorState _ _ _ _ | .trayData _ _ _ _ | .ident _ _ _ | .ack _ | .badReply _ _ _
  | .replyWindowExpiry _ | .broadcastWindowEnd _ | .longBreak _ | .wakeRequest _ _ | .faultWatchEnd _ | .faultWatchBreak _
  | .wakeBreakEnd _ | .wakeSettleEnd _ => true
  | _ => false

/-- The command is an event of the encoder port, or the end of a card wait (chapter 6). -/
def ofEncoder : Instr → Bool
  | .cardState _ | .sensePace | .image _ | .readFail | .done | .writeFail | .encoderBadReply _ _ | .encoderReplyTimeout
  | .cardWaitExpiry => true
  | _ => false

/-- The command brings the host's own writes, or a start that tests shared RAM, or the loss of the main domain (R167, R175). -/
def reachesScratch : Instr → Bool
  | .attentionLatchSet _ _ | .coldStart _ _ | .supplyStart _ _ _ _ | .mainSupplyFail => true
  | _ => false

/-- The clock a second later (R4, R5): its wrap advances the minute count in RUNNING alone, and the count that reaches 16,777,215 ends it. -/
def Clock.nextSecond (c : Clock) : Clock :=
  if c.second < 59 then { c with second := c.second + 1 }
  else if c.state = .running then
    { state := if c.minute + 1 = 16777215 then .ended else .running, minute := c.minute + 1, second := 0 }
  else { c with second := 0 }

/-- The site mirror shows the clock (12.4). -/
def State.showsClock (t : State) : Prop :=
  t.byte 0x443 = byteOf t.clock.state.code ∧ t.field 0x444 3 = t.clock.minute ∧ (t.byte 0x447).toNat = t.clock.second

/-! ## Starts (R33, R177) -/

/-- The clock after a start that finds the tables good: it has counted on, and a crystal that does not run leaves it NOT_SET
(R7, R8). -/
def State.clockAfter (s : State) (crystalOk : Bool) (elapsed : Nat) : Clock :=
  let c := if s.counting then s.clock.addSeconds elapsed else s.clock
  if crystalOk then c else { c with state := .notSet }

/-- A room after such a start: DEPARTING is made VACANT, unscanned; then the minute tick of R8 tests for overstay (R25, R33). -/
def State.roomAfter (s : State) (c : Clock) (r : Fin 48) : Room :=
  let x := s.rooms[r]
  if x.state = .departing then { x with state := .vacant, unscanned := true, wait := 0 }
  else if c.state = .running ∧ x.state = .occupied ∧ x.stayUntil + s.site.checkoutGrace ≤ c.minute then
    { x with state := .overstay, wait := 0 }
  else { x with wait := 0 }

/-- The main-domain part of a drop record as every start leaves it (R134): ABSENT, miss count 0, no reported kind, the fast-capable flag clear,
nothing owed. A bound DOOR or GATE drop has a door-side record that knows nothing: no deadline, no pending grant, the timer stopped, no alarm
(R47). -/
def Drop.Fresh (d : Drop) : Prop :=
  d.presence = .absent ∧ d.miss = 0 ∧ d.reported = none ∧ d.fast = false ∧ d.owed = none ∧
  d.door = if d.binding.any Binding.hasDoor then
      some { leaf := .unknown, bolt := .unknown, latch := .unknown, deadline := none, pending := none, heldCount := 0, timer := false
             alarm := false }
    else none

/-- The main domain as every start leaves it (R47, R84, R101, R134, R141, R168, R177). -/
def State.MainFresh (t : State) : Prop :=
  t.powered = true ∧ t.mask = 0 ∧ t.latch = false ∧ t.held = [] ∧ t.engine = none ∧ t.intakeNext = 0 ∧ t.encoder = Encoder.cold ∧
  t.lastDeny = Vector.replicate 48 none ∧
  ∀ l : Fin 2, t.lines[l].state = .off ∧ t.lines[l].mark = none ∧ t.lines[l].rate = 9600 ∧ t.lines[l].divisor = 95 ∧
    t.lines[l].queue = [] ∧ t.lines[l].activity = .idle ∧ t.lines[l].returning = none ∧ ∀ a : Fin 64, (t.drop l a).Fresh

/-- The records of the battery domain that no start changes while the tables are good (R1, R11, R32, R134, R137, R175). -/
def State.KeepsTables (s t : State) : Prop :=
  t.site = s.site ∧ t.zones = s.zones ∧ t.serial = s.serial ∧
  ∀ l : Fin 2, t.lines[l].setup = s.lines[l].setup ∧
    ∀ a : Fin 64, (t.drop l a).binding = (s.drop l a).binding ∧ (t.drop l a).openTime = (s.drop l a).openTime ∧
      (t.drop l a).presence = .absent ∧ (t.drop l a).owed = none

/-- The entries a start that finds the tables good asks for at its step 3 (R33, R166, R177): START with the start flags and the code, then one
ROOM_STATE of reason 1 for each room found in DEPARTING, by rising index (log 43). -/
def State.startEntries (s : State) (flags : BitVec 4) (code : Nat) : List Request :=
  { kind := .start, value := flags.toNat * 256 + code } ::
    ((List.finRange 48).filter fun r => decide (s.rooms[r].state = .departing)).map fun r =>
      { kind := .roomState, room := r.val, reason := 1, subject := s.rooms[r].generation, value := 1 * 256 + 4 }

/-! ## Orders of the encoder (R85, R88, R97) -/

/-- The order `w` is chosen before `v`, both waiting (R85): by priority; of one priority a paused order first; then by intake number. -/
def EncOrder.Outranks (w v : EncOrder) : Prop :=
  v.priority < w.priority ∨
    (v.priority = w.priority ∧ ((w.paused = true ∧ v.paused = false) ∨ (w.paused = v.paused ∧ w.intake < v.intake)))

/-- A room's record is as an ISSUE of a mode requires it at the start of a card (table of R88). -/
def Room.meets (y : Room) (o : EncOrder) (mode : IssueMode) : Prop :=
  let inStay : Prop := y.state = .occupied ∨ y.state = .overstay
  match mode with
  | .newStay => o.advanced = true → o.generation = some y.generation ∧ (o.cardsDone = 0 → y.state = .vacant) ∧ (o.cardsDone ≠ 0 → inStay)
  | .addCopy | .rewrite => inStay ∧ (o.generation = none ∨ o.generation = some y.generation)
  | .staff => True

/-- The order's room, if it has one, meets it as a card starts or arrives (R88, R91). -/
def State.roomMeets (s : State) (o : EncOrder) : Prop :=
  ∀ (mode : IssueMode) (r : Fin 48), o.job = .issue mode → o.room = some r → s.rooms[r].meets o mode

/-- The copy of a card that starts (R88): one above the cards done for a NEW_STAY, the lowest free one for an ADD_COPY, 1 for STAFF. -/
def State.cardCopyIs (s : State) (o : EncOrder) (c : Nat) : Prop :=
  (o.job = .issue .newStay → c = o.cardsDone + 1) ∧ (o.job = .issue .staff → c = 1) ∧
  ∀ r : Fin 48, o.job = .issue .addCopy → o.room = some r →
    1 ≤ c ∧ c ≤ 8 ∧ copyIn s.rooms[r].issued c = false ∧ ∀ k, 1 ≤ k → k < c → copyIn s.rooms[r].issued k = true

/-- From `s` on, the order `o` starts a card (R88): SENSE is sent with a fresh card wait; the generation is the order's, or for an ADD_COPY or
REWRITE the room's; the copy is that of `cardCopyIs`; the rest of the order's context is as it was. -/
def State.StartsCard (s t : State) (o : EncOrder) : Prop :=
  ∃ p, t.Sending .sense .sensing p ∧ t.encoder.state = .sensing ∧
    p = { o with generation := p.generation, copy := p.copy, waitCount := o.cardWait, found := none } ∧ s.cardCopyIs o p.copy ∧
    ((o.job = .issue .addCopy ∨ o.job = .issue .rewrite) → ∀ r : Fin 48, o.room = some r → p.generation = some s.rooms[r].generation) ∧
    (o.job ≠ .issue .addCopy → o.job ≠ .issue .rewrite → p.generation = o.generation)

/-- The first of the intake checks of R97 that an ISSUE with parameters `p` fails, by its result; none when all pass. -/
def State.issueRefusal (s : State) (p : List Byte) : Option Result :=
  let mode := leAt p 0 1
  let count := leAt p 2 1
  let cls := leAt p 3 1
  let validUntil := leAt p 8 3
  if 3 < mode then some .badParam
  else if mode ≠ 3 ∧ 47 < leAt p 1 1 then some .badParam
  else if count < 1 ∨ 8 < count ∨ (mode = 2 ∧ count ≠ 1) then some .badParam
  else if mode = 3 ∧ (cls < 2 ∨ 4 < cls) then some .badParam
  else if validUntil ≤ leAt p 4 3 ∨ (s.clock.state ≠ .notSet ∧ validUntil ≤ s.clock.minute) then some .badParam
  else if s.site.state ≠ .configured then some .notConfigured
  else if s.serial = 0xFFFFFFFF then some .serialsExhausted
  else if mode = 1 ∧ ∃ r : Fin 48, leAt p 1 1 = r.val ∧ 8 - setSize s.rooms[r].issued < count then some .noCopy
  else none

end Sys2Proof.Machine
end

