-- ==== Sys2Proof/WellFormed.lean ====
section
/-! DEFINITION. Which commands can be formed at all, by their operands alone: the sizes of 12.1, 12.2, 12.5
and the offsets of shared RAM. A reply whose kind the open message does not take, or whose payload does not fit its kind, is
well-formed here: the part receives it and the attempt fails (R127). -/

namespace Sys2Proof

/-- The parameters of an order are at most the 40 bytes P0 to P39 (12.2). -/
def paramsFit (params : List Byte) : Bool := decide (params.length ≤ 40)

/-- A host write lies in shared RAM, offsets 0x0000 to 0x7FFF (R167). -/
def writeFits (w : HostWrite) : Bool := decide (w.1 < 0x8000)

/-- A drop's address is 1..63; address 0 is reserved for broadcasts (8). -/
def addressFits (a : Fin 64) : Bool := decide (a ≠ 0)

/-- The window a reply's first character opens runs for so many character times: 40 on a door line (R129), and 100 ms at 38,400 baud, in
characters of 11 bits, at the encoder port (R83). No more characters than that can come after the first. -/
def runFits (times : Nat) (rest : List LineChar) : Bool := decide (rest.length ≤ times)

/-- The command can be formed. -/
def WellFormed : Instr → Bool
  | .siteSetup _ | .setClock _ | .zoneSet _ | .roomSet _ | .checkout _ | .revoke _ | .unrevoke _
  | .minibarSet _ | .minibarScan _ | .dropSet _ | .lineSetup _ | .journalCut _ | .cancel _ => true
  | .issue _ _ p | .readCard _ _ p | .eraseCard _ _ p | .lineGo _ _ p => paramsFit p
  | .attentionLatchSet ws _ => ws.all writeFits
  | .causeClear _ | .maskWrite _ | .startFlagsClear _ => true
  | .softReset _ _ _ _ | .coldStart _ _ | .supplyStart _ _ _ _ | .pinStart _ _ _ | .mainSupplyFail => true
  | .secondsTick | .clockEnd | .departingWaitExpiry _ => true
  | .grantDeadlineExpiry _ a | .doorHeld _ a => addressFits a
  | .minibarDeadlineExpiry _ | .scanExpiry _ | .cardWaitExpiry | .journalWrite => true
  | .nil _ | .doorState _ _ _ _ | .ident _ _ _ | .ack _ => true
  | .cardRead _ image => decide (image.length = 20)
  | .trayData _ _ _ readings => decide (readings.length ≤ 11)
  | .badReply _ _ rest => runFits 40 rest
  | .replyWindowExpiry _ | .broadcastWindowEnd _ | .longBreak _ => true
  | .wakeRequest _ millis => decide (millis < 100)
  | .faultWatchEnd _ | .faultWatchBreak _ | .wakeBreakEnd _ | .wakeSettleEnd _ => true
  | .cardState _ | .sensePace | .readFail | .done | .writeFail | .encoderReplyTimeout => true
  | .image bytes => decide (bytes.length = 20)
  | .encoderBadReply _ rest => runFits 349 rest
  | .clockCrystalStop => true

end Sys2Proof
end

