-- ==== Sys2Proof/Certificates/Slice0/Obligations.lean ====
section
/-! DEFINITION. The statements for the provers. -/

open Sys2Proof Sys2Proof.Machine

/-! ## The queue of commands, the registers, reset -/

/-- One step takes the command at the front of the queue and executes it with the queue's rest; with no command the part idles. That
the commands stand in a queue, and that an empty one changes nothing, are the model's form (log 18). -/
def Obligations.StepTakesTheFrontCommand : Prop :=
  (∀ (s : State) (c : Instr), step (s.withCommand c) = exec c s) ∧
  (∀ (s : State) (c : Instr) (rest : List Instr), s.pending = c :: rest → step s = exec c { s with pending := rest }) ∧
  ∀ s : State, s.pending = [] → step s = .next s

/-- Every command completes, and leaves the queue of commands as it finds it: no command of the table stops the part. That a command whose
event cannot happen answers with the state unchanged is the model's form (log 4), and so is the queue of commands (log 18). -/
def Obligations.EveryCommandCompletes : Prop :=
  ∀ (c : Instr) (s : State), ∃ t, exec c s = .next t ∧ t.pending = s.pending

/-- CAUSE, MASK and START as the host writes them (11.2, R168): a one in CAUSE clears that bit alone, MASK takes its five bits, a one in
START clears that flag alone, and nothing else changes. While the main supply is absent no write is taken (11.6). -/
def Obligations.RegisterWrites : Prop :=
  ∀ (s : State) (v : Half),
    (s.powered = true → exec (.causeClear v) s = .next { s with cause := s.cause &&& ~~~v }) ∧
    (s.powered = true → exec (.maskWrite v) s = .next { s with mask := v &&& 0x001F }) ∧
    (s.powered = true → exec (.startFlagsClear v) s = .next { s with startFlags := s.startFlags &&& ~~~(v.setWidth 4) }) ∧
    (s.powered = false →
      exec (.causeClear v) s = .next s ∧ exec (.maskWrite v) s = .next s ∧ exec (.startFlagsClear v) s = .next s)

/-- The state after reset meets every invariant stated below. -/
def Obligations.ResetMeetsTheInvariants : Prop :=
  State.reset.MemoryInv ∧ State.reset.JournalInv ∧ State.reset.ClockInv ∧ State.reset.StartInv ∧ State.reset.RoomInv ∧ State.reset.RevInv ∧
  State.reset.MinibarInv ∧ State.reset.BindingInv ∧ State.reset.ReachInv ∧ State.reset.LineInv ∧ State.reset.HeldInv ∧ State.reset.OwnerInv ∧
  State.reset.EncoderInv

/-! ## What every step keeps -/

/-- Shared RAM keeps its canonical form, and the descriptor that is FILLING lends good room (R160 to R162). The holding queue never holds
more than 32 entries, of which never more than 28 are ROUTINE (R155); the gap count and the sequence counter keep their 16 bits (R156,
R157); the clock keeps its ranges, and among set clocks reads its last minute exactly in ENDED (R4, R5). A part that is READY has had its
mirrors written, and they stand only with the main supply present (R174, R175, R177). -/
def Obligations.MemoryJournalAndClockKept : Prop :=
  (∀ s t : State, s.MemoryInv → step s = .next t → t.MemoryInv) ∧
  (∀ s t : State, s.JournalInv → step s = .next t → t.JournalInv) ∧
  (∀ s t : State, s.ClockInv → step s = .next t → t.ClockInv) ∧
  ∀ s t : State, s.StartInv → step s = .next t → t.StartInv

/-- Two rooms never share a label (R17), and a room outside OCCUPIED and OVERSTAY has an empty issued mask (R18, R19). Every charge and carried
charge lies
within 0..999,999 cents, and every tray's taken and base within 0..stock (R116). -/
def Obligations.RoomsAndMinibarsKept : Prop :=
  (∀ s t : State, s.RoomInv → step s = .next t → t.RoomInv) ∧
  ∀ s t : State, s.MinibarInv → step s = .next t → t.MinibarInv

/-- R72: every GUEST entry carries the current generation of its room and a non-empty copy mask contained in the issued mask, and a room in
neither OCCUPIED nor OVERSTAY has none. With the bounds of R69 and R73: at most 64 entries, never two of one room or of one serial,
serials 1..0xFFFFFFFE. -/
def Obligations.RevocationsKept : Prop := ∀ s t : State, s.RevInv → step s = .next t → t.RevInv

/-- Address 0 is bound to nothing, each room has at most one DOOR and one MINIBAR drop over both lines (R134), and a door-side record stands
exactly for each DOOR and GATE drop (R47, R49). A minibar within reach has its drop PRESENT on a line in RUN (R103, R104). -/
def Obligations.BindingsKept : Prop :=
  (∀ s t : State, s.BindingInv → step s = .next t → t.BindingInv) ∧
  ∀ s t : State, s.BindingInv → s.LineInv → s.ReachInv → step s = .next t → t.ReachInv

/-- On both lines: messages wait in RUN alone and use at most 16 places, one for a drop at most, none beside an owed mark (8.6, R139, R140,
R142); what the line does fits its state (R138, R145 to R147, R152); a LINE_GO in progress in RUN is one to OFF or HUSH (R145). -/
def Obligations.LinesKept : Prop := ∀ s t : State, s.LineInv → step s = .next t → t.LineInv

/-- At most one order is held for a block, and each owner of an order has it held (R169): the table engine has taken an order exactly while
orders wait for it (R171), and each encoder order, and each LINE_GO in progress, is held for its owner. Every paused encoder order has a
priority below that of the running order, and no two paused orders share a priority (R86). -/
def Obligations.OrdersKept : Prop :=
  (∀ s t : State, s.HeldInv → step s = .next t → t.HeldInv) ∧
  (∀ s t : State, s.OwnerInv → step s = .next t → t.OwnerInv) ∧
  ∀ s t : State, s.EncoderInv → step s = .next t → t.EncoderInv

/-- Between starts the serial counter never falls, and gives at most one serial in a step (R32); a room's generation stays or rises by one, 255
followed by 0, and when it rises its issued mask is empty and the list holds no entry of the room (R19). -/
def Obligations.CountersRise : Prop :=
  ∀ (c : Instr) (s t : State), startsPart c = false → exec c s = .next t →
    (t.serial = s.serial ∨ t.serial = s.serial + 1 ∧ s.serial < 0xFFFFFFFF) ∧
    ∀ r : Fin 48, t.rooms[r].generation = s.rooms[r].generation ∨
      (t.rooms[r].generation = (s.rooms[r].generation + 1) % 256 ∧ t.rooms[r].issued = 0 ∧
        ∀ g m, RevEntry.guest r g m ∉ t.revs)

/-- The part does not touch the host scratch area, 0x0B00 to 0x0FFF, but for a start that tests shared RAM (R167); the host's own writes and the
loss of the main supply are apart. -/
def Obligations.HostScratchUntouched : Prop :=
  ∀ (c : Instr) (s t : State), WellFormed c = true → reachesScratch c = false → s.MemoryInv → exec c s = .next t →
    ∀ x, 0xB00 ≤ x → x < 0x1000 → t.byte x = s.byte x

/-- An event of a door line reaches its lines, the minibars, the rooms and their deny pairs, the journal, held orders and causes, and nothing
else; in shared RAM it writes the mirrors, the descriptors, and the results of orders that are held or marked. An event of the encoder port
reaches the encoder, the rooms, the serial counter, the Revocation List, the minibars, the journal, held orders and causes, and nothing
else: no line, no clock, no zone; in shared RAM the descriptors, the site and room mirrors, and the blocks of the encoder's orders. -/
def Obligations.EventsFrame : Prop :=
  (∀ (c : Instr) (s t : State), ofDoorLine c = true → exec c s = .next t →
    t.beyondLines = s.beyondLines ∧
    s.KeepsBytes t fun x => ofDescriptors x ∨ ofSiteMirror x ∨ (∃ r, ofRoomMirror r x) ∨ (∃ l a, ofDropMirror l a x) ∨
      ∃ b, ofResult b x ∧
        ((∃ h ∈ s.held, h.block = b) ∨ ∃ (l : Fin 2) (m : GoMark), s.lines[l].mark = some m ∧ m.block = b)) ∧
  ∀ (c : Instr) (s t : State), ofEncoder c = true → exec c s = .next t →
    t.beyondEncoder = s.beyondEncoder ∧
    s.KeepsBytes t fun x => ofDescriptors x ∨ ofSiteMirror x ∨ (∃ r, ofRoomMirror r x) ∨
      ∃ b, ofResult b x ∧ ((∃ o, s.encoder.running = some o ∧ o.block = b) ∨ ∃ o ∈ s.encoder.waiting, o.block = b)

/-! ## Starts and supplies (11.5) -/

/-- A COLD start that finds nothing wrong leaves exactly the state after reset, whatever stood before (R1, R8, R11, R15, R32, R69, R101, R102,
R134, R137, R141, R166, R168, R174, R177), but for the queue of commands and the count of free values drawn. The lines' position pointer and round
count, which no rule gives before RUN, are 0 by the model's choice (log 2). -/
def Obligations.ColdStartGivesTheResetState : Prop :=
  ∀ s : State, exec (.coldStart { ramOk := true, crystalOk := true } .ended) s =
    .next { State.reset with pending := s.pending, freeCount := s.freeCount }

/-- A SUPPLY, PIN or SOFT start with the table check good (R176, R177): the main domain is fresh, READY and START are set, the start's own
flag is added, and the battery domain is kept: site, zones, serial, bindings and setups as they were, the clock counted on (R8), rooms by
R33 and the minute tick of R8, revocations pruned by it (R79), minibars OFFLINE (R102). Every drop is ABSENT with miss count 0, no reported
kind, the fast-capable flag clear and nothing owed (R134), and the door-side record of a bound DOOR or GATE drop is UNKNOWN throughout, with
no deadline, no pending grant, no timer and no alarm (R47). The journal begins with the START entry (R166) and, by rising room index, a
ROOM_STATE entry of reason 1 for each room found DEPARTING (R33), the first 28 of them all. It holds of a start that
abandons another in progress as well, whose flag stands (R176). How a start finds the tables good, its seconds as one operand, and the order
of those entries among themselves, are the model's form (logs 3, 15, 43). -/
def Obligations.StartWithTablesGood : Prop :=
  ∀ (s : State) (crystalOk : Bool) (elapsed : Nat) (c : Instr) (flag : BitVec 4), s.tableCheck = true →
    let whole : StartCourse := { seconds := elapsed, reach := .ended }
    ((c = .supplyStart true true crystalOk whole ∧ flag = 2) ∨
      (c = .pinStart true crystalOk whole ∧ flag = 4 ∧ s.powered = true) ∨
      ∃ v : Half, c = .softReset v true crystalOk whole ∧ flag = 8 ∧ s.powered = true ∧ v.getLsbD 0 = true) →
    ∃ t, exec c s = .next t ∧ t.MainFresh ∧ t.ready = true ∧ t.mirrorsStand = true ∧ t.cause.getLsbD 4 = true ∧
      t.startFlags = s.startFlags ||| flag ∧ t.selfTest = (if crystalOk then .ok else .crystalFault) ∧
      t.crystalFault = !crystalOk ∧ t.clock = s.clockAfter crystalOk elapsed ∧ s.KeepsTables t ∧
      (∀ r : Fin 48, t.rooms[r] = s.roomAfter t.clock r ∧ t.minibars[r] = s.minibars[r].offline.applyMark) ∧
      t.revs = (if t.clock.state = .running then s.revs.filter fun e => !e.expired t.clock.minute else s.revs) ∧
      t.journal.queue.head? = some
        { sequence := 0, minute := t.clock.minute, second := t.clock.second, kind := .start, place := 255, room := 255,
          reason := 0, subject := 0, value := t.startFlags.toNat * 256 + (if crystalOk then 0 else 3) } ∧
      (t.entriesFrom 0 (s.startEntries t.startFlags (if crystalOk then 0 else 3))).take 28 <+: t.journal.queue ∧
      ∀ x, x < 0x440 → t.byte x = 0

/-- A start that finds the table check failed (R175, R177): the code is TABLES_LOST, every battery-domain record takes its COLD value, the clock
included, and the start flags stand. How a start finds the tables lost, and its seconds and its reach as operands, are the model's form (logs 3,
15); that CAUSE is START alone is R168 taken at its word (log 19); that the lines' position pointer and round count, which no rule gives before
RUN, are then 0 is its choice (log 2). -/
def Obligations.StartWithTablesLost : Prop :=
  ∀ (s : State) (tablesOk crystalOk : Bool) (elapsed : Nat) (c : Instr) (flag : BitVec 4),
    (s.tableCheck && tablesOk) = false →
    let whole : StartCourse := { seconds := elapsed, reach := .ended }
    ((c = .supplyStart true tablesOk crystalOk whole ∧ flag = 2) ∨
      (c = .pinStart tablesOk crystalOk whole ∧ flag = 4 ∧ s.powered = true) ∨
      ∃ v : Half, c = .softReset v tablesOk crystalOk whole ∧ flag = 8 ∧ s.powered = true ∧ v.getLsbD 0 = true) →
    ∃ t, exec c s = .next t ∧ t.MainFresh ∧ t.ready = true ∧ t.mirrorsStand = true ∧ t.cause = 0x0010 ∧ t.startFlags = s.startFlags ||| flag ∧
      t.selfTest = .tablesLost ∧ t.tableCheck = true ∧ t.crystalFault = !crystalOk ∧
      t.site = { state := .unconfigured, code := 0, keyM := 0, keyN := 0, earlyGrace := 0, checkoutGrace := 0,
                 heldLimit := 60 } ∧
      t.clock = { state := .notSet, minute := 0, second := 0 } ∧
      t.zones = Vector.replicate 8 { mode := .closed, openFrom := 0, openTo := 0 } ∧
      t.rooms = Vector.replicate 48 Room.cold ∧ t.serial = 1 ∧ t.revs = [] ∧
      t.minibars = Vector.replicate 48 Minibar.cold ∧ t.lines = Vector.replicate 2 Line.cold

/-- The battery domain outlasts the main domain. A COLD or SUPPLY start that finds a fault in shared RAM stops there: READY stays clear,
START is set, every byte of shared RAM is 0, and the battery-domain records keep their values (R177 step 1). A SUPPLY, PIN or SOFT start
that another start abandons (R176) leaves READY clear and its flag standing: before its step 2 the records keep their values, DEPARTING
rooms among them; after it, with the table check good, they are those of R33 and R102. Abandoned before its step 3, no entry has come of it;
before its step 2, no mirror has been written. Abandoned after it, the queue holds the START entry and, by rising room index, one ROOM_STATE
entry of reason 1 for each room found DEPARTING (R33, R166), as far as 28 places go; the others are counted as lost, and JOURNAL is set when
the queue has come to 16 entries (R165). The loss of the main supply keeps the records too (R175); the part then presents nothing (11.6).
What the main domain holds in such a state, what a start cut between its steps leaves, and the order of the ROOM_STATE entries among
themselves, are the model's choice (logs 6, 15, 43). -/
def Obligations.BatteryDomainKept : Prop :=
  ∀ s : State,
    let kept (t : State) : Prop :=
      t.site = s.site ∧ t.zones = s.zones ∧ t.serial = s.serial ∧ t.revs = s.revs ∧
      ∀ r : Fin 48, t.rooms[r] = { s.rooms[r] with wait := 0 } ∧ t.minibars[r] = s.minibars[r].offline
    let bound (t : State) : Prop := ∀ l : Fin 2, t.lines[l].setup = s.lines[l].setup ∧ ∀ a : Fin 64,
      (t.drop l a).binding = (s.drop l a).binding ∧ (t.drop l a).openTime = (s.drop l a).openTime
    (∀ (tablesOk crystalOk : Bool) (elapsed : Nat),
      ∃ t, exec (.supplyStart false tablesOk crystalOk { seconds := elapsed, reach := .ended }) s = .next t ∧ t.MainFresh ∧
        t.ready = false ∧ t.mirrorsStand = false ∧ t.cause = 0x0010 ∧ t.selfTest = .sharedRamFault ∧ t.startFlags = s.startFlags ||| 2 ∧ (∀ x, t.byte x = 0) ∧
        t.tableCheck = s.tableCheck ∧ t.clock = (if s.counting then s.clock.addSeconds elapsed else s.clock) ∧ kept t ∧ bound t) ∧
    (∀ crystalOk : Bool,
      ∃ t, exec (.coldStart { ramOk := false, crystalOk := crystalOk } .ended) s = .next t ∧ t.MainFresh ∧ t.ready = false ∧ t.mirrorsStand = false ∧
        t.cause = 0x0010 ∧ t.selfTest = .sharedRamFault ∧ t.startFlags = 1 ∧ (∀ x, t.byte x = 0) ∧ kept t ∧ bound t) ∧
    (∀ (v : Half) (tablesOk crystalOk : Bool) (elapsed : Nat) (reach : StartReach) (c : Instr) (flag : BitVec 4),
      let course : StartCourse := { seconds := elapsed, reach := reach }
      ((c = .supplyStart true tablesOk crystalOk course ∧ flag = 2) ∨
        (c = .pinStart tablesOk crystalOk course ∧ flag = 4 ∧ s.powered = true) ∨
        (c = .softReset v tablesOk crystalOk course ∧ flag = 8 ∧ s.powered = true ∧ v.getLsbD 0 = true)) →
      let cut (t : State) : Prop :=
        exec c s = .next t ∧ t.MainFresh ∧ t.ready = false ∧ t.startFlags = s.startFlags ||| flag ∧ bound t
      (reach = .begun →
        ∃ t, cut t ∧ kept t ∧ t.mirrorsStand = false ∧ t.cause = 0 ∧ t.tableCheck = s.tableCheck ∧ t.journal.queue = [] ∧
          t.clock = if s.counting then s.clock.addSeconds elapsed else s.clock) ∧
      (reach = .tested →
        ∃ t, cut t ∧ kept t ∧ t.mirrorsStand = false ∧ t.cause = 0 ∧ t.tableCheck = (s.tableCheck && tablesOk) ∧ t.journal.queue = [] ∧
          t.clock = s.clockAfter crystalOk elapsed) ∧
      (reach = .restored ∨ reach = .journaled → s.tableCheck = true → tablesOk = true →
        ∃ t, cut t ∧ s.KeepsTables t ∧ t.mirrorsStand = true ∧ t.revs = s.revs ∧ t.clock = s.clockAfter crystalOk elapsed ∧
          (∀ r : Fin 48, t.minibars[r] = s.minibars[r].offline.applyMark ∧
            t.rooms[r] = if s.rooms[r].state = .departing then
              { s.rooms[r] with state := .vacant, unscanned := true, wait := 0 } else { s.rooms[r] with wait := 0 }) ∧
          (reach = .restored → t.journal.queue = [] ∧ t.cause = 0) ∧
          (reach = .journaled →
            let entries := s.startEntries t.startFlags (if crystalOk then 0 else 3)
            t.journal.queue = (t.entriesFrom 0 entries).take 28 ∧ t.journal.gap = entries.length - 28 ∧
            t.cause = if 16 ≤ entries.length then 0x0002 else 0))) ∧
    (s.powered = true →
      ∃ t, exec .mainSupplyFail s = .next t ∧ t.powered = false ∧ t.ready = false ∧ t.mirrorsStand = false ∧ t.clock = s.clock ∧
        t.startFlags = s.startFlags ∧ t.tableCheck = s.tableCheck ∧ kept t ∧ bound t)

/-! ## Time (1.2) and the counts that follow it -/

/-- A second moves the clock by R4 and R5: the seconds count advances in every clock state, its wrap advances the minute count in RUNNING
alone, and the count that reaches 16,777,215 ends the clock. The site mirror shows the clock after it. Before READY the clock counts on the
same, no tick is delivered and no CLOCK_END entry made (R8, R177); once the start has written the mirrors the site mirror is rewritten, its
change count rising by two (R174), and nothing else changes; that it is not rewritten before is the model's choice (log 50). In the second
CLOCK_END names, the clock is ENDED, one CLOCK_END entry is asked for first, and every STAFF entry is pruned (R5, R80). A crystal that stops
between starts stops the seconds count, and with it every tick and every count that follows it, until the next start tests it (R7). That
CLOCK_END comes before the other entries of its second is the model's order (log 7). -/
def Obligations.SecondMovesTheClock : Prop :=
  (∀ s : State,
    exec .clockCrystalStop s = .next { s with crystalRuns := false } ∧
    (s.crystalRuns = false → s.crystalFault = false →
      exec .secondsTick s = .next s ∧ exec .clockEnd s = .next s ∧ exec .cardWaitExpiry s = .next s ∧
      (∀ r, exec (.departingWaitExpiry r) s = .next s ∧ exec (.minibarDeadlineExpiry r) s = .next s ∧
        exec (.scanExpiry r) s = .next s) ∧
      ∀ l a, exec (.grantDeadlineExpiry l a) s = .next s ∧ exec (.doorHeld l a) s = .next s)) ∧
  (∀ s : State, s.ready = false → s.counting = true → s.ClockInv →
    (s.mirrorsStand = true →
      ∃ t, exec .secondsTick s = .next t ∧
        t = { s with clock := s.clock.nextSecond, siteCount := s.siteCount + 2, ram := t.ram } ∧ t.showsClock ∧
        t.field 0x440 2 = t.siteCount.toNat ∧ s.KeepsBytes t ofSiteMirror) ∧
    (s.mirrorsStand = false → exec .secondsTick s = .next { s with clock := s.clock.nextSecond })) ∧
  ∀ s : State, s.ready = true → s.counting = true → s.ClockInv →
    (∃ t, exec .secondsTick s = .next t ∧ t.clock = s.clock.nextSecond ∧ t.showsClock ∧ t.beyondTime = s.beyondTime) ∧
    (s.clock = { state := .running, minute := 16777214, second := 59 } → s.RevInv →
      ∃ t, exec .clockEnd s = .next t ∧ t.clock = { state := .ended, minute := 16777215, second := 0 } ∧
        ({ s with clock := t.clock } : State).queueAfter { kind := .clockEnd } <+: t.journal.queue ∧
        ∀ n u, RevEntry.staff n u ∉ t.revs)

/-- A second moves every count of a part that runs (R6): the grant deadline and the held count of every door-side record (R64, R67), the
deadline or scan count of every minibar that has more than a second left (R110, R114), the wait of every DEPARTING room (R28), and the card
wait of the running order while the encoder is SENSING, which ends the order NO_CARD when it runs out (R89). A DEPARTING room is closed in
this second in three cases alone: a final scan of its minibar expires, which closes it unscanned (R29); the window of its GRANTED minibar
ends under the FINAL mark with no tray in use, whose final scan completes as it starts and closes it scanned (R112, R122); or its wait is at
its last second, which closes it unscanned. Where that window and the wait end in one second, either may be first and the room is closed by
it. In every other case it stays DEPARTING, its wait one lower. The minute tick moves OCCUPIED rooms past their stay to OVERSTAY (R25) and
prunes the Revocation List (R79). With nothing FILLING and an entry queued at the end of the second, one search for a descriptor has been
made, and the no-room signal set JOURNAL if the queue came to 16 entries (R160, R165); otherwise none has. The order of the receivers is the
model's (log 7). -/
def Obligations.SecondMovesTheCounts : Prop :=
  ∀ s : State, s.ready = true → s.counting = true → s.ClockInv → s.BindingInv → s.LineInv →
    let minuteTick : Prop := s.clock.state = .running ∧ s.clock.second = 59
    ∃ t, exec .secondsTick s = .next t ∧
      (∀ (l : Fin 2) (a : Fin 64) (d : DoorSide), (s.drop l a).door = some d →
        let count := if d.timer then min (d.heldCount + 1) 65535 else d.heldCount
        let ends : Prop := d.deadline = some 0 ∨ d.deadline = some 1
        (t.drop l a).door = some { d with
          deadline := if ends then none else d.deadline.map (· - 1)
          latch := if ends ∧ d.latch = .granted ∧ d.pending = none then .latched else d.latch
          heldCount := count
          alarm := d.alarm || (d.timer && decide (s.site.heldLimit ≤ count)) }) ∧
      (∀ r : Fin 48, s.minibars[r].state = .granted → ∀ n, 1 < n → s.minibars[r].deadline = some n →
        t.minibars[r] = { s.minibars[r] with deadline := some (n - 1) }) ∧
      (∀ r : Fin 48, s.minibars[r].state = .scanning → 1 < s.minibars[r].scanCount →
        t.minibars[r] = { s.minibars[r] with scanCount := s.minibars[r].scanCount - 1 }) ∧
      (∀ r : Fin 48, s.rooms[r].state = .departing →
        let m := s.minibars[r]
        let y := s.rooms[r]
        let closed (unscanned : Bool) : Room := { y with state := .vacant, unscanned := unscanned, wait := 0 }
        let expires : Prop := m.state = .scanning ∧ m.scanCount ≤ 1 ∧ (m.purpose = some .final ∨ m.finalMark = true)
        let empty : Prop := m.state = .granted ∧ m.finalMark = true ∧ (m.deadline = some 0 ∨ m.deadline = some 1) ∧ m.trayCount = 0
        (expires → t.rooms[r] = closed true) ∧ (empty → 1 < y.wait → t.rooms[r] = closed false) ∧
        (empty → y.wait ≤ 1 → ∃ unscanned, t.rooms[r] = closed unscanned) ∧
        (¬ expires → ¬ empty →
          (y.wait ≤ 1 → t.rooms[r] = closed true) ∧ (1 < y.wait → t.rooms[r] = { y with wait := y.wait - 1 }))) ∧
      (∀ r : Fin 48, s.rooms[r].state = .occupied →
        (minuteTick ∧ s.rooms[r].stayUntil + s.site.checkoutGrace ≤ s.clock.minute + 1 →
          t.rooms[r] = { s.rooms[r] with state := .overstay }) ∧
        (¬(minuteTick ∧ s.rooms[r].stayUntil + s.site.checkoutGrace ≤ s.clock.minute + 1) → t.rooms[r] = s.rooms[r])) ∧
      (∀ o, s.encoder.running = some o → s.encoder.state = .sensing →
        (1 < o.waitCount → t.encoder = { s.encoder with running := some { o with waitCount := o.waitCount - 1 } }) ∧
        (o.waitCount ≤ 1 → s.encoder.waiting = [] →
          t.encoder.running = none ∧ t.encoder.state = .idle ∧ t.encoder.exchange = none ∧ t.Ended o.block .noCard)) ∧
      (minuteTick → t.revs = s.revs.filter fun e => !e.expired (s.clock.minute + 1)) ∧ (¬minuteTick → t.revs = s.revs) ∧
      (s.journal.filling = none → t.journal.queue ≠ [] → s.Searches t) ∧
      (s.journal.filling ≠ none ∨ t.journal.queue = [] → s.NoSearch t)

/-- The last second of a count at a door. A grant deadline that reaches 0 is made absent, and a latch still GRANTED with no pending grant becomes
LATCHED; nothing else changes (R64). A held count that reaches the held-open limit raises the alarm: one DOOR_HELD entry with the limit, an
ALARM entry (R67, R59). The wait of a DEPARTING room runs out (R28, R30): VACANT, unscanned, wait 0; FINAL_CHARGE with the minibar's charge and
value 1, then
ROOM_STATE with reason 1; the CHECKOUT completes OK with the generation, the flag and the charge. Nothing else changes. That these commands
deliver the tick to the one count is the model's form (log 17). -/
def Obligations.DoorAndRoomCountsEnd : Prop :=
  (∀ (s : State) (l : Fin 2) (a : Fin 64) (d : DoorSide) (n : Nat), s.ready = true → s.counting = true →
    (s.drop l a).door = some d → d.deadline = some n → n ≤ 1 →
    exec (.grantDeadlineExpiry l a) s = .next (s.setDrop l a { s.drop l a with door := some { d with
      deadline := none, latch := if d.latch = .granted ∧ d.pending = none then .latched else d.latch } })) ∧
  (∀ (s : State) (l : Fin 2) (a : Fin 64) (d : DoorSide), s.ready = true → s.counting = true → (s.drop l a).door = some d → d.timer = true →
    d.alarm = false → s.site.heldLimit ≤ min (d.heldCount + 1) 65535 →
    ∃ t, exec (.doorHeld l a) s = .next t ∧
      t.records = (s.setDrop l a { s.drop l a with door := some { d with
        heldCount := min (d.heldCount + 1) 65535, alarm := true } }).records ∧
      s.Asks t
        { kind := .doorHeld, place := 128 * l.val + a.val
          room := match (s.drop l a).binding with
            | some (.door r) => r.val
            | _ => 255
          value := s.site.heldLimit } ∧
      t.held = s.held ∧ (s.journal.queue.length < 32 → t.cause.getLsbD 2 = true) ∧
      s.KeepsBytes t fun x => ofDescriptors x ∨ ofSiteMirror x) ∧
  ∀ (s : State) (r : Fin 48) (h : Held), s.ready = true → s.counting = true → s.rooms[r].state = .departing → s.rooms[r].wait ≤ 1 →
    s.heldBy (.roomTable r) = some h → s.HasRoom 2 →
    let x : Room := { s.rooms[r] with state := .vacant, unscanned := true, wait := 0 }
    ∃ t, exec (.departingWaitExpiry r) s = .next t ∧ t.records = ({ s with rooms := s.rooms.set r x } : State).records ∧
      s.Completes t h.block .ok ∧
      s.Admits t
        [{ kind := .finalCharge, room := r.val, subject := s.minibars[r].charge, value := 1 },
         { kind := .roomState, room := r.val, reason := 1, subject := s.rooms[r].generation, value := 1 * 256 + 4 }] ∧
      t.resultAt h.block 0 1 = s.rooms[r].generation % 256 ∧ t.resultAt h.block 1 1 = 1 ∧
      t.resultAt h.block 4 4 = s.minibars[r].charge % 4294967296 ∧
      s.KeepsBytes t fun x => ofResult h.block x ∨ ofDescriptors x ∨ ofSiteMirror x ∨ ofRoomMirror r x

/-- The last second of a count at a minibar. An open window that ends with the FINAL mark clear leaves the cabinet LOCKED (R110); with it
set the final scan starts (R122). A scan whose count runs out is abandoned: no tray changes, MINIBAR_FAULT with reason 2 names the requested
trays that have no reading, the minibar is LOCKED, and a HOST scan's order completes OK with those trays missing (R114). A final scan so
ended closes a DEPARTING room unscanned, with FINAL_CHARGE of value 1, and its CHECKOUT completes OK (R29, R30). STOP_SCAN is queued to the
drop or owed to it (R114, R139). Where the minibar becomes LOCKED, a stay-start mark that is set is applied: nothing carried, each tray's base its taken, charge 0, the flags and the mark clear
(R120). That these commands deliver the tick to the one count, so that nothing else moves, is the model's form (log 17); that an abandoned
HOST scan reports no tray read is its reading (log 27). -/
def Obligations.MinibarCountsEnd : Prop :=
  ∀ (s : State) (r : Fin 48), s.ready = true → s.counting = true → s.LineInv →
    let m := s.minibars[r]
    (∀ n, n ≤ 1 → m.state = .granted → m.deadline = some n → m.finalMark = false →
      ∃ t, exec (.minibarDeadlineExpiry r) s = .next t ∧ t.minibars = s.minibars.set r (m.cleared .locked).marked ∧
        t.rooms = s.rooms ∧ t.beyondLines = s.beyondLines ∧ t.journal = s.journal ∧ t.held = s.held ∧
        ∀ l a, t.drop l a = s.drop l a) ∧
    (∀ n, n ≤ 1 → m.state = .granted → m.deadline = some n → m.finalMark = true → 1 ≤ m.trayCount → m.trayCount ≤ 8 →
      ∃ t, exec (.minibarDeadlineExpiry r) s = .next t ∧ t.minibars[r].state = .scanning ∧
        t.minibars[r].purpose = some .final ∧ t.minibars[r].deadline = none ∧ t.minibars[r].scanCount = 10 ∧
        (∀ i, i < 8 → t.minibars[r].requested.getLsbD i = decide (i < m.trayCount)) ∧
        t.minibars[r].trays = m.trays ∧ t.minibars[r].charge = m.charge ∧ t.minibars[r].stayMark = m.stayMark ∧
        ∀ l a, s.minibarDropOf r = some (l, a) →
          t.Sends l { addr := a, msg := .scanAll, asker := .minibarUnit } ∨
            (t.drop l a).owed = some { msg := .scanAll, asker := .minibarUnit }) ∧
    (m.state = .scanning → m.scanCount ≤ 1 →
      let closes : Prop := (m.purpose = some .final ∨ m.finalMark = true) ∧ s.rooms[r].state = .departing
      ∃ t, exec (.scanExpiry r) s = .next t ∧
        t.minibars[r] = ({ m.cleared .locked with pending := t.minibars[r].pending } : Minibar).marked ∧
        (s.HasRoom 2 → ∃ e ∈ t.journal.queue, e.kind = .minibarFault ∧ e.room = r.val ∧ e.reason = 2 ∧
          e.subject = m.charge ∧ e.value = m.unread) ∧
        (∀ k, k ≠ r → t.minibars[k] = s.minibars[k]) ∧
        (∀ l a, s.minibarDropOf r = some (l, a) →
          t.Sends l { addr := a, msg := .stopScan, asker := .minibarUnit } ∨
            (t.drop l a).owed = some { msg := .stopScan, asker := .minibarUnit }) ∧
        (closes → t.rooms = s.rooms.set r s.rooms[r].unscannedClose ∧
          (s.HasRoom 4 → ∃ e ∈ t.journal.queue, e.kind = .finalCharge ∧ e.room = r.val ∧ e.subject = t.minibars[r].charge ∧ e.value = 1) ∧
          ∀ h, s.OwnerInv → s.heldBy (.roomTable r) = some h →
            t.Ended h.block .ok ∧ t.resultAt h.block 1 1 = 1 ∧ t.resultAt h.block 4 4 = t.minibars[r].charge % 4294967296) ∧
        (¬ closes → t.rooms = s.rooms) ∧
        ∀ h, s.OwnerInv → m.purpose = some .host → s.heldBy (.minibarUnit r) = some h →
          t.Ended h.block .ok ∧ t.resultAt h.block 0 1 = 0 ∧
          ∀ i : Fin 8, (t.byte (64 * h.block.val + 45)).getLsbD i.val =
            (m.requested.getLsbD i.val && m.collected[i].isNone))

/-! ## Orders the table engine serves (chapters 1, 2, 5) -/

/-- An intake takes every posted block whose order is not held, in rising block order and with rising intake numbers (R169, R170): an order
of a table kind is held with the kind, the priority (at most 7), its intake number and the parameters its block shows, after the orders held
before, and its block is written TAKEN; an order of unknown kind completes UNKNOWN_ORDER. A table engine with nothing else to serve then
takes, of the orders that wait for it, the one of highest priority and, among equals, of the lowest block (R171); one that serves an order
goes on with it. A search for a descriptor follows, with nothing FILLING and an entry queued (R160, R165). While READY is clear, or with bit
0 of the value clear, the host's writes stand and nothing else happens (R168). The intake of the kinds judged there has statements of its
own. That the command carries the host's writes is the model's form (log 12). -/
def Obligations.IntakeTakesPostedOrders : Prop :=
  ∀ (s : State) (ws : List HostWrite) (v : Half), s.powered = true →
    let u := s.hostWrites ws
    ((s.ready = false ∨ v.getLsbD 0 = false) → exec (.attentionLatchSet ws v) s = .next u) ∧
    ∀ order : Fin 16 → Option OrderKind, s.ready = true → v.getLsbD 0 = true →
      let posted : List (Fin 16) := (List.finRange 16).filter fun k => decide (u.byte (64 * k.val) = 1) && (s.heldIn k).isNone
      let kindByte (k : Fin 16) : Nat := (u.byte (64 * k.val + 2)).toNat
      (∀ k ∈ posted, (order k = none ∧ (kindByte k = 0 ∨ 17 < kindByte k)) ∨
        ∃ kind, order k = some kind ∧ kind ∉ [OrderKind.issue, .readCard, .eraseCard, .lineGo] ∧ kindByte k = kind.code) →
      let taken (x : Fin 16 × Nat) : Option Held := (order x.1).map fun kind =>
        { block := x.1, kind := kind, priority := min (u.byte (64 * x.1.val + 3)).toNat 7, intake := s.intakeNext + x.2
          owner := .engine, params := (List.range 40).map fun i => u.byte (64 * x.1.val + 4 + i) }
      let waits (t : State) (h : Held) : Prop := h ∈ t.held ∧ h.owner = .engine
      ∃ t, exec (.attentionLatchSet ws v) s = .next t ∧ t.latch = false ∧ t.intakeNext = s.intakeNext + posted.length ∧
        t.held = s.held ++ posted.zipIdx.filterMap taken ∧
        (∀ k ∈ posted, (order k).isSome = true → t.byte (64 * k.val) = 2) ∧
        (∀ k ∈ posted, order k = none → t.Ended k .unknownOrder) ∧
        (s.engine.isSome = true → t.engine = s.engine) ∧
        (s.engine = none → (∀ h, ¬ waits t h) → t.engine = none) ∧
        (∀ h, s.engine = none → waits t h →
          (∀ g, waits t g → g.priority < h.priority ∨ (g.priority = h.priority ∧ h.block ≤ g.block)) → t.engine = some h.block) ∧
        (u.KeepsBytes t fun x => (∃ k ∈ posted, x = 64 * k.val ∨ (order k = none ∧ ofResult k x)) ∨ ofDescriptors x) ∧
        t.records = ({ s with latch := false, intakeNext := t.intakeNext } : State).records ∧
        t.journal = { s.journal with cursor := t.journal.cursor, filling := t.journal.filling } ∧
        (s.journal.filling = none → s.journal.queue ≠ [] → u.Searches t) ∧
        (s.journal.filling ≠ none ∨ s.journal.queue = [] → u.NoSearch t)


/-- The table engine takes the waiting order of highest priority, and among equals the one in the lowest block, when an intake ends with the engine
free and when it has served an order; an order it has taken stays taken, whatever is posted after it (R171). The command that names another
order's service changes nothing (the model's form, log 4). -/
def Obligations.EngineServesByPriority : Prop :=
  (∀ (s : State) (h : Held), s.HeldInv → s.engineChoice = some h →
    h ∈ s.held ∧ h.owner = .engine ∧
    ∀ g ∈ s.held, g.owner = .engine → g ≠ h → g.priority < h.priority ∨ (g.priority = h.priority ∧ h.block < g.block)) ∧
  (∀ s : State, (s.engineChoice = none ↔ ∀ g ∈ s.held, g.owner ≠ .engine)) ∧
  (∀ (s : State) (ws : List HostWrite) (v : Half), s.powered = true → s.ready = true → v.getLsbD 0 = true →
    ∃ t, exec (.attentionLatchSet ws v) s = .next t ∧ (s.engine = none → t.engine = t.engineChoice.map Held.block) ∧
      ∀ k, s.engine = some k → t.engine = some k) ∧
  ∀ (s : State) (b : Fin 16),
    let orders : List (OrderKind × Instr) :=
      [(.siteSetup, .siteSetup b), (.setClock, .setClock b), (.zoneSet, .zoneSet b), (.roomSet, .roomSet b), (.checkout, .checkout b),
       (.revoke, .revoke b), (.unrevoke, .unrevoke b), (.minibarSet, .minibarSet b), (.minibarScan, .minibarScan b),
       (.dropSet, .dropSet b), (.lineSetup, .lineSetup b), (.journalCut, .journalCut b), (.cancel, .cancel b)]
    ∀ o ∈ orders,
      (s.engine ≠ some b → exec o.2 s = .next s) ∧
      ∀ h, s.ServesNow b o.1 h → s.LineInv → ∃ t, exec o.2 s = .next t ∧ t.engine = t.engineChoice.map Held.block

/-- SITE_SETUP (R2, R3): out of range it is refused BAD_PARAM; re-keying with a room in OCCUPIED, OVERSTAY or DEPARTING it is refused ROOMS_OCCUPIED;
otherwise all six fields are written, the graces and the limit clamped, and it completes OK with the values stored, after a SITE_SET entry. -/
def Obligations.SiteSetupWritesTheSite : Prop :=
  ∀ (s : State) (b : Fin 16) (h : Held), s.ServesNow b .siteSetup h →
    let p := h.params
    let code := leAt p 0 2
    let keyM := leAt p 2 2
    let keyN := leAt p 4 2
    let inRange : Prop := 1 ≤ code ∧ code ≤ 65534 ∧ 1 ≤ keyM ∧ keyM ≤ 65520 ∧ keyN ≤ 65520
    let rekeys : Prop := code ≠ s.site.code ∨ keyM ≠ s.site.keyM ∨ keyN ≠ s.site.keyN
    let inHouse : Prop := ∃ r : Fin 48, s.rooms[r].state = .occupied ∨ s.rooms[r].state = .overstay ∨ s.rooms[r].state = .departing
    (¬ inRange → ∃ t, exec (.siteSetup b) s = .next t ∧ s.Refuses t b .badParam) ∧
    (inRange → rekeys → inHouse → ∃ t, exec (.siteSetup b) s = .next t ∧ s.Refuses t b .roomsOccupied) ∧
    (inRange → (rekeys → ¬ inHouse) →
      ∃ t, exec (.siteSetup b) s = .next t ∧
        t.records = ({ s with site := {
          state := .configured, code := code, keyM := keyM, keyN := keyN, earlyGrace := min (leAt p 6 2) 240
          checkoutGrace := min (leAt p 8 2) 240, heldLimit := max 10 (min (leAt p 10 2) 600) } } : State).records ∧
        s.Completes t b .ok ∧
        (rekeys → s.Asks t { kind := .siteSet, subject := code, value := 1 }) ∧
        (¬ rekeys → s.Asks t { kind := .siteSet, subject := code, value := 0 }) ∧
        t.resultAt b 0 2 = code ∧ t.resultAt b 2 2 = keyM ∧ t.resultAt b 4 2 = keyN ∧
        t.resultAt b 6 2 = t.site.earlyGrace ∧ t.resultAt b 8 2 = t.site.checkoutGrace ∧
        t.resultAt b 10 2 = t.site.heldLimit ∧ (s.site.state ≠ .configured → t.byte 0x442 = 1) ∧
        s.KeepsBytes t fun x => ofResult b x ∨ ofDescriptors x ∨ ofSiteMirror x)

/-- SET_CLOCK (R9, R10): refused BAD_PARAM above 16,777,214, CLOCK_FAULT under a crystal fault, CLOCK_BACKWARD more than 90 minutes before a
clock that
is set, in that order; otherwise the clock runs from the minute, second 0; CLOCK_SET comes first of its entries; a set from NOT_SET or forward
tests every room for overstay and prunes the list at the new minute, another tests nothing; OK with the old minute and state. CLOCK_SET before
the entries of the tick is the model's order (log 9). -/
def Obligations.SetClockSetsTheClock : Prop :=
  ∀ (s : State) (b : Fin 16) (h : Held), s.ServesNow b .setClock h → s.ClockInv →
    let m := leAt h.params 0 3
    let isSet : Prop := s.clock.state = .running ∨ s.clock.state = .ended
    let backward : Prop := isSet ∧ m + 90 < s.clock.minute
    let ticks : Prop := s.clock.state = .notSet ∨ s.clock.minute < m
    (16777214 < m → ∃ t, exec (.setClock b) s = .next t ∧ s.Refuses t b .badParam) ∧
    (m ≤ 16777214 → s.crystalFault = true → ∃ t, exec (.setClock b) s = .next t ∧ s.Refuses t b .clockFault) ∧
    (m ≤ 16777214 → s.crystalFault = false → backward →
      ∃ t, exec (.setClock b) s = .next t ∧ s.Refuses t b .clockBackward) ∧
    (m ≤ 16777214 → s.crystalFault = false → ¬ backward →
      ∃ t, exec (.setClock b) s = .next t ∧ s.Completes t b .ok ∧
        t.clock = { state := .running, minute := m, second := 0 } ∧
        ({ s with clock := t.clock } : State).queueAfter { kind := .clockSet, subject := s.clock.minute } <+: t.journal.queue ∧
        (∀ r : Fin 48,
          (ticks ∧ s.rooms[r].state = .occupied ∧ s.rooms[r].stayUntil + s.site.checkoutGrace ≤ m →
            t.rooms[r] = { s.rooms[r] with state := .overstay }) ∧
          (¬(ticks ∧ s.rooms[r].state = .occupied ∧ s.rooms[r].stayUntil + s.site.checkoutGrace ≤ m) →
            t.rooms[r] = s.rooms[r])) ∧
        (ticks → t.revs = s.revs.filter fun e => !e.expired m) ∧ (¬ ticks → t.revs = s.revs) ∧
        t.records = ({ s with clock := t.clock, rooms := t.rooms, revs := t.revs } : State).records ∧
        t.resultAt b 0 3 = s.clock.minute ∧ t.resultAt b 3 1 = s.clock.state.code ∧
        t.byte 0x443 = 1 ∧ t.field 0x444 3 = m ∧
        s.KeepsBytes t fun x => ofResult b x ∨ ofDescriptors x ∨ ofSiteMirror x ∨ ∃ r, ofRoomMirror r x)

/-- ZONE_SET (R13, R68): a field out of range is refused BAD_PARAM; otherwise the zone record is written, a ZONE_SET entry asked for, and
the order completes OK. Into HELD_OPEN, HOLD is queued or owed to every gate of the zone and a LATCHED or GRANTED latch becomes HELD; out of
it, LATCH is, and a HELD latch becomes LATCHED, the held timer of an open gate starting at 0. A waiting OPEN that the HOLD or LATCH replaces
is lost: its grant is pending no more, and GRANT_UNDELIVERED with cause 3 follows ZONE_SET for it, by line and address (R63, R139, R140).
A held alarm that the notice ends is told by DOOR_HELD_END. ZONE_SET before the entries its messages may bring, the order of these, and that
of the DOOR_HELD_ENDs after them, by line and address, are the model's (log 9), and so is the count DOOR_HELD_END shows (log 41). -/
def Obligations.ZoneSetWritesTheZone : Prop :=
  ∀ (s : State) (b : Fin 16) (h : Held), s.ServesNow b .zoneSet h → s.LineInv → s.BindingInv →
    let p := h.params
    let openFrom := leAt p 2 2
    let openTo := leAt p 4 2
    ((8 ≤ leAt p 0 1 ∨ 3 ≤ leAt p 1 1 ∨ 1439 < openFrom ∨ 1439 < openTo) →
      ∃ u, exec (.zoneSet b) s = .next u.settle ∧ s.Refuses u b .badParam) ∧
    ∀ (z : Fin 8) (mode : ZoneMode), leAt p 0 1 = z.val → leAt p 1 1 = mode.code → openFrom ≤ 1439 → openTo ≤ 1439 →
      let entry : Request := { kind := .zoneSet, subject := openFrom * 65536 + openTo, value := z.val * 256 + mode.code }
      let changes : Prop := s.zones[z].mode = .heldOpen ↔ mode ≠ .heldOpen
      let openWaits (l : Fin 2) (a : Fin 64) : Bool :=
        s.lines[l].queue.any fun q => decide (q.addr = a ∧ q.asker = .doorUnit) && q.msg.isOpen
      let lost : List Request := allDrops.filterMap fun x =>
        if (s.drop x.1 x.2).binding = some (.gate z) ∧ openWaits x.1 x.2 = true then
          ((s.drop x.1 x.2).door.bind DoorSide.pending).map fun g => g.lostEntry (128 * x.1.val + x.2.val) 3
        else none
      let ended : List Request := allDrops.filterMap fun x =>
        if (s.drop x.1 x.2).binding = some (.gate z) then
          (s.drop x.1 x.2).door.bind fun d =>
            if (d.latch = .latched ∨ d.latch = .granted) ∧ d.alarm = true then
              some { kind := .doorHeldEnd, place := 128 * x.1.val + x.2.val, room := 255, value := d.heldCount }
            else none
        else none
      ∃ t, exec (.zoneSet b) s = .next t ∧ s.Completes t b .ok ∧
        t.zones = s.zones.set z { mode := mode, openFrom := openFrom, openTo := openTo } ∧
        t.beyondLines = ({ s with zones := t.zones, engine := t.engine } : State).beyondLines ∧
        s.queueAfter entry <+: t.journal.queue ∧
        (changes → s.HasRoom (1 + lost.length) →
          s.journal.queue ++ s.entriesFrom s.journal.sequence (entry :: lost) <+: t.journal.queue) ∧
        (s.zones[z].mode ≠ .heldOpen → mode = .heldOpen → s.HasRoom (1 + lost.length + ended.length) →
          s.Admits t (entry :: lost ++ ended)) ∧
        (s.zones[z].mode = .heldOpen → mode ≠ .heldOpen → s.HasRoom (1 + lost.length) → s.Admits t (entry :: lost)) ∧
        (changes → ∀ (l : Fin 2) (a : Fin 64), (s.drop l a).binding = some (.gate z) → ∀ d, (s.drop l a).door = some d →
          (t.drop l a).door.map DoorSide.pending = some (if openWaits l a then none else d.pending)) ∧
        (∀ (l : Fin 2) (a : Fin 64), (s.drop l a).binding = some (.gate z) →
          (s.zones[z].mode ≠ .heldOpen → mode = .heldOpen →
            (t.Sends l { addr := a, msg := .hold, asker := .zoneTable } ∨
              (t.drop l a).owed = some { msg := .hold, asker := .zoneTable }) ∧
            ∀ d, (s.drop l a).door = some d → (d.latch = .latched ∨ d.latch = .granted) →
              ∃ e, (t.drop l a).door = some e ∧ e.latch = .held ∧ e.deadline = none ∧ e.timer = false ∧ e.heldCount = 0 ∧
                e.alarm = false ∧ e.leaf = d.leaf ∧ e.bolt = d.bolt) ∧
          (s.zones[z].mode = .heldOpen → mode ≠ .heldOpen →
            (t.Sends l { addr := a, msg := .latch, asker := .zoneTable } ∨
              (t.drop l a).owed = some { msg := .latch, asker := .zoneTable }) ∧
            ∀ d, (s.drop l a).door = some d → d.latch = .held →
              ∃ e, (t.drop l a).door = some e ∧ e.latch = .latched ∧ e.leaf = d.leaf ∧
                (d.leaf = .opened → e.timer = true ∧ e.heldCount = 0 ∧ e.alarm = false) ∧
                (d.leaf ≠ .opened → e.timer = d.timer))) ∧
        (∀ (l : Fin 2) (a : Fin 64), (s.drop l a).binding ≠ some (.gate z) → t.drop l a = s.drop l a) ∧
        s.KeepsBytes t fun x => ofResult b x ∨ ofDescriptors x ∨ ofSiteMirror x

/-- ROOM_SET (R17, R18): ASSIGN, RELEASE, OUT_OF_SERVICE and RETURN each in the one state that takes it, with no field changed but those named; the
ROOM_STATE entry (R16), the room mirror (R15), OK. In any other state it is refused ROOM_STATE; with a field or a label out of range, or a label
another room holds, BAD_PARAM. -/
def Obligations.RoomSetMovesTheRoom : Prop :=
  ∀ (s : State) (b : Fin 16) (h : Held), s.ServesNow b .roomSet h →
    let action := leAt h.params 1 1
    let label := leAt h.params 2 2
    let badLabel (r : Fin 48) : Prop := label = 0 ∨ 9999 < label ∨ ∃ k : Fin 48, k ≠ r ∧ s.rooms[k].label = label
    (48 ≤ leAt h.params 0 1 ∨ 3 < action → ∃ t, exec (.roomSet b) s = .next t ∧ s.Refuses t b .badParam) ∧
    ∀ r : Fin 48, leAt h.params 0 1 = r.val →
      let x := s.rooms[r]
      (action = 0 → badLabel r → ∃ t, exec (.roomSet b) s = .next t ∧ s.Refuses t b .badParam) ∧
      ((action = 0 ∧ ¬ badLabel r ∧ x.state ≠ .unused) ∨ ((action = 1 ∨ action = 2) ∧ x.state ≠ .vacant) ∨
          (action = 3 ∧ x.state ≠ .outOfService) →
        ∃ t, exec (.roomSet b) s = .next t ∧ s.Refuses t b .roomState) ∧
      ∀ y : Room,
        ((action = 0 ∧ ¬ badLabel r ∧ x.state = .unused ∧ y = { x with label := label, state := .vacant }) ∨
          (action = 1 ∧ x.state = .vacant ∧ y = { x with label := 0, state := .unused }) ∨
          (action = 2 ∧ x.state = .vacant ∧ y = { x with state := .outOfService }) ∨
          (action = 3 ∧ x.state = .outOfService ∧ y = { x with state := .vacant })) →
        ∃ t, exec (.roomSet b) s = .next t ∧ s.Completes t b .ok ∧
          t.records = ({ s with rooms := s.rooms.set r y } : State).records ∧
          s.Asks t { kind := .roomState, room := r.val, subject := y.generation, value := y.state.code * 256 + x.state.code } ∧
          t.field (0x482 + 32 * r.val) 2 = y.label % 65536 ∧ (t.byte (0x484 + 32 * r.val)).toNat = y.state.code ∧
          s.KeepsBytes t fun x => ofResult b x ∨ ofDescriptors x ∨ ofSiteMirror x ∨ ofRoomMirror r x

/-- CHECKOUT (R26, R27): a room index above 47 is refused BAD_PARAM, a room in neither OCCUPIED nor OVERSTAY ROOM_STATE. Taken, the generation
advances,
the issued mask is empty and the room's GUEST entry gone, whatever follows. With the minibar OFFLINE the checkout is over at once: VACANT, unscanned,
ROOM_STATE, FINAL_CHARGE, ROOM_STATE, OK with the new generation, the flag and the charge (R30, R122). With it LOCKED the room is DEPARTING with
30 seconds, the order held by the Room Table, and the final scan of every tray asked for; with no tray in use that scan completes at once. In the
other states the room is DEPARTING, the FINAL mark is set, and ROOM_STATE alone is asked for; under GRANTED the grant is withdrawn without an
entry, the final LATCH mark set, and LATCH queued to the drop or owed to it (R122, R139). -/
def Obligations.CheckoutEndsTheStay : Prop :=
  ∀ (s : State) (b : Fin 16) (h : Held), s.ServesNow b .checkout h → s.LineInv →
    (48 ≤ leAt h.params 0 1 → ∃ u, exec (.checkout b) s = .next u.settle ∧ s.Refuses u b .badParam) ∧
    ∀ r : Fin 48, leAt h.params 0 1 = r.val →
      let x := s.rooms[r]
      let m := s.minibars[r]
      let left : Room := { x with generation := (x.generation + 1) % 256, issued := 0 }
      (x.state ≠ .occupied → x.state ≠ .overstay →
        ∃ u, exec (.checkout b) s = .next u.settle ∧ s.Refuses u b .roomState) ∧
      (x.state = .occupied ∨ x.state = .overstay → s.heldBy (.roomTable r) = none →
        ∃ t, exec (.checkout b) s = .next t ∧
          t.revs = s.revs.filter (fun e => match e with
            | .guest k _ _ => decide (k ≠ r)
            | .staff _ _ => true) ∧
          (∀ k, k ≠ r → t.rooms[k] = s.rooms[k] ∧ t.minibars[k] = s.minibars[k]) ∧
          t.beyondLines = ({ s with revs := t.revs, engine := t.engine } : State).beyondLines ∧
          (m.state = .offline →
            t.rooms[r] = { left with state := .vacant, unscanned := true, wait := 0 } ∧ s.Completes t b .ok ∧
            (s.HasRoom 3 → s.Admits t
              [{ kind := .roomState, room := r.val, subject := left.generation, value := 4 * 256 + x.state.code },
               { kind := .finalCharge, room := r.val, subject := m.charge, value := 1 },
               { kind := .roomState, room := r.val, reason := 1, subject := left.generation, value := 1 * 256 + 4 }]) ∧
            t.resultAt b 0 1 = left.generation ∧ t.resultAt b 1 1 = 1 ∧ t.resultAt b 4 4 = m.charge % 4294967296) ∧
          (m.state ≠ .offline → (m.state = .locked → 1 ≤ m.trayCount) →
            t.rooms[r] = { left with state := .departing, wait := 30 } ∧ t.HeldFor b (.roomTable r) ∧
            t.byte (64 * b.val) = s.byte (64 * b.val)) ∧
          (m.state = .locked → m.trayCount = 0 →
            t.rooms[r] = { left with state := .vacant, unscanned := false, wait := 0 } ∧ t.Ended b .ok ∧
            t.resultAt b 0 1 = left.generation ∧ t.resultAt b 1 1 = 0) ∧
          (m.state = .locked → 1 ≤ m.trayCount →
            t.minibars[r].state = .scanning ∧ t.minibars[r].purpose = some .final ∧ t.minibars[r].scanCount = 10 ∧
            ∀ l a, s.minibarDropOf r = some (l, a) →
              t.Sends l { addr := a, msg := .scanAll, asker := .minibarUnit } ∨
                (t.drop l a).owed = some { msg := .scanAll, asker := .minibarUnit }) ∧
          (m.state = .granted ∨ m.state = .opened ∨ m.state = .scanning →
            t.minibars[r].state = m.state ∧ t.minibars[r].finalMark = true ∧
            (s.BindingInv → s.Asks t
              { kind := .roomState, room := r.val, subject := left.generation, value := 4 * 256 + x.state.code }) ∧
            (m.state = .granted → t.minibars[r].latchMark = true ∧ t.minibars[r].pending = none ∧
              ∀ l a, s.minibarDropOf r = some (l, a) →
                t.Sends l { addr := a, msg := .latch, asker := .minibarUnit } ∨
                  (t.drop l a).owed = some { msg := .latch, asker := .minibarUnit })))

/-! ## The Revocation List (chapter 5) -/

/-- REVOKE GUEST (R74): the steps of the table, the first that ends the order deciding its result. Taken, the copies of the order's mask that are
issued
are found by the next lookup, every other answer of the list stands, and the list grows by one exactly when the room had no entry. Refused or not
needed, nothing changes. The result data begins with the list length, and holds the copies dropped at step 3 (R76). -/
def Obligations.RevokeGuestStopsCopies : Prop :=
  ∀ (s : State) (b : Fin 16) (h : Held) (r : Fin 48), s.ServesNow b .revoke h → s.RevInv →
    leAt h.params 0 1 = 0 → leAt h.params 1 1 = r.val → h.params.getD 4 0 ≠ 0 →
    (leAt h.params 2 2 = 0xFFFF ∨ leAt h.params 2 2 < 256) →
    let x := s.rooms[r]
    let asked := h.params.getD 4 0
    let kept := asked &&& x.issued
    let old := revokedMask s.revs r
    let inStay : Prop := x.state = .occupied ∨ x.state = .overstay
    let fits : Prop := inStay ∧ (leAt h.params 2 2 = 0xFFFF ∨ leAt h.params 2 2 = x.generation)
    let listed : Prop := ∃ g m, RevEntry.guest r g m ∈ s.revs
    (¬ fits → ∃ t, exec (.revoke b) s = .next t ∧ s.Refuses t b .roomState) ∧
    (fits → kept = 0 ∨ (listed ∧ kept &&& ~~~old = 0) → ∃ t, exec (.revoke b) s = .next t ∧ s.Refuses t b .notNeeded) ∧
    (fits → kept ≠ 0 → ¬ listed → s.revs.length = 64 →
      ∃ t, exec (.revoke b) s = .next t ∧ s.Refuses t b .listFull ∧ t.resultAt b 0 1 = 64) ∧
    (fits → kept &&& ~~~old ≠ 0 → (¬ listed → s.revs.length < 64) →
      ∃ t, exec (.revoke b) s = .next t ∧ s.Completes t b .ok ∧
        t.records = ({ s with revs := t.revs } : State).records ∧
        (∀ room gen copy, guestRevoked t.revs room gen copy =
          (guestRevoked s.revs room gen copy || (decide (room = r.val ∧ gen = x.generation) && copyIn kept copy))) ∧
        (∀ n, serialRevoked t.revs n = serialRevoked s.revs n) ∧
        (listed → t.revs.length = s.revs.length) ∧ (¬ listed → t.revs = s.revs ++ [.guest r x.generation kept]) ∧
        s.Asks t { kind := .revoked, room := r.val, subject := (old ||| kept).toNat
                   value := x.generation * 256 + (kept &&& ~~~old).toNat } ∧
        t.resultAt b 0 1 = t.revs.length ∧ t.byte (64 * b.val + 47) = asked &&& ~~~x.issued ∧
        t.byte (64 * b.val + 48) = old ||| kept ∧
        t.byte (0x480 + 32 * r.val + 7) = old ||| kept ∧
        s.KeepsBytes t fun y => ofResult b y ∨ ofDescriptors y ∨ ofSiteMirror y ∨ ofRoomMirror r y)

/-- REVOKE STAFF (R75), and the field checks of R73: out of range BAD_PARAM; an until already reached by a running clock, or no later than the
entry's,
is NOT_NEEDED; a later until replaces the entry's in its place; a new entry joins the end; a full list refuses it LIST_FULL. -/
def Obligations.RevokeStaffStopsSerials : Prop :=
  ∀ (s : State) (b : Fin 16) (h : Held), s.ServesNow b .revoke h → s.RevInv →
    let p := h.params
    let n := leAt p 8 4
    let u := leAt p 12 4
    let reached : Prop := s.clock.state = .running ∧ u ≤ s.clock.minute
    (2 ≤ leAt p 0 1 ∨
        (leAt p 0 1 = 0 ∧ (48 ≤ leAt p 1 1 ∨ (leAt p 2 2 ≠ 0xFFFF ∧ 256 ≤ leAt p 2 2) ∨ p.getD 4 0 = 0)) ∨
        (leAt p 0 1 = 1 ∧ (n = 0 ∨ n = 0xFFFFFFFF ∨ 16777215 < u)) →
      ∃ t, exec (.revoke b) s = .next t ∧ s.Refuses t b .badParam) ∧
    (leAt p 0 1 = 1 → n ≠ 0 → n ≠ 0xFFFFFFFF → u ≤ 16777215 →
      (reached ∨ (∃ v, RevEntry.staff n v ∈ s.revs ∧ u ≤ v) →
        ∃ t, exec (.revoke b) s = .next t ∧ s.Refuses t b .notNeeded) ∧
      (¬ reached → (∀ v, RevEntry.staff n v ∉ s.revs) → s.revs.length = 64 →
        ∃ t, exec (.revoke b) s = .next t ∧ s.Refuses t b .listFull) ∧
      (¬ reached → (∀ v, RevEntry.staff n v ∉ s.revs) → s.revs.length < 64 →
        ∃ t, exec (.revoke b) s = .next t ∧ s.Completes t b .ok ∧
          t.records = ({ s with revs := s.revs ++ [.staff n u] } : State).records ∧
          s.Asks t { kind := .revoked, subject := n, value := 1 } ∧ t.resultAt b 0 1 = s.revs.length + 1) ∧
      ∀ v, ¬ reached → RevEntry.staff n v ∈ s.revs → v < u →
        ∃ t, exec (.revoke b) s = .next t ∧ s.Completes t b .ok ∧
          t.records = ({ s with revs := t.revs } : State).records ∧
          (∀ i : Nat, t.revs[i]? = if s.revs[i]? = some (RevEntry.staff n v) then some (RevEntry.staff n u) else s.revs[i]?) ∧
          s.Asks t { kind := .revoked, subject := n, value := 2 } ∧ t.resultAt b 4 4 = u)

/-- UNREVOKE (R77, R78): a field out of range is refused BAD_PARAM; the copies of the order's mask leave the room's entry, which is removed
when none is left and keeps its place otherwise; a serial's entry is removed; with nothing to restore, or with another generation named than
the entry's, the order is NOT_NEEDED and changes nothing. Refused or not needed, the result shows the list's length. The lookups answer
accordingly, for that entry alone, and the result shows its position, or 0 when it has gone. -/
def Obligations.UnrevokeRestores : Prop :=
  ∀ (s : State) (b : Fin 16) (h : Held), s.ServesNow b .unrevoke h → s.RevInv →
    let p := h.params
    let n := leAt p 8 4
    let asked := p.getD 4 0
    let refused (res : Result) : Prop := ∃ t, exec (.unrevoke b) s = .next t ∧ s.Refuses t b res ∧ t.resultAt b 0 1 = s.revs.length
    (2 ≤ leAt p 0 1 ∨
        (leAt p 0 1 = 0 ∧ (48 ≤ leAt p 1 1 ∨ (leAt p 2 2 ≠ 0xFFFF ∧ 256 ≤ leAt p 2 2) ∨ asked = 0)) ∨
        (leAt p 0 1 = 1 ∧ (n = 0 ∨ n = 0xFFFFFFFF)) →
      refused .badParam) ∧
    (∀ (r : Fin 48) (g : Nat) (m : Byte), leAt p 0 1 = 0 → leAt p 1 1 = r.val → asked ≠ 0 → RevEntry.guest r g m ∈ s.revs →
      leAt p 2 2 < 256 → leAt p 2 2 ≠ g → refused .notNeeded) ∧
    (∀ (r : Fin 48) (g : Nat) (m : Byte), leAt p 0 1 = 0 → leAt p 1 1 = r.val → asked ≠ 0 → RevEntry.guest r g m ∈ s.revs →
      (leAt p 2 2 = 0xFFFF ∨ leAt p 2 2 = g ∧ g < 256) →
      (m &&& asked = 0 → refused .notNeeded) ∧
      (m &&& asked ≠ 0 →
        ∃ t, exec (.unrevoke b) s = .next t ∧ s.Completes t b .ok ∧
          t.records = ({ s with revs := t.revs } : State).records ∧
          (∀ room gen copy, guestRevoked t.revs room gen copy =
            (guestRevoked s.revs room gen copy && !(decide (room = r.val ∧ gen = g) && copyIn asked copy))) ∧
          (∀ k, serialRevoked t.revs k = serialRevoked s.revs k) ∧
          (m &&& ~~~asked = 0 → t.revs = s.revs.filter fun e => decide (e ≠ RevEntry.guest r g m)) ∧
          (m &&& ~~~asked ≠ 0 → ∀ i : Nat, t.revs[i]? =
            if s.revs[i]? = some (RevEntry.guest r g m) then some (RevEntry.guest r g (m &&& ~~~asked)) else s.revs[i]?) ∧
          s.Asks t { kind := .unrevoked, room := r.val, subject := (m &&& ~~~asked).toNat
                     value := g * 256 + (m &&& asked).toNat } ∧
          t.resultAt b 0 1 = t.revs.length ∧ t.byte (64 * b.val + 48) = m &&& ~~~asked ∧
          t.byte (0x480 + 32 * r.val + 7) = m &&& ~~~asked ∧ (m &&& ~~~asked = 0 → t.resultAt b 1 1 = 0) ∧
          ∀ i : Nat, m &&& ~~~asked ≠ 0 → s.revs[i]? = some (RevEntry.guest r g m) → t.resultAt b 1 1 = i + 1)) ∧
    (∀ r : Fin 48, leAt p 0 1 = 0 → leAt p 1 1 = r.val → asked ≠ 0 → (leAt p 2 2 = 0xFFFF ∨ leAt p 2 2 < 256) →
      (∀ g m, RevEntry.guest r g m ∉ s.revs) → refused .notNeeded) ∧
    (leAt p 0 1 = 1 → n ≠ 0 → n ≠ 0xFFFFFFFF →
      ((∀ v, RevEntry.staff n v ∉ s.revs) → refused .notNeeded) ∧
      ∀ v, RevEntry.staff n v ∈ s.revs →
        ∃ t, exec (.unrevoke b) s = .next t ∧ s.Completes t b .ok ∧
          t.records = ({ s with revs := s.revs.filter fun e => decide (e ≠ RevEntry.staff n v) } : State).records ∧
          s.Asks t { kind := .unrevoked, subject := n } ∧ t.resultAt b 0 1 = t.revs.length ∧ t.resultAt b 1 1 = 0)

/-! ## Credentials (chapter 3) -/

/-- R41: the evaluation applies the nine checks in their order, and the first that fails is the verdict; an EMERGENCY card skips checks 6 to 8
(R43). The check word
is recomputed by R38, and an entry matches by R44. The zone test of R12, on the minute of the day; what R12 says of cards that do not meet
it belongs to ReadsAreDecided. -/
def Obligations.CardsAndZonesAreTested : Prop :=
  (∀ (site : Site) (clock : Clock) (revs : List RevEntry) (c : List Byte),
    let sum := ((List.range 18).map fun i => (i + 1) * (c.getD i 0).toNat).sum
    let cls := cardClass c
    let timed : Bool := decide (cls ≠ 4)
    let checks : List (Deny × Bool) :=
      [(.notConfigured, decide (site.state = .unconfigured)),
       (.badCheck, decide (cardCheck c ≠ (sum * site.keyM + site.keyN) % 65521)),
       (.wrongSite, decide (cardSite c ≠ site.code)),
       (.badClass, decide (cls = 0 ∨ 4 < cls)),
       (.badWindow, decide (cardUntil c ≤ cardFrom c)),
       (.clockNotSet, timed && decide (clock.state = .notSet)),
       (.notYet, timed && decide (clock.minute + site.earlyGrace < cardFrom c)),
       (.expired, timed && decide (cardUntil c ≤ clock.minute)),
       (.revoked, revs.any fun e => match e with
         | .guest r g m => decide (cls = 1 ∧ cardRoom c = r.val ∧ cardGeneration c = g) && copyIn m (cardCopy c)
         | .staff n _ => decide (cls ≠ 1 ∧ n = cardSerial c))]
    evaluate site clock revs c = (checks.find? Prod.snd).map Prod.fst) ∧
  ∀ (z : Zone) (c : Clock),
    let d := c.minute % 1440
    (z.mode = .closed → z.isOpen c = false) ∧ (z.mode = .heldOpen → z.isOpen c = true) ∧
    (z.mode = .scheduled → (z.isOpen c = true ↔ c.state ≠ .notSet ∧
      ((z.openFrom < z.openTo ∧ z.openFrom ≤ d ∧ d < z.openTo) ∨ (z.openTo < z.openFrom ∧ (z.openFrom ≤ d ∨ d < z.openTo)) ∨
        z.openFrom = z.openTo)))

/-- The fields of a card image lie at the bytes of R34, a field of more than one byte big-endian. A card the encoder builds holds in them the
site's code, the order's class, its room or 255, its generation or 0, the card's copy, the serial given, the order's window, zone mask and
rights, and the check word of R38 over the rest (R92, R40). It is good at once (R41): built in a CONFIGURED site with values that fit their
fields, with the clock set inside its window, it passes the evaluation unless the list names it. -/
def Obligations.BuiltCardIsGood : Prop :=
  (∀ c : List Byte,
    let v (i : Nat) : Nat := (c.getD i 0).toNat
    cardSite c = v 0 * 256 + v 1 ∧ cardClass c = v 2 ∧ cardRoom c = v 3 ∧ cardGeneration c = v 4 ∧ cardCopy c = v 5 ∧
    cardSerial c = v 6 * 16777216 + v 7 * 65536 + v 8 * 256 + v 9 ∧ cardFrom c = v 10 * 65536 + v 11 * 256 + v 12 ∧
    cardUntil c = v 13 * 65536 + v 14 * 256 + v 15 ∧ cardZones c = c.getD 16 0 ∧ cardRights c = c.getD 17 0 ∧
    cardCheck c = v 18 * 256 + v 19) ∧
  (∀ (s : State) (o : EncOrder) (serial : Nat),
    let c := s.buildImage o serial
    let sum := ((List.range 18).map fun i => (i + 1) * (c.getD i 0).toNat).sum
    c.length = 20 ∧ cardSite c = s.site.code % 65536 ∧
    cardClass c = (match o.cls with | .guest => 1 | .staff => 2 | .service => 3 | .emergency => 4) ∧
    cardRoom c = (match o.room with | some r => r.val | none => 255) ∧ cardGeneration c = o.generation.getD 0 % 256 ∧
    cardCopy c = o.copy % 256 ∧ cardSerial c = serial % 4294967296 ∧ cardFrom c = o.validFrom % 16777216 ∧
    cardUntil c = o.validUntil % 16777216 ∧ cardZones c = o.zoneMask ∧ cardRights c = o.rights ∧
    cardCheck c = (sum * s.site.keyM + s.site.keyN) % 65521) ∧
  ∀ (s : State) (o : EncOrder) (serial : Nat), s.site.state = .configured → s.site.code < 65536 → serial < 4294967296 →
    o.validFrom < o.validUntil → o.validUntil ≤ 16777215 → s.clock.state ≠ .notSet →
    o.validFrom ≤ s.clock.minute + s.site.earlyGrace → s.clock.minute < o.validUntil →
    (o.cls = .guest → ∀ (r : Fin 48) (g : Nat) (m : Byte), o.room = some r → RevEntry.guest r g m ∈ s.revs → g < 256 →
      ¬(o.generation = some g ∧ copyIn m o.copy = true)) →
    (o.cls = .guest → (o.room.isSome = true ∧ o.generation.any (· < 256) = true ∧ o.copy < 256)) →
    (o.cls ≠ .guest → ∀ n u, RevEntry.staff n u ∈ s.revs → n ≠ serial) →
    (s.buildImage o serial).length = 20 ∧ evaluate s.site s.clock s.revs (s.buildImage o serial) = none

/-! ## Cards and the encoder (chapter 6) -/

/-- ISSUE, READ_CARD and ERASE_CARD posted alone (R97 to R99, R85, R88). An ISSUE that fails checks of R97 completes at once with the code of the
first of them, in their order, and the encoder is untouched. One that passes, and every READ_CARD and ERASE_CARD, is held by the encoder, its
block TAKEN, with the fields its block shows, the card wait clamped to 1..120 and the rights cut to the class's own, those of the other named
rights kept as cleared: behind a running order it joins the waiting list; on a free encoder with an empty list it runs at once and sends SENSE,
when the room's record fits a card's start. That these commands post the order and set the latch is the model's form (log 12); that bits 3 to 7
of the rights parameter, which name no right, are not among the rights cleared is its reading (log 35). -/
def Obligations.EncoderOrdersArePosted : Prop :=
  ∀ (s : State) (b : Fin 16) (prio : Byte) (p : List Byte), s.CanPost b → p.length = 40 →
    let wait (n : Nat) : Nat := max 1 (min n 120)
    let joins (c : Instr) (fields : EncOrder → Prop) (starts : Prop) : Prop :=
      (s.encoder.running.isSome = true →
        ∃ t o, exec c s = .next t ∧ t.encoder = { s.encoder with waiting := s.encoder.waiting ++ [o] } ∧
          o.block = b ∧ o.priority = min prio.toNat 7 ∧ o.intake = s.intakeNext ∧ o.paused = false ∧ fields o ∧
          t.HeldFor b .encoder ∧ t.byte (64 * b.val) = 2) ∧
      (s.encoder.running = none → s.encoder.waiting = [] → starts →
        ∃ t o, exec c s = .next t ∧ t.Sending .sense .sensing o ∧ t.encoder.state = .sensing ∧ t.encoder.waiting = [] ∧
          o.block = b ∧ o.priority = min prio.toNat 7 ∧ o.waitCount = o.cardWait ∧ fields o ∧
          t.HeldFor b .encoder ∧ t.byte (64 * b.val) = 2)
    (∀ res, s.issueRefusal p = some res →
      ∃ t, exec (.issue b prio p) s = .next t ∧ t.Ended b res ∧ t.encoder = s.encoder ∧ t.held = s.held) ∧
    (s.issueRefusal p = none →
      joins (.issue b prio p)
        (fun o => o.count = leAt p 2 1 ∧ o.validFrom = leAt p 4 3 ∧ o.validUntil = leAt p 8 3 ∧ o.zoneMask = p.getD 12 0 ∧
          o.cardWait = wait (leAt p 14 1) ∧ o.noRetry = (p.getD 15 0).getLsbD 0 ∧ o.cardsDone = 0 ∧ o.spoilCount = 0 ∧
          o.cancelMark = false ∧ o.unfinished = none ∧ o.advanced = false ∧
          (leAt p 0 1 = 0 → o.job = .issue .newStay) ∧ (leAt p 0 1 = 1 → o.job = .issue .addCopy) ∧
          (leAt p 0 1 = 2 → o.job = .issue .rewrite) ∧ (leAt p 0 1 = 3 → o.job = .issue .staff) ∧
          (leAt p 0 1 ≠ 3 → o.cls = .guest ∧ o.room.map Fin.val = some (leAt p 1 1) ∧ o.rights = p.getD 13 0 &&& 1 ∧
            o.rightsCleared = p.getD 13 0 &&& 6) ∧
          (leAt p 0 1 = 3 → o.cls.code = leAt p 3 1 ∧ o.room = none ∧ o.rights = p.getD 13 0 &&& ownRight o.cls ∧
            o.rightsCleared = p.getD 13 0 &&& 7 &&& ~~~(ownRight o.cls)))
        (leAt p 0 1 = 1 ∨ leAt p 0 1 = 2 → ∀ r : Fin 48, leAt p 1 1 = r.val →
          s.rooms[r].state = .occupied ∨ s.rooms[r].state = .overstay)) ∧
    joins (.readCard b prio p)
      (fun o => o.job = .readCard ∧ o.cardWait = wait (leAt p 0 1) ∧ o.cardsDone = 0 ∧ o.cancelMark = false) True ∧
    joins (.eraseCard b prio p)
      (fun o => o.job = .eraseCard ∧ o.cardWait = wait (leAt p 0 1) ∧ o.force = (p.getD 1 0).getLsbD 0 ∧
        o.noRetry = (p.getD 1 0).getLsbD 1 ∧ o.cardsDone = 0 ∧ o.cancelMark = false) True

/-- While SENSING (R89): an answer of present ends sensing and the card is read; an answer of absent closes the exchange and sensing goes on; the
pace of
200 ms sends the next SENSE, or, with the exchange still open, sends it when that ends absent. The port is ANSWERING after any good reply (R84). -/
def Obligations.EncoderSenses : Prop :=
  ∀ (s : State) (o : EncOrder),
    (∀ x, s.Encoding x .sensing o → x.msg = .sense →
      (∃ t, exec (.cardState 1) s = .next t ∧ t.Sending .read .reading o ∧ t.encoder.state = .working ∧
        t.encoder.presence = .answering ∧ t.beyondEncoder = s.beyondEncoder ∧ t.journal = s.journal ∧ t.rooms = s.rooms) ∧
      (s.encoder.paceDue = false →
        ∃ t, exec (.cardState 0) s = .next t ∧
          t.encoder = { s.encoder with presence := .answering, exchange := none } ∧ t.beyondEncoder = s.beyondEncoder) ∧
      (s.encoder.paceDue = true →
        ∃ t, exec (.cardState 0) s = .next t ∧ t.Sending .sense .sensing o ∧ t.encoder.paceDue = false ∧
          t.encoder.state = .sensing)) ∧
    (s.encoder.running = some o → s.encoder.state = .sensing → s.encoder.exchange.isSome = true →
      exec .sensePace s = .next { s with encoder := { s.encoder with paceDue := true } }) ∧
    (s.encoder.running = some o → s.encoder.state = .sensing → s.encoder.exchange = none →
      ∃ t, exec .sensePace s = .next t ∧ t.Sending .sense .sensing o ∧ t.encoder.state = .sensing ∧
        t.beyondEncoder = s.beyondEncoder)

/-- A card arrives (R90 to R92, R98, R99). For the first card of a NEW_STAY whose room is VACANT the generation advances and the list loses
the room's entry, and no other; in another room state the order is to end ROOM_STATE. The other cards of an ISSUE, that of a NEW_STAY which
has advanced and recorded none among them, meet the room's record again by R88 and leave it, or the order is to end ROOM_STATE. The copy is
that of R91: a NEW_STAY's next, an ADD_COPY's own or the lowest free one, with none free to end NO_COPY, a REWRITE's from the card, 1 for
STAFF. An order whose until the clock has reached is then to end BAD_PARAM; the serial counter gives each card its serial and rises by one,
or at its last value the order is to end SERIALS_EXHAUSTED; the image, sealed with the check word, is written. An ERASE_CARD writes twenty
bytes of 0. A card in use, that is a good STAFF, SERVICE or EMERGENCY card, or a good GUEST card whose room is OCCUPIED or OVERSTAY with its
generation current and its copy issued (R90), is ejected, and the order is to end CARD_IN_USE, for every ISSUE but a REWRITE and for an
ERASE_CARD without FORCE; a REWRITE takes the good current card of its room alone, another ends it WRONG_CARD; an unreadable card is written
over, but not by a REWRITE. READ_CARD ejects the card it has read and is to end OK with the fields of R98: the verdict of the evaluation,
then checks 1 to 4 of R52 for a good GUEST card in its own room. Each order that is to end has its card ejected OUT. That it stands until
the DONE of that eject is the model's reading (log 21), and so are the fields of an unreadable card (log 23). -/
def Obligations.CardArrives : Prop :=
  ∀ (s : State) (x : EncExchange) (o : EncOrder), s.Encoding x .reading o → x.msg = .read →
    let late : Prop := s.clock.state ≠ .notSet ∧ o.validUntil ≤ s.clock.minute
    let keeps (t : State) : Prop := t.rooms = s.rooms ∧ t.revs = s.revs ∧ t.minibars = s.minibars ∧ t.held = s.held ∧ t.journal = s.journal
    let ejects (c : Instr) (p : EncOrder) (res : Result) (rest : State → Prop) : Prop :=
      ∃ t, exec c s = .next t ∧ t.Sending (.eject false) (.ejectEnd res) p ∧ t.serial = s.serial ∧ rest t
    let builds (c : Instr) (p : EncOrder) (rest : State → Prop) : Prop :=
      (late → ejects c p .badParam rest) ∧ (¬ late → 0xFFFFFFFF ≤ s.serial → ejects c p .serialsExhausted rest) ∧
      (¬ late → s.serial < 0xFFFFFFFF →
        let image := s.buildImage p s.serial
        ∃ t, exec c s = .next t ∧ t.Sending (.write image) (.writing 1) { p with unfinished := some s.serial, image := image } ∧
          t.encoder.state = .working ∧ t.serial = s.serial + 1 ∧ rest t)
    let taken (c : Instr) (found : Option (List Byte)) : Prop :=
      let q : EncOrder := { o with found := found }
      (∀ r : Fin 48, o.room = some r →
        let y := s.rooms[r]
        let generation := (y.generation + 1) % 256
        let advances (t : State) : Prop :=
          t.rooms = s.rooms.set r { y with generation := generation, issued := 0 } ∧ t.minibars = s.minibars ∧ t.held = s.held ∧
          t.journal = s.journal ∧ ∀ e, e ∈ t.revs ↔ e ∈ s.revs ∧ ∀ g m, e ≠ RevEntry.guest r g m
        (o.job = .issue .newStay → o.advanced = false →
          (y.state = .vacant → builds c { q with generation := some generation, advanced := true } advances) ∧
          (y.state ≠ .vacant → ejects c q .roomState keeps)) ∧
        (o.job = .issue .newStay → o.advanced = true →
          (s.roomMeets o → builds c { q with copy := o.cardsDone + 1 } keeps) ∧ (¬ s.roomMeets o → ejects c q .roomState keeps)) ∧
        (o.job = .issue .addCopy →
          let copied (k : Nat) : Prop := builds c { q with generation := some y.generation, copy := k } keeps
          (¬ s.roomMeets o → ejects c q .roomState keeps) ∧
          (s.roomMeets o → copyIn y.issued o.copy = false → copied o.copy) ∧
          (s.roomMeets o → copyIn y.issued o.copy = true →
            (∀ k, 1 ≤ k → k ≤ 8 → copyIn y.issued k = false → (∀ j, 1 ≤ j → j < k → copyIn y.issued j = true) → copied k) ∧
            ((∀ k, 1 ≤ k → k ≤ 8 → copyIn y.issued k = true) → ejects c q .noCopy keeps)))) ∧
      (o.job = .issue .staff → builds c { q with copy := 1 } keeps) ∧
      (o.job = .eraseCard → ∃ t, exec c s = .next t ∧ keeps t ∧ t.serial = s.serial ∧
        t.Sending (.write (List.replicate 20 0)) (.writing 1) { q with image := List.replicate 20 0 })
    let reads (c : Instr) (found : Option (List Byte)) (data : List Byte) : Prop :=
      o.job = .readCard → ejects c { o with found := found, readData := data, cardsDone := 1 } .ok keeps
    (∀ image : List Byte, image.length = 20 →
      let q : EncOrder := { o with found := some image }
      let current (r : Fin 48) : Prop := evaluate s.site s.clock s.revs image = none ∧ cardClass image = 1 ∧ cardRoom image = r.val ∧
        cardGeneration image = s.rooms[r].generation ∧ copyIn s.rooms[r].issued (cardCopy image) = true
      let ownRoom : Option Deny :=
        if h : cardRoom image < 48 then
          (if s.rooms[cardRoom image].state = .unused then some .wrongRoom else s.rooms[cardRoom image].refuses image)
        else some .wrongRoom
      let verdict : Option Deny := (evaluate s.site s.clock s.revs image).or (if cardClass image = 1 then ownRoom else none)
      let inStay (r : Fin 48) : Prop := s.rooms[r].state = .occupied ∨ s.rooms[r].state = .overstay
      let inUse : Prop := (evaluate s.site s.clock s.revs image = none ∧ 2 ≤ cardClass image ∧ cardClass image ≤ 4) ∨
        ∃ r : Fin 48, current r ∧ inStay r
      (inUse → ((∃ mode, mode ≠ .rewrite ∧ o.job = .issue mode) ∨ (o.job = .eraseCard ∧ o.force = false)) →
        ejects (.image image) q .cardInUse keeps) ∧
      (¬ inUse ∨ (o.job = .eraseCard ∧ o.force = true) → taken (.image image) (some image)) ∧
      (∀ r : Fin 48, o.job = .issue .rewrite → o.room = some r →
        (¬ current r → ejects (.image image) q .wrongCard keeps) ∧
        (current r → ¬ s.roomMeets o → ejects (.image image) { q with copy := cardCopy image } .roomState keeps) ∧
        (current r → s.roomMeets o →
          builds (.image image) { q with generation := some s.rooms[r].generation, copy := cardCopy image } keeps)) ∧
      reads (.image image) (some image)
        (byteOf ((if image = List.replicate 20 0 then 2 else 0) + (if cardClass image = 0xEE then 4 else 0)) ::
          byteOf ((verdict.map Deny.code).getD 0) :: (image.drop 2).take 16)) ∧
    taken .readFail none ∧ reads .readFail none [1] ∧
    (o.job = .issue .rewrite → o.room.isSome = true → ejects .readFail { o with found := none } .wrongCard keeps)

/-- A write is verified (R93, R95, R99, R21 to R23). WRITE answered DONE is read back; an IMAGE equal to the image verifies the card. A GUEST card
is recorded: in VACANT, for a NEW_STAY of the room's generation, the stay starts (OCCUPIED, that copy alone, the card's until, scanned, no last
grant), and the minibar is told of it: in OFFLINE and LOCKED its tallies begin anew, in the other states the stay-start mark is set (R120); in
OCCUPIED and OVERSTAY the copy is added and the until never moves earlier, and an OVERSTAY room whose stay again lies ahead is OCCUPIED. A STAFF
card asks for no record. CARD_ISSUED follows, the unfinished serial is absent, cards done rises, EJECT OUT is sent. A record that is refused
spoils the card with cause 2, and the room is unchanged. A card found blank for an ERASE_CARD is ejected, and then CARD_ERASED is asked for and
the order completes OK with the old serial and the FORCE flag (R99, R100). That a card with cause 2 keeps no unfinished serial, and that the
entry and the end of an ERASE_CARD come with the DONE of its eject, are the model's reading (log 21); so are the entry's fields of an unreadable
card (log 23). -/
def Obligations.VerifiedCardIsRecorded : Prop :=
  ∀ (s : State) (x : EncExchange) (o : EncOrder) (n : Nat),
    (s.Encoding x (.writing n) o → (∃ bytes, x.msg = .write bytes) →
      ∃ t, exec .done s = .next t ∧ t.Sending .read (.verifying n) o ∧ t.rooms = s.rooms ∧ t.journal = s.journal) ∧
    (s.Encoding x (.verifying n) o → x.msg = .read → o.job = .issue .staff → o.room = none → o.image.length = 20 →
      ∃ t p, exec (.image o.image) s = .next t ∧ t.rooms = s.rooms ∧ t.minibars = s.minibars ∧ t.revs = s.revs ∧
        t.Sending (.eject false) .ejectVerified p ∧ p.block = o.block ∧ p.cardsDone = o.cardsDone + 1 ∧ p.unfinished = none ∧
        p.lastSerial = some (cardSerial o.image) ∧ p.firstSerial = some (o.firstSerial.getD (cardSerial o.image)) ∧
        p.copies = o.copies ∧
        s.Asks t { kind := .cardIssued, room := 255, reason := cardClass o.image, subject := cardSerial o.image
                   value := cardGeneration o.image * 256 + cardCopy o.image }) ∧
    (s.Encoding x (.verifying n) o → x.msg = .read → o.job = .eraseCard → o.image.length = 20 →
      ∃ t, exec (.image o.image) s = .next t ∧ t.Sending (.eject false) .ejectVerified { o with cardsDone := 1 } ∧ t.rooms = s.rooms ∧
        t.journal = s.journal) ∧
    (s.Encoding x .ejectVerified o → (∃ reject, x.msg = .eject reject) → o.job = .eraseCard → s.encoder.waiting = [] →
      let old (f : List Byte → Nat) : Nat := (o.found.map f).getD 0
      let forced := if o.force then 1 else 0
      ∃ t, exec .done s = .next t ∧ t.Ended o.block .ok ∧ t.resultAt o.block 0 4 = old cardSerial ∧ t.resultAt o.block 4 1 = forced ∧
        t.encoder.running = none ∧ t.encoder.state = .idle ∧ t.rooms = s.rooms ∧ t.revs = s.revs ∧
        s.Asks t { kind := .cardErased, reason := forced, subject := old cardSerial
                   room := (o.found.map fun c => if cardRoom c < 48 then cardRoom c else 255).getD 255
                   value := old cardGeneration * 256 + old cardCopy }) ∧
    ∀ (r : Fin 48) (mode : IssueMode), s.Encoding x (.verifying n) o → x.msg = .read → o.job = .issue mode → o.room = some r →
      o.image.length = 20 →
      let y := s.rooms[r]
      let m := s.minibars[r]
      let recorded (z : Room) (m : Minibar) : Prop :=
        ∃ t p, exec (.image o.image) s = .next t ∧ t.rooms = s.rooms.set r z ∧ t.minibars = s.minibars.set r m ∧
          t.Sending (.eject false) .ejectVerified p ∧ p.cardsDone = o.cardsDone + 1 ∧ p.unfinished = none ∧
          p.lastSerial = some (cardSerial o.image) ∧ p.copies = o.copies ||| copyBit o.copy ∧ t.serial = s.serial ∧
          (s.HasRoom 2 → ∃ e ∈ t.journal.queue, e.kind = .cardIssued ∧ e.room = r.val ∧ e.subject = cardSerial o.image)
      (y.state = .vacant → mode = .newStay → o.generation = some y.generation →
        recorded { y with state := .occupied, issued := copyBit o.copy, stayUntil := o.validUntil, unscanned := false, lastGrant := none }
          (if m.state = .offline ∨ m.state = .locked then { m with
            carried := 0, charge := 0, saturated := false, overStock := false, stayMark := false
            trays := m.trays.map fun y : Tray => { y with base := y.taken } } else { m with stayMark := true })) ∧
      (y.state = .occupied → o.generation = some y.generation →
        recorded { y with issued := y.issued ||| copyBit o.copy, stayUntil := max y.stayUntil o.validUntil } m) ∧
      (y.state = .overstay → o.generation = some y.generation →
        let untilMinute := max y.stayUntil o.validUntil
        (s.clock.state ≠ .notSet ∧ s.clock.minute < untilMinute + s.site.checkoutGrace →
          recorded { y with state := .occupied, issued := y.issued ||| copyBit o.copy, stayUntil := untilMinute } m) ∧
        (¬(s.clock.state ≠ .notSet ∧ s.clock.minute < untilMinute + s.site.checkoutGrace) →
          recorded { y with issued := y.issued ||| copyBit o.copy, stayUntil := untilMinute } m)) ∧
      ((o.generation ≠ some y.generation ∧ o.generation.isSome = true) ∨ (y.state = .vacant ∧ mode ≠ .newStay) ∨
          y.state = .departing ∨ y.state = .unused ∨ y.state = .outOfService →
        ∃ t, exec (.image o.image) s = .next t ∧ t.rooms = s.rooms ∧ t.journal = s.journal ∧
          t.Sending (.write (List.replicate 20 0xEE)) (.spoilWrite 2) { o with unfinished := none })

/-- Attempts and spoils (R93, R94): a failed write, or a read-back that fails or differs from the image, is followed by another attempt with the same
image, three attempts in all, one alone under NO_RETRY; after the last twenty bytes of 0xEE are written, and DONE and WRITE_FAIL alike send EJECT REJECT, with CARD_SPOILED, cause 1, the spoil counted and the
unfinished
serial gone; after the eject the third spoil of an ISSUE ends it SPOIL_LIMIT, and the one of an ERASE_CARD ends that (R99), whose CARD_SPOILED has
room 255 and subject 0 (R100). A card whose record was refused is spoiled in the same way with cause 2, which counts toward no limit, and the
ISSUE then ends ROOM_STATE with the cards done so far (R95). After the EJECT OUT of the last card an ISSUE completes OK (R95, R96). That the
entry and the count of a spoil come as EJECT REJECT is sent, and the end of the order with its DONE, is the model's reading (log 21), and so is
the generation and copy of an erase's CARD_SPOILED (log 23). -/
def Obligations.AttemptsAndSpoils : Prop :=
  ∀ (s : State) (x : EncExchange) (o : EncOrder),
    (∀ n, s.Encoding x (.writing n) o → (∃ bytes, x.msg = .write bytes) →
      (o.noRetry = false → n < 3 →
        ∃ t, exec .writeFail s = .next t ∧ t.Sending (.write o.image) (.writing (n + 1)) o ∧ t.journal = s.journal) ∧
      (o.noRetry = true ∨ 3 ≤ n →
        ∃ t, exec .writeFail s = .next t ∧ t.Sending (.write (List.replicate 20 0xEE)) (.spoilWrite 1) o ∧ t.journal = s.journal)) ∧
    (∀ n, s.Encoding x (.verifying n) o → x.msg = .read →
      ∀ c, (c = .readFail ∨ ∃ bytes : List Byte, bytes.length = 20 ∧ bytes ≠ o.image ∧ c = .image bytes) →
      (o.noRetry = false → n < 3 →
        ∃ t, exec c s = .next t ∧ t.Sending (.write o.image) (.writing (n + 1)) o ∧ t.journal = s.journal) ∧
      (o.noRetry = true ∨ 3 ≤ n →
        ∃ t, exec c s = .next t ∧ t.Sending (.write (List.replicate 20 0xEE)) (.spoilWrite 1) o ∧ t.journal = s.journal)) ∧
    (s.Encoding x (.spoilWrite 1) o → (∃ bytes, x.msg = .write bytes) → ∀ mode, o.job = .issue mode →
      ∀ c ∈ [Instr.done, .writeFail],
        ∃ t, exec c s = .next t ∧
          t.Sending (.eject true) (.spoilEject 1) { o with unfinished := none, spoilCount := o.spoilCount + 1 } ∧
          s.Asks t { kind := .cardSpoiled, room := (o.room.map Fin.val).getD 255, reason := 1, subject := cardSerial o.image
                     value := cardGeneration o.image * 256 + cardCopy o.image } ∧ t.rooms = s.rooms) ∧
    (s.Encoding x (.spoilWrite 1) o → (∃ bytes, x.msg = .write bytes) → o.job = .eraseCard → o.room = none →
      ∀ c ∈ [Instr.done, .writeFail],
        ∃ t, exec c s = .next t ∧
          t.Sending (.eject true) (.spoilEject 1) { o with unfinished := none, spoilCount := o.spoilCount + 1 } ∧
          s.Asks t { kind := .cardSpoiled, room := 255, reason := 1, subject := 0
                     value := cardGeneration o.image * 256 + cardCopy o.image } ∧ t.rooms = s.rooms) ∧
    (s.Encoding x (.spoilWrite 2) o → (∃ bytes, x.msg = .write bytes) → ∀ mode, o.job = .issue mode →
      ∀ c ∈ [Instr.done, .writeFail],
        ∃ t, exec c s = .next t ∧ t.Sending (.eject true) (.spoilEject 2) o ∧
          s.Asks t { kind := .cardSpoiled, room := (o.room.map Fin.val).getD 255, reason := 2, subject := cardSerial o.image
                     value := cardGeneration o.image * 256 + cardCopy o.image } ∧ t.rooms = s.rooms) ∧
    (let ends (res : Result) : Prop :=
      (o.block :: s.encoder.waiting.map EncOrder.block).Nodup →
        ∃ t, exec .done s = .next t ∧ t.Ended o.block res ∧ t.rooms = s.rooms ∧ t.serial = s.serial ∧ t.journal = s.journal ∧
          (∀ mode, o.job = .issue mode →
            t.resultAt o.block 0 1 = o.cardsDone % 256 ∧ t.resultAt o.block 1 1 = o.spoilCount % 256) ∧
          (s.encoder.waiting = [] → t.encoder.state = .idle ∧ t.encoder.running = none)
     (s.Encoding x (.spoilEject 1) o → (∃ reject, x.msg = .eject reject) → 3 ≤ o.spoilCount ∨ o.job = .eraseCard → ends .spoilLimit) ∧
     (s.Encoding x (.spoilEject 2) o → (∃ reject, x.msg = .eject reject) → ends .roomState)) ∧
    (s.Encoding x .ejectVerified o → (∃ reject, x.msg = .eject reject) → s.encoder.waiting = [] → ∀ mode, o.job = .issue mode →
      o.count ≤ o.cardsDone →
      ∃ t, exec .done s = .next t ∧ s.Completes t o.block .ok ∧ t.encoder.state = .idle ∧ t.encoder.running = none ∧
        t.resultAt o.block 0 1 = o.cardsDone % 256 ∧ t.resultAt o.block 1 1 = o.spoilCount % 256 ∧
        t.byte (64 * o.block.val + 47) = o.copies ∧ t.resultAt o.block 4 4 = o.firstSerial.getD 0 % 4294967296 ∧
        t.resultAt o.block 8 4 = o.lastSerial.getD 0 % 4294967296 ∧
        t.resultAt o.block 12 4 = o.unfinished.getD 0 % 4294967296 ∧ t.rooms = s.rooms ∧ t.serial = s.serial)

/-- A card boundary (R85 to R88), that after the eject of a verified card, cards being left, or of a spoiled one short of the third: an ISSUE marked
by a CANCEL ends CANCELLED there; else, when an order of strictly higher priority waits, it is paused: its block reads WAITING and it joins the list
with its context; else its next card starts by R88 with a fresh wait, or it ends ROOM_STATE when its room no longer fits the card, NO_COPY when an
ADD_COPY finds every copy issued. An order that ends reports its cards done. The encoder that has come free takes from the list, of any number of
orders, the one ranked first (R85: priority, a paused one first, then intake number), which leaves it; a paused one reads TAKEN again and is
resumed, its context as it was; its card starts by R88, or it ends in turn. -/
def Obligations.CardBoundary : Prop :=
  ∀ (s : State) (x : EncExchange) (o : EncOrder) (mode : IssueMode), (∃ reject, x.msg = .eject reject) → o.job = .issue mode →
    (s.Encoding x .ejectVerified o ∧ o.cardsDone < o.count) ∨ (s.Encoding x (.spoilEject 1) o ∧ o.spoilCount < 3) →
    (o.block :: s.encoder.waiting.map EncOrder.block).Nodup →
    let list := s.encoder.waiting
    let first (w : EncOrder) : Prop := w ∈ list ∧ ∀ v ∈ list, v.block ≠ w.block → w.Outranks v
    let without (w : EncOrder) : List EncOrder := list.filter fun v => decide (v.block ≠ w.block)
    let hasCopy (p : EncOrder) : Prop := ∀ r : Fin 48, p.job = .issue .addCopy → p.room = some r →
      ∃ k, 1 ≤ k ∧ k ≤ 8 ∧ copyIn s.rooms[r].issued k = false
    let keeps (t : State) : Prop := t.rooms = s.rooms ∧ t.serial = s.serial ∧ t.journal = s.journal ∧ t.beyondEncoder = s.beyondEncoder
    let takesUp (t : State) (w : EncOrder) (rest : List EncOrder) : Prop :=
      (s.roomMeets w → hasCopy w →
        t.encoder.waiting = rest ∧ s.StartsCard t { w with paused := false } ∧ (w.paused = true → t.byte (64 * w.block.val) = 2)) ∧
      (¬ s.roomMeets w → t.Ended w.block .roomState) ∧ (s.roomMeets w → ¬ hasCopy w → t.Ended w.block .noCopy)
    let ends (res : Result) : Prop :=
      let ended (t : State) : Prop := t.Ended o.block res ∧ t.resultAt o.block 0 1 = o.cardsDone % 256 ∧ keeps t
      (list = [] → ∃ t, exec .done s = .next t ∧ ended t ∧ t.encoder.running = none ∧ t.encoder.state = .idle) ∧
      ∀ w, first w → ∃ t, exec .done s = .next t ∧ ended t ∧ takesUp t w (without w)
    (o.cancelMark = true → ends .cancelled) ∧
    (∀ w, o.cancelMark = false → first w → o.priority < w.priority →
      ∃ t, exec .done s = .next t ∧ keeps t ∧ takesUp t w (without w ++ [{ o with paused := true }]) ∧
        (s.roomMeets w → hasCopy w → t.byte (64 * o.block.val) = 3 ∧ t.held = s.held)) ∧
    (o.cancelMark = false → (∀ w ∈ list, w.priority ≤ o.priority) →
      (s.roomMeets o → hasCopy o →
        ∃ t, exec .done s = .next t ∧ keeps t ∧ s.StartsCard t o ∧ t.encoder.waiting = list ∧ t.held = s.held) ∧
      (¬ s.roomMeets o → ends .roomState) ∧ (s.roomMeets o → ¬ hasCopy o → ends .noCopy))

/-- What fails an attempt on the encoder port has the message sent again, twice at most (R83): no complete reply in time; a character whose parity
bit does not make its ones even, whose stop bit is spacing or that has overrun; or a complete reply whose sum is not 0, not from the encoder's
address, or of a kind or payload that the message does not accept. A reply is complete when the payload its length byte announces and the sum have
come; until then its characters are kept, and a good one is taken as the reply it spells. The third failure makes the port SILENT and ends the order
ENCODER_SILENT with the unfinished serial in its result (R84, R94). A card wait that runs out while SENSING ends it NO_CARD (R89). With nothing
waiting the encoder is then IDLE. That ENCODER_BAD_REPLY brings any characters, that those after a complete reply or one in error belong to no
exchange, and that a named reply after other characters is read with them, are the model's form (log 25), and so is CARD_WAIT_EXPIRY as the tick to
this count (log 17); what even parity means is presumed (log 34). -/
def Obligations.EncoderOrderEndsEarly : Prop :=
  ∀ (s : State) (x : EncExchange) (o : EncOrder) (head : LineChar) (tail : List LineChar),
    let run := x.received ++ head :: tail
    let inError (c : LineChar) : Prop :=
      c.parity ≠ decide (((List.range 8).filter fun i => c.data.getLsbD i).length % 2 = 1) ∨ c.stop1 = false ∨ c.overrun = true
    let announced := ((run.map LineChar.data).getD 2 0).toNat
    let complete : Prop := 4 + announced ≤ run.length
    let heard := run.take (4 + announced)
    let bytes := heard.map LineChar.data
    let payload := (bytes.drop 3).take announced
    let fits (k : EncReply) : Prop := bytes[1]? = some k.code ∧ x.msg.accepts k = true ∧
      ((k = .cardState ∧ (payload = [0] ∨ payload = [1])) ∨ (k = .image ∧ announced = 20) ∨
        (k ≠ .cardState ∧ k ≠ .image ∧ announced = 0))
    let good (k : EncReply) : Prop := (∀ c ∈ heard, ¬ inError c) ∧ complete ∧ (bytes.map BitVec.toNat).sum % 256 = 0 ∧
      128 ≤ (bytes.getD 0 0).toNat ∧ (bytes.getD 0 0).toNat % 64 = 1 ∧ fits k
    let fails (c : Instr) : Prop := c = .encoderReplyTimeout ∨
      (c = .encoderBadReply head tail ∧ ((∃ c ∈ heard, inError c) ∨ (complete ∧ ∀ k, ¬ good k)))
    let ends (t : State) (res : Result) : Prop :=
      s.Completes t o.block res ∧ t.encoder.state = .idle ∧ t.encoder.running = none ∧ t.encoder.exchange = none ∧
      t.rooms = s.rooms ∧ t.serial = s.serial ∧ t.journal = s.journal ∧ t.beyondEncoder = s.beyondEncoder ∧
      ∀ mode, o.job = .issue mode → t.resultAt o.block 0 1 = o.cardsDone % 256 ∧
        t.resultAt o.block 12 4 = o.unfinished.getD 0 % 4294967296
    let hears (y : EncExchange) : State := { s with encoder := { s.encoder with exchange := some y } }
    (s.encoder.exchange = some x → s.encoder.running = some o →
      (∀ c, fails c →
        (0 < x.retries → exec c s = .next (hears { x with retries := x.retries - 1, received := [] })) ∧
        (x.retries = 0 → s.encoder.waiting = [] →
          ∃ t, exec c s = .next t ∧ t.encoder.presence = .silent ∧ ends t .encoderSilent)) ∧
      (¬ complete → (∀ c ∈ run, ¬ inError c) → exec (.encoderBadReply head tail) s = .next (hears { x with received := run })) ∧
      (∀ k, good k →
        exec (.encoderBadReply head tail) s = exec (k.withPayload payload).row (hears { x with received := [] })) ∧
      ∀ a : EncAnswer, a.bytes.map (soundChar .even) = head :: tail → x.received ≠ [] → exec a.row s = exec (.encoderBadReply head tail) s) ∧
    (s.ready = true → s.counting = true → s.encoder.running = some o → s.encoder.state = .sensing → o.waitCount ≤ 1 → s.encoder.waiting = [] →
      ∃ t, exec .cardWaitExpiry s = .next t ∧ t.encoder.presence = s.encoder.presence ∧ ends t .noCard)

/-! ## Minibars (chapter 7) -/

/-- MINIBAR_SET (R119): a field out of range, the room index among them, or a tray in use left with unit 0, is refused BAD_PARAM; GRANTED, OPEN and SCANNING refuse it
MINIBAR_BUSY.
Taken, the trays at or above the count are cleared, each set tray takes its price, stock and unit (a new unit leaves it not based, with its fault
clear),
taken and base are within the stock, the limit is at most 999,999, the charge is that of R116, and MINIBAR_CHARGE is asked for when it changes.
CHARGE_SATURATED is set when the sum exceeds 999,999. That OVER_STOCK is set when the recount finds more items gone than the stock, as a scan
sets it (R115), is the model's reading (log 26); the value 0 of the MINIBAR_CHARGE entry is too (log 27). -/
def Obligations.MinibarSetConfigures : Prop :=
  ∀ (s : State) (b : Fin 16) (h : Held), s.ServesNow b .minibarSet h →
    let p := h.params
    (48 ≤ leAt p 0 1 → ∃ t, exec (.minibarSet b) s = .next t ∧ s.Refuses t b .badParam) ∧
    ∀ r : Fin 48, leAt p 0 1 = r.val →
    let m := s.minibars[r]
    let count := leAt p 1 1
    let first := leAt p 5 1
    let n := leAt p 6 1
    let sets (i : Nat) : Prop := first ≤ i ∧ i < first + n
    let unit (i : Nat) : Nat := leAt p (8 + 5 * (i - first)) 2
    let price (i : Nat) : Nat := leAt p (10 + 5 * (i - first)) 2
    let stock (i : Nat) : Nat := leAt p (12 + 5 * (i - first)) 1
    let good : Prop := 1 ≤ count ∧ count ≤ 8 ∧ n ≤ 6 ∧ (n = 0 ∨ first + n ≤ count) ∧
      (∀ i, sets i → 1 ≤ unit i ∧ unit i ≤ 4095 ∧ stock i ≤ 31) ∧ ∀ i : Fin 8, i.val < count → m.trays[i].unit = 0 → sets i.val
    (¬ good → ∃ t, exec (.minibarSet b) s = .next t ∧ s.Refuses t b .badParam) ∧
    (good → m.state ≠ .offline → m.state ≠ .locked → ∃ t, exec (.minibarSet b) s = .next t ∧ s.Refuses t b .minibarBusy) ∧
    (good → m.state = .offline ∨ m.state = .locked →
      ∃ t, exec (.minibarSet b) s = .next t ∧ s.Completes t b .ok ∧
        t.records = ({ s with minibars := s.minibars.set r t.minibars[r] } : State).records ∧
        t.minibars[r] = { m with
          trayCount := count, limit := min (leAt p 2 3) 999999, trays := t.minibars[r].trays, charge := t.minibars[r].charge
          saturated := t.minibars[r].saturated, overStock := t.minibars[r].overStock } ∧
        (∀ i : Fin 8,
          let x := m.trays[i]
          let y := t.minibars[r].trays[i]
          (count ≤ i.val → y = Tray.cold) ∧
          (i.val < count → y.taken ≤ y.stock ∧ y.base = min x.base y.stock ∧ y.last = x.last ∧
            (y.baseline = 0 → y.taken = 0) ∧ (y.baseline ≠ 0 → y.fault = true → y.taken = min x.taken y.stock) ∧
            ∀ reading, y.last = some reading → y.baseline ≠ 0 → y.fault = false → reading ≠ 0 → reading ≠ 4095 →
              (y.baseline ≤ reading → y.taken = 0) ∧
              (reading < y.baseline → y.taken = min ((2 * (y.baseline - reading) + y.unit) / (2 * y.unit)) y.stock)) ∧
          (i.val < count → ¬ sets i.val → y.unit = x.unit ∧ y.price = x.price ∧ y.stock = x.stock ∧ y.baseline = x.baseline ∧
            y.fault = x.fault) ∧
          (sets i.val → y.unit = unit i.val ∧ y.price = price i.val ∧ y.stock = stock i.val ∧
            (unit i.val = x.unit → y.baseline = x.baseline ∧ y.fault = x.fault) ∧
            (unit i.val ≠ x.unit → y.baseline = 0 ∧ y.fault = false ∧ y.taken = 0))) ∧
        t.minibars[r].charge = min 999999 t.minibars[r].sumOwed ∧
        t.minibars[r].saturated = (m.saturated || decide (999999 < t.minibars[r].sumOwed)) ∧
        (t.minibars[r].overStock = true ↔ m.overStock = true ∨ ∃ (i : Fin 8) (reading : Nat),
          let y := t.minibars[r].trays[i]
          i.val < count ∧ y.last = some reading ∧ y.fault = false ∧ y.exceeds reading) ∧
        (t.minibars[r].charge = m.charge → t.journal = s.journal) ∧
        (t.minibars[r].charge ≠ m.charge → s.Asks t
          { kind := .minibarCharge, place := s.minibarPlace r, room := r.val, reason := 5, subject := t.minibars[r].charge }) ∧
        t.resultAt b 0 3 = t.minibars[r].limit ∧ t.resultAt b 4 4 = t.minibars[r].charge ∧ t.resultAt b 8 1 = t.minibars[r].flagByte)

/-- MINIBAR_SCAN (R118, R112): a room index above 47, a mode other than ALL or SINGLE, or a tray not below the count, is refused BAD_PARAM;
OFFLINE refuses it DROP_OFFLINE; GRANTED, OPEN and SCANNING MINIBAR_BUSY. A refusal that names a room shows its minibar's faults, flags and
charges (R118). LOCKED takes it: the minibar scans for the host with ten seconds, every tray or the one, the order is held for the unit, and
SCAN_TRAYS is queued or owed to its drop. With no tray in use it completes OK at once. That a scan which did not complete reports no tray
read is the model's reading (log 27). -/
def Obligations.MinibarScanStarts : Prop :=
  ∀ (s : State) (b : Fin 16) (h : Held), s.ServesNow b .minibarScan h → s.LineInv →
    let p := h.params
    (48 ≤ leAt p 0 1 → ∃ u, exec (.minibarScan b) s = .next u.settle ∧ s.Refuses u b .badParam) ∧
    ∀ r : Fin 48, leAt p 0 1 = r.val →
    let m := s.minibars[r]
    let modeAll : Prop := leAt p 1 1 = 0
    let single : Prop := leAt p 1 1 = 1 ∧ leAt p 2 1 < m.trayCount
    let refused (res : Result) : Prop :=
      ∃ u, exec (.minibarScan b) s = .next u.settle ∧ s.Refuses u b res ∧ u.resultAt b 0 1 = 0 ∧ u.resultAt b 1 1 = 0 ∧
        (∀ i : Fin 8, (u.byte (64 * b.val + 46)).getLsbD i.val = m.trays[i].fault) ∧ u.resultAt b 3 1 = m.flagByte ∧
        u.resultAt b 4 4 = m.charge % 4294967296 ∧ u.resultAt b 8 4 = m.carried % 4294967296
    (¬ modeAll → ¬ single → refused .badParam) ∧
    (modeAll ∨ single →
      (m.state = .offline → refused .dropOffline) ∧
      (m.state = .granted ∨ m.state = .opened ∨ m.state = .scanning → refused .minibarBusy)) ∧
    (m.state = .locked → modeAll → m.trayCount = 0 → s.heldBy (.minibarUnit r) = none → ∃ t, exec (.minibarScan b) s = .next t ∧
      t.Ended b .ok ∧ t.minibars[r].state = .locked ∧ t.resultAt b 0 1 = 0 ∧ t.resultAt b 1 1 = 0) ∧
    (m.state = .locked → m.trayCount ≤ 8 → (modeAll ∧ 1 ≤ m.trayCount) ∨ single →
      ∃ t, exec (.minibarScan b) s = .next t ∧ t.HeldFor b (.minibarUnit r) ∧ t.minibars[r].state = .scanning ∧
        t.minibars[r].purpose = some .host ∧ t.minibars[r].scanCount = 10 ∧
        t.minibars[r].collected = Vector.replicate 8 none ∧ t.minibars[r].trays = m.trays ∧ t.minibars[r].charge = m.charge ∧
        (modeAll → ∀ i, i < 8 → t.minibars[r].requested.getLsbD i = decide (i < m.trayCount)) ∧
        (single → ∀ i, i < 8 → t.minibars[r].requested.getLsbD i = decide (i = leAt p 2 1)) ∧
        (∀ l a, s.minibarDropOf r = some (l, a) →
          let msg : Directed := if leAt p 1 1 = 0 then .scanAll else .scanTray (leAt p 2 1)
          t.Sends l { addr := a, msg := msg, asker := .minibarUnit } ∨
            (t.drop l a).owed = some { msg := msg, asker := .minibarUnit }) ∧
        t.beyondLines = ({ s with engine := t.engine } : State).beyondLines ∧ t.rooms = s.rooms ∧
        ∀ k, k ≠ r → t.minibars[k] = s.minibars[k])

/-- TRAY_DATA (R113, R115 to R118, R121): a reading for a requested tray below the count is collected, held at 4,095, and replaces an
earlier one; other readings are not kept. When every requested tray has one, the scan ends and the minibar is LOCKED. In a scan after a
closing, a HOST or a final scan each based tray with a good reading has taken the smaller of its stock and the items gone, halves upward,
and OVER_STOCK is set when these exceed the stock (R115); the charge is that of R116, CHARGE_SATURATED being set when the sum exceeds
999,999, with MINIBAR_CHARGE when it has changed. The HOST scan's order completes OK with the trays read, none missing, the faults, the two
flags and the two charges (R118). A final scan, by its purpose or its FINAL mark, closes a DEPARTING room: VACANT, scanned,
FINAL_CHARGE with value 0, ROOM_STATE, and its CHECKOUT completes OK (R29, R30); in another room state its report is dropped. A RESTOCK scan
folds the unbilled items of the good trays into the carried charge and bases those trays anew, with MINIBAR_RESTOCKED. After that, and after
the HOST scan's order, a stay-start mark that is set is applied: nothing carried, each tray's base its taken, charge 0, the flags and the
mark clear; a final scan's report comes last and carries that charge (R117, R120). Newly faulted trays are named by a MINIBAR_FAULT of
reason 1, whose charge is that before the scan by the model's reading (log 27). The FINAL flag of the MINIBAR_CHARGE of a scan marked FINAL
is DEDUCED (log 38). -/
def Obligations.TrayReadings : Prop :=
  ∀ (s : State) (l : Fin 2) (x : Exchange) (r : Fin 48) (first count : Byte) (readings : List Half),
    s.Exchanging l x → x.msg = .poll → (s.drop l x.addr).presence = .present → (s.drop l x.addr).binding = some (.minibar r) →
    s.minibars[r].state = .scanning → 1 ≤ count.toNat → count.toNat ≤ 8 → readings.length = count.toNat → s.LineInv →
    let m := s.minibars[r]
    let now (i : Fin 8) : Option Nat :=
      if first.toNat ≤ i.val ∧ i.val < first.toNat + count.toNat ∧ i.val < m.trayCount ∧ m.requested.getLsbD i.val = true then
        some (min (readings.getD (i.val - first.toNat) 0).toNat 4095)
      else m.collected[i]
    let complete : Prop := ∀ i : Fin 8, m.requested.getLsbD i.val = true → (now i).isSome = true
    (¬ complete →
      ∃ t, exec (.trayData l first count readings) s = .next t ∧ t.minibars = s.minibars.set r t.minibars[r] ∧
        t.minibars[r] = { m with collected := t.minibars[r].collected } ∧
        (∀ i : Fin 8, t.minibars[r].collected[i] = now i) ∧ t.rooms = s.rooms ∧ t.held = s.held ∧ t.journal = s.journal) ∧
    let newly (i : Fin 8) : Prop := m.requested.getLsbD i.val = true ∧ (now i = some 0 ∨ now i = some 4095) ∧ m.trays[i].fault = false ∧
      (m.purpose = some .restock ∨ m.trays[i].baseline ≠ 0)
    let weighed (w : Minibar) : Prop :=
      w = { m.cleared .locked with trays := w.trays, charge := w.charge, saturated := w.saturated, overStock := w.overStock } ∧
      w.charge = min 999999 w.sumOwed ∧ w.saturated = (m.saturated || decide (999999 < w.sumOwed)) ∧
      (w.overStock = true ↔ m.overStock = true ∨ ∃ (i : Fin 8) (reading : Nat),
        m.requested.getLsbD i.val = true ∧ now i = some reading ∧ m.trays[i].exceeds reading) ∧
      ∀ i : Fin 8,
        let a := m.trays[i]
        let y := w.trays[i]
        (m.requested.getLsbD i.val = false → y = a) ∧
        ∀ reading, m.requested.getLsbD i.val = true → now i = some reading →
          y.last = some reading ∧ y.unit = a.unit ∧ y.price = a.price ∧ y.stock = a.stock ∧ y.baseline = a.baseline ∧ y.base = a.base ∧
          (a.baseline = 0 → y.taken = 0 ∧ y.fault = a.fault) ∧
          (a.baseline ≠ 0 → reading = 0 ∨ reading = 4095 → y.fault = true ∧ y.taken = a.taken) ∧
          (a.baseline ≠ 0 → reading ≠ 0 → reading ≠ 4095 → y.fault = false ∧
            (a.baseline ≤ reading → y.taken = 0) ∧
            (reading < a.baseline → y.taken = min ((2 * (a.baseline - reading) + a.unit) / (2 * a.unit)) a.stock))
    let ends (t : State) (w : Minibar) : Prop :=
      exec (.trayData l first count readings) s = .next t ∧ weighed w ∧ t.minibars = s.minibars.set r w.marked
    let charges (t : State) (w : Minibar) (reason flag : Nat) : Prop :=
      (∀ i, ¬ newly i) →
        (w.charge = m.charge → t.journal = s.journal) ∧
        (w.charge ≠ m.charge → s.Asks t
          { kind := .minibarCharge, place := s.minibarPlace r, room := r.val, reason := reason, subject := w.charge
            value := m.requested.toNat * 256 + flag })
    (complete → m.purpose = some .afterClose → m.finalMark = false →
      ∃ t w, ends t w ∧ t.rooms = s.rooms ∧ t.held = s.held ∧ charges t w 1 0) ∧
    let stays : Prop := m.finalMark = false ∨ s.rooms[r].state ≠ .departing
    (complete → m.purpose = some .host → ∀ h, s.heldBy (.minibarUnit r) = some h → stays ∨ s.HeldInv →
      ∃ t w, ends t w ∧ (stays → t.rooms = s.rooms ∧ charges t w 4 (if m.finalMark = true then 1 else 0)) ∧ t.Ended h.block .ok ∧
        t.byte (64 * h.block.val + 44) = m.requested ∧ t.byte (64 * h.block.val + 45) = 0 ∧
        (∀ i : Fin 8, (t.byte (64 * h.block.val + 46)).getLsbD i.val = w.trays[i].fault) ∧ t.resultAt h.block 3 1 = w.flagByte ∧
        t.resultAt h.block 4 4 = w.charge ∧ t.resultAt h.block 8 4 = m.carried % 4294967296) ∧
    (complete → m.purpose = some .final ∨ (m.purpose = some .afterClose ∧ m.finalMark = true) → s.rooms[r].state ≠ .departing →
      ∃ t w, ends t w ∧ t.rooms = s.rooms ∧ t.held = s.held ∧ charges t w (if m.purpose = some .final then 3 else 1) 1) ∧
    (complete → m.purpose = some .final ∨ m.finalMark = true → s.rooms[r].state = .departing →
      ∀ h, s.heldBy (.roomTable r) = some h → m.purpose ≠ some .host ∨ s.HeldInv →
      ∃ t, exec (.trayData l first count readings) s = .next t ∧ (m.purpose ≠ some .restock → ∃ w, ends t w) ∧ t.Ended h.block .ok ∧
        t.rooms = s.rooms.set r { s.rooms[r] with state := .vacant, unscanned := false, wait := 0 } ∧
        t.resultAt h.block 0 1 = s.rooms[r].generation % 256 ∧ t.resultAt h.block 1 1 = 0 ∧
        t.resultAt h.block 4 4 = t.minibars[r].charge ∧
        (s.HasRoom 4 →
          (∃ e ∈ t.journal.queue, e.kind = .finalCharge ∧ e.room = r.val ∧ e.subject = t.minibars[r].charge ∧ e.value = 0) ∧
          ∃ e ∈ t.journal.queue, e.kind = .roomState ∧ e.room = r.val ∧ e.reason = 0 ∧ e.value = 1 * 256 + 4)) ∧
    (complete → m.purpose = some .restock →
      let good (i : Fin 8) : Bool := m.requested.getLsbD i.val && decide (now i ≠ some 0 ∧ now i ≠ some 4095)
      ∃ (t : State) (w : Minibar), exec (.trayData l first count readings) s = .next t ∧ t.minibars = s.minibars.set r w.marked ∧
        w = { m.cleared .locked with trays := w.trays, carried := w.carried, charge := w.charge, saturated := w.saturated } ∧
        (stays → t.rooms = s.rooms ∧ t.held = s.held) ∧
        (∀ i : Fin 8,
          let a := m.trays[i]
          let y := w.trays[i]
          (m.requested.getLsbD i.val = false → y = a) ∧
          (m.requested.getLsbD i.val = true → y.last = now i ∧ y.unit = a.unit ∧ y.price = a.price ∧ y.stock = a.stock ∧
            (good i = false → y.fault = true ∧ y.baseline = a.baseline ∧ y.taken = a.taken ∧ y.base = a.base) ∧
            (good i = true → y.fault = false ∧ some y.baseline = now i ∧ y.taken = 0 ∧ y.base = 0))) ∧
        w.carried = min 999999 (m.carried + ((List.finRange 8).map fun i : Fin 8 =>
          if good i then m.trays[i].price * (m.trays[i].taken - m.trays[i].base) else 0).sum) ∧
        w.charge = min 999999 w.sumOwed ∧ w.saturated = (m.saturated || decide (999999 < w.sumOwed)) ∧
        (stays → (∀ i, ¬ newly i) → s.Asks t
          { kind := .minibarRestocked, place := s.minibarPlace r, room := r.val, subject := w.carried
            value := ((List.finRange 8).map fun i : Fin 8 => if good i then 2 ^ i.val else 0).sum })) ∧
    (complete → (∃ i, newly i) → s.HasRoom 1 →
      ∃ t, exec (.trayData l first count readings) s = .next t ∧ ∃ e ∈ t.journal.queue, e.kind = .minibarFault ∧
        e.place = s.minibarPlace r ∧ e.room = r.val ∧ e.reason = 1 ∧ e.subject = m.charge ∧ e.value < 256 ∧
        ∀ i : Fin 8, e.value.testBit i.val = true ↔ newly i)

/-- Openings of a minibar whose drop is PRESENT. A read is decided by R105 to R107. Granted, on a drop that takes a message: OPEN is queued
with the open time, in the place of a waiting OPEN or DENY or at the end, the minibar is GRANTED with the grant pending, and MINIBAR_OPEN is
asked for; on one that does not (R139), nothing is queued, the minibar stays, and GRANT_UNDELIVERED with cause 1 is asked for (R109).
Refused, with no grant pending: DENY is queued, in the place of a waiting OPEN or DENY or at the end, the DENY entry asked for, and the room
keeps the reason and the minute; with a grant pending, or on a drop that takes no message, DENY is not queued and the entry says so (R108).
A read of a drop in MISMATCH is refused UNBOUND_DROP (R105). OPEN reported under LOCKED is MINIBAR_FORCED, under GRANTED the card's opening;
CLOSED under OPEN starts the scan of every tray in use (R111, R112). OPEN reported under SCANNING abandons the scan (R111): no tray changes,
STOP_SCAN is queued or owed, MINIBAR_FORCED and then MINIBAR_FAULT with the missing trays are asked for, the scan is to run again after the
closing, a HOST one as AFTER_CLOSE, the FINAL mark is kept, and the order of a HOST scan completes MINIBAR_BUSY. A waiting OPEN that
SCAN_TRAYS or STOP_SCAN replaces is lost: its grant is pending no more, and GRANT_UNDELIVERED with cause 3 is asked for (R110, R139, R140).
That the result of an abandoned HOST scan shows no tray read beside the missing ones is the model's reading (log 27). -/
def Obligations.MinibarsAreOpened : Prop :=
  (∀ (s : State) (l : Fin 2) (a : Fin 64) (r : Fin 48) (n : Nat) (card : List Byte), s.LineInv →
    s.Exchanging l { addr := a, msg := .poll, retries := n } → (s.drop l a).presence = .mismatch →
    (s.drop l a).binding = some (.minibar r) → card.length = 20 → s.minibars[r].pending = none → s.takesMessage l a → s.BindingInv →
    ∃ t, exec (.cardRead l card) s = .next t ∧ t.minibars = s.minibars ∧ t.rooms = s.rooms ∧
      t.lines[l].standing = s.lines[l].queueWith { addr := a, msg := .deny 4, asker := .minibarUnit } ∧
      s.Asks t { kind := .deny, place := 128 * l.val + a.val, room := r.val, reason := 19, subject := cardSerial card
                 value := 4 * 256 } ∧
      t.lastDeny = s.lastDeny.set r (some { reason := .unboundDrop, minute := s.clock.minute })) ∧
  ∀ (s : State) (l : Fin 2) (a : Fin 64) (r : Fin 48) (n : Nat), s.LineInv →
    s.Exchanging l { addr := a, msg := .poll, retries := n } → (s.drop l a).presence = .present →
    (s.drop l a).binding = some (.minibar r) →
    let m := s.minibars[r]
    let place := 128 * l.val + a.val
    let seconds := (s.drop l a).openTime
    (∀ card : List Byte, card.length = 20 → s.refusesMessage l a → s.minibarDecides r card = none →
      ∃ t, exec (.cardRead l card) s = .next t ∧ t.minibars = s.minibars ∧ t.rooms = s.rooms ∧ t.lastDeny = s.lastDeny ∧
        t.lines[l].standing = s.lines[l].queue ∧
        s.Asks t { kind := .grantUndelivered, place := place, room := r.val, reason := cardClass card, subject := cardSerial card
                   value := 1 }) ∧
    (∀ (card : List Byte) (reason : Deny), card.length = 20 → s.minibarDecides r card = some reason →
      m.pending.isSome = true ∨ s.refusesMessage l a →
      ∃ t, exec (.cardRead l card) s = .next t ∧ t.minibars = s.minibars ∧ t.rooms = s.rooms ∧ t.lines[l].standing = s.lines[l].queue ∧
        s.Asks t { kind := .deny, place := place, room := r.val, reason := reason.code, subject := cardSerial card
                   value := reason.cls * 256 + 1 } ∧
        t.lastDeny = s.lastDeny.set r (some { reason := reason, minute := s.clock.minute })) ∧
    (∀ card : List Byte, card.length = 20 → s.takesMessage l a →
      (s.minibarDecides r card = none →
        ∃ t cls, exec (.cardRead l card) s = .next t ∧ CardClass.code cls = cardClass card ∧
          t.minibars = s.minibars.set r { m with
            state := .granted, opener := some cls, deadline := none
            pending := some { cls := cls, serial := cardSerial card, seconds := seconds, room := r.val } } ∧
          t.lines[l].standing = s.lines[l].queueWith { addr := a, msg := .openLock seconds, asker := .minibarUnit } ∧
          s.Asks t { kind := .minibarOpen, place := place, room := r.val, reason := cardClass card, subject := cardSerial card
                     value := seconds } ∧ t.rooms = s.rooms ∧ t.lastDeny = s.lastDeny) ∧
      ∀ reason, s.minibarDecides r card = some reason → m.pending = none → s.BindingInv →
        ∃ t, exec (.cardRead l card) s = .next t ∧ t.minibars = s.minibars ∧ t.rooms = s.rooms ∧
          t.lines[l].standing = s.lines[l].queueWith { addr := a, msg := .deny reason.cls, asker := .minibarUnit } ∧
          s.Asks t { kind := .deny, place := place, room := r.val, reason := reason.code, subject := cardSerial card
                     value := reason.cls * 256 } ∧
          t.lastDeny = s.lastDeny.set r (some { reason := reason, minute := s.clock.minute })) ∧
    let openWaits : Bool := s.lines[l].queue.any fun q => decide (q.addr = a ∧ q.asker = .minibarUnit) && q.msg.isOpen
    let lost : List Request := if openWaits then m.pending.toList.map fun g => g.lostEntry place 3 else []
    let pendingAfter : Option Grant := if openWaits then none else m.pending
    ∀ bolt egress : Byte, bolt = 0 ∨ bolt = 1 →
      (m.state = .locked →
        ∃ t, exec (.doorState l 1 bolt egress) s = .next t ∧
          t.minibars = s.minibars.set r { m with state := .opened, onClose := some .afterClose } ∧
          s.Asks t { kind := .minibarForced, place := place, room := r.val, value := 1 }) ∧
      (m.state = .granted →
        ∃ t, exec (.doorState l 1 bolt egress) s = .next t ∧
          t.minibars = s.minibars.set r { m with
            state := .opened, deadline := none, opener := none, latchMark := false
            onClose := some (if m.opener = some .service then .restock else .afterClose) } ∧
          t.journal.queue = s.journal.queue) ∧
      (m.state = .opened → 1 ≤ m.trayCount → m.trayCount ≤ 8 →
        ∃ t, exec (.doorState l 0 bolt egress) s = .next t ∧ t.minibars[r].state = .scanning ∧
          t.minibars[r].purpose = some (m.onClose.getD .afterClose) ∧ t.minibars[r].scanCount = 10 ∧
          (∀ i, i < 8 → t.minibars[r].requested.getLsbD i = decide (i < m.trayCount)) ∧
          t.minibars[r].trays = m.trays ∧ t.minibars[r].charge = m.charge ∧
          (s.BindingInv → t.minibars[r].pending = pendingAfter ∧ (s.HasRoom 1 → s.Admits t lost)) ∧
          ∀ k c, s.minibarDropOf r = some (k, c) →
            t.Sends k { addr := c, msg := .scanAll, asker := .minibarUnit } ∨
              (t.drop k c).owed = some { msg := .scanAll, asker := .minibarUnit }) ∧
      (m.state = .scanning →
        ∃ t, exec (.doorState l 1 bolt egress) s = .next t ∧ t.rooms = s.rooms ∧
          t.minibars = s.minibars.set r { m with
            state := .opened, opener := none, deadline := none, purpose := none, latchMark := false, requested := 0, scanCount := 0
            collected := Vector.replicate 8 none, pending := t.minibars[r].pending
            onClose := some (if m.purpose = some .host then .afterClose else m.purpose.getD .afterClose) } ∧
          (s.BindingInv → t.minibars[r].pending = pendingAfter ∧ (s.HasRoom 3 → s.Admits t (lost ++
            [{ kind := .minibarForced, place := place, room := r.val, value := 2 },
             { kind := .minibarFault, place := place, room := r.val, reason := 4, subject := m.charge, value := m.unread }]))) ∧
          (∀ k c, s.minibarDropOf r = some (k, c) →
            t.Sends k { addr := c, msg := .stopScan, asker := .minibarUnit } ∨
              (t.drop k c).owed = some { msg := .stopScan, asker := .minibarUnit }) ∧
          (m.purpose ≠ some .host → t.held = s.held) ∧
          ∀ h, m.purpose = some .host → s.heldBy (.minibarUnit r) = some h →
            t.Ended h.block .minibarBusy ∧ t.resultAt h.block 0 1 = 0 ∧ t.resultAt h.block 1 1 = m.unread)

/-! ## Bindings and setups of the door lines (chapter 8) -/

/-- DROP_SET (R135, R136, R49): a field out of range is refused BAD_PARAM, a bound address or a room that has a drop of the kind
DROP_CONFLICT, an unbind of an unbound address NOT_NEEDED. A BIND writes the binding and the open time (0 keeps the stored one, above 25 is
25). A drop that is ABSENT or SILENT keeps its presence, and a DOOR or GATE gets a record that knows nothing; one PRESENT whose reported
kind matches stays PRESENT, its record LATCHED, or HELD for a gate of a held zone, to which HOLD is queued or owed (R14), and a minibar on a
running line comes within reach, LOCKED, a stay-start mark that is set applied (R103, R120); one whose kind differs is MISMATCH, with
DROP_MISMATCH. An UNBIND removes the binding and its record, and takes a minibar out of reach, with the entries, the report and the ends of
orders that R104 names; LATCH is queued or owed to a gate of a held zone (R14); a MISMATCH drop is then PRESENT, with DROP_PRESENT. Other
drops keep theirs. That DROP_MISMATCH and DROP_PRESENT show no reported kind here is the model's reading (log 28), and that the entries of
an unbound minibar show the drop's place its choice (log 37). -/
def Obligations.DropSetBinds : Prop :=
  ∀ (s : State) (b : Fin 16) (h : Held), s.ServesNow b .dropSet h → s.LineInv → s.BindingInv → s.ReachInv →
    let p := h.params
    let range (k : Nat) : Prop := (leAt p 3 1 = 1 ∧ k < 48) ∨ (leAt p 3 1 = 2 ∧ k < 8) ∨ (leAt p 3 1 = 3 ∧ k < 48)
    (2 ≤ leAt p 0 1 ∨ leAt p 1 1 = 0 ∨ 64 ≤ leAt p 1 1 ∨ 2 ≤ leAt p 2 1 ∨ (leAt p 2 1 = 0 ∧ ¬ range (leAt p 4 1)) →
      ∃ u, exec (.dropSet b) s = .next u.settle ∧ s.Refuses u b .badParam) ∧
    ∀ (l : Fin 2) (a : Fin 64), leAt p 0 1 = l.val → leAt p 1 1 = a.val → a ≠ 0 →
      let d := s.drop l a
      (∀ g : Binding, leAt p 2 1 = 0 →
        ((∃ r : Fin 48, g = .door r ∧ leAt p 3 1 = 1 ∧ leAt p 4 1 = r.val) ∨
          (∃ z : Fin 8, g = .gate z ∧ leAt p 3 1 = 2 ∧ leAt p 4 1 = z.val) ∨
          ∃ r : Fin 48, g = .minibar r ∧ leAt p 3 1 = 3 ∧ leAt p 4 1 = r.val) →
        let taken : Prop := d.binding.isSome = true ∨
          (g.shownRoom.isSome = true ∧ ∃ (k : Fin 2) (c : Fin 64), (s.drop k c).binding = some g)
        let openTime := if leAt p 5 1 = 0 then d.openTime else min (leAt p 5 1) 25
        (taken → ∃ u, exec (.dropSet b) s = .next u.settle ∧ s.Refuses u b .dropConflict) ∧
        (¬ taken →
          ∃ t, exec (.dropSet b) s = .next t ∧ s.Completes t b .ok ∧ (t.drop l a).binding = some g ∧
            (t.drop l a).openTime = openTime ∧ t.resultAt b 0 1 = (t.drop l a).presence.code ∧ t.resultAt b 1 1 = openTime % 256 ∧
            (∀ (k : Fin 2) (c : Fin 64), (k, c) ≠ (l, a) → t.drop k c = s.drop k c) ∧
            t.beyondLines = ({ s with engine := t.engine } : State).beyondLines ∧
            (d.presence = .absent ∨ d.presence = .silent →
              (t.drop l a).presence = d.presence ∧ t.journal = s.journal ∧ t.minibars = s.minibars ∧
              (t.drop l a).door = if g.hasDoor then some DoorSide.unknown else none) ∧
            (d.presence = .present → d.reported = some g.kindCode →
              (t.drop l a).presence = .present ∧
              ((t.drop l a).door = if g.hasDoor then
                some { DoorSide.unknown with latch := if s.gateHeld (some g) then .held else .latched } else none) ∧
              (s.gateHeld (some g) = true → t.Sends l { addr := a, msg := .hold, asker := .zoneTable } ∨
                (t.drop l a).owed = some { msg := .hold, asker := .zoneTable }) ∧
              (∀ r, g = .minibar r → s.lines[l].state = .run → s.minibars[r].state = .offline →
                t.minibars[r] = (s.minibars[r].cleared .locked).marked)) ∧
            (d.presence = .present → d.reported ≠ some g.kindCode →
              (t.drop l a).presence = .mismatch ∧
              s.Asks t { kind := .dropMismatch, place := 128 * l.val + a.val
                         room := (g.shownRoom.map Fin.val).getD 255, value := 1 * 256 } ∧
              t.byte (0xA80 + 64 * l.val + a.val) = 3))) ∧
      (leAt p 2 1 = 1 → d.binding = none → ∃ u, exec (.dropSet b) s = .next u.settle ∧ s.Refuses u b .notNeeded) ∧
      (leAt p 2 1 = 1 → d.binding.isSome = true → d.presence ≠ .mismatch →
        ∃ t, exec (.dropSet b) s = .next t ∧ t.Ended b .ok ∧ (t.drop l a).binding = none ∧ (t.drop l a).door = none ∧
          (t.drop l a).openTime = d.openTime ∧ (t.drop l a).presence = d.presence ∧
          t.beyondLines = ({ s with engine := t.engine } : State).beyondLines ∧
          (∀ (k : Fin 2) (c : Fin 64), (k, c) ≠ (l, a) → t.drop k c = s.drop k c) ∧
          (∀ r, d.binding = some (.minibar r) → t.minibars[r].state = .offline ∧
            (s.minibars[r].state ≠ .offline → s.OutOfReach t r s.minibars[r]) ∧
            let losses := s.lossEntries r s.minibars[r] (128 * l.val + a.val)
            (s.HasRoom losses.length → s.Admits t losses)) ∧
          (s.gateHeld d.binding = true → t.Sends l { addr := a, msg := .latch, asker := .zoneTable } ∨
            (t.drop l a).owed = some { msg := .latch, asker := .zoneTable })) ∧
      (leAt p 2 1 = 1 → d.binding.isSome = true → d.presence = .mismatch →
        ∃ t, exec (.dropSet b) s = .next t ∧ t.Ended b .ok ∧
          t.drop l a = { d with binding := none, door := none, presence := .present, owed := (t.drop l a).owed } ∧
          (s.gateHeld d.binding = false → (t.drop l a).owed = d.owed) ∧
          t.resultAt b 0 1 = 1 ∧ t.resultAt b 1 1 = d.openTime % 256 ∧ t.byte (0xA80 + 64 * l.val + a.val) = 1 ∧
          t.minibars = s.minibars ∧ t.beyondLines = ({ s with engine := t.engine } : State).beyondLines ∧
          (∀ (k : Fin 2) (c : Fin 64), (k, c) ≠ (l, a) → t.drop k c = s.drop k c) ∧
          (s.gateHeld d.binding = false ∨ (∀ q ∈ s.lines[l].queue, q.addr ≠ a) →
            s.Asks t { kind := .dropPresent, place := 128 * l.val + a.val, value := 3 * 256 }) ∧
          (s.gateHeld d.binding = true → t.Sends l { addr := a, msg := .latch, asker := .zoneTable } ∨
            (t.drop l a).owed = some { msg := .latch, asker := .zoneTable }))

/-- LINE_SETUP (R125, R137): ranges first (BAD_PARAM), then the rate's 2% (BAD_RATE), then the state (LINE_STATE outside OFF and READY). Taken,
the framing, the
retry limit, the wake flag, the rate with its divisor and the poll table are written; the current rate and everything else stay. -/
def Obligations.LineSetupWritesTheSetup : Prop :=
  ∀ (s : State) (b : Fin 16) (h : Held), s.ServesNow b .lineSetup h →
    let p := h.params
    let rate := leAt p 6 4
    let length := leAt p 5 1
    let first := leAt p 10 1
    let count := leAt p 11 1
    let sets (i : Nat) : Prop := first ≤ i ∧ i < first + count
    let addr (i : Nat) : Nat := leAt p (12 + (i - first)) 1
    let good (old : List (Fin 64)) : Prop :=
      300 ≤ rate ∧ rate ≤ 230400 ∧ leAt p 1 1 ≤ 4 ∧ (leAt p 2 1 = 1 ∨ leAt p 2 1 = 2) ∧ leAt p 3 1 ≤ 3 ∧ length ≤ 128 ∧ count ≤ 24 ∧
      (count = 0 ∨ first + count ≤ length) ∧ (∀ i, sets i → 1 ≤ addr i ∧ addr i ≤ 63) ∧
      ∀ i, i < length → old.length ≤ i → sets i
    let divisor := (14745600 + 8 * rate) / (16 * rate) - 1
    let sent := 16 * (divisor + 1) * rate
    let far : Prop := sent < 50 * (14745600 - sent) ∨ sent < 50 * (sent - 14745600)
    (2 ≤ leAt p 0 1 → ∃ t, exec (.lineSetup b) s = .next t ∧ s.Refuses t b .badParam) ∧
    ∀ l : Fin 2, leAt p 0 1 = l.val →
      let x := s.lines[l]
      (¬ good x.setup.table → ∃ t, exec (.lineSetup b) s = .next t ∧ s.Refuses t b .badParam) ∧
      (good x.setup.table → far → ∃ t, exec (.lineSetup b) s = .next t ∧ s.Refuses t b .badRate) ∧
      (good x.setup.table → ¬ far → x.state ≠ .off → x.state ≠ .ready →
        ∃ t, exec (.lineSetup b) s = .next t ∧ s.Refuses t b .lineState) ∧
      (good x.setup.table → ¬ far → x.state = .off ∨ x.state = .ready →
        ∃ t, exec (.lineSetup b) s = .next t ∧ s.Completes t b .ok ∧
          t.records = ({ s with lines := s.lines.set l { x with setup := t.lines[l].setup } } : State).records ∧
          t.journal = s.journal ∧ t.lines[l].setup.rate = rate ∧ t.lines[l].setup.divisor = divisor ∧
          Parity.ofCode (leAt p 1 1) = some t.lines[l].setup.parity ∧ t.lines[l].setup.stopBits = leAt p 2 1 ∧
          t.lines[l].setup.retryLimit = leAt p 3 1 ∧ t.lines[l].setup.wakeFlag = (p.getD 4 0).getLsbD 0 ∧
          t.lines[l].setup.table.length = length ∧
          (∀ i, i < length → (sets i → (t.lines[l].setup.table[i]?).map Fin.val = some (addr i)) ∧
            (¬ sets i → t.lines[l].setup.table[i]? = x.setup.table[i]?)) ∧
          t.resultAt b 0 2 = divisor ∧ t.resultAt b 4 4 = 14745600 / (16 * (divisor + 1)) ∧
          s.KeepsBytes t fun y => ofResult b y ∨ ofSiteMirror y)

/-! ## The journal (chapter 10) -/

/-- R155: a request admits a GAP entry first when lost requests are to be told and the queue is below 28; a ROUTINE request is admitted
below 28 and an ALARM request below 32, and one not admitted is counted; an admitted entry takes the next number, joins the tail, and an
ALARM entry sets ALARM; the site mirror is rewritten once, with the queue length and the gap count, when either has changed, and a lost
request that changes neither leaves no trace; the queue keeps its bounds. The entry carries the request, the minute and the second (R154).
An admission with nothing FILLING makes the search of R160, which takes up the first ARMED descriptor with good bounds after the cursor and
writes BAD those with bad bounds before it; JOURNAL is set for one of these, and as the no-room signal when the queue comes to 16 entries
with nothing FILLING (R165); otherwise no descriptor, no cursor and no JOURNAL changes. -/
def Obligations.RequestsAreAdmittedOrCounted : Prop :=
  ∀ (s : State) (q : Request),
    let t := s.admitRequest q
    let long := s.journal.queue.length
    let limit := if q.kind ∈ [EntryKind.emergencyEntry, .doorForced, .doorHeld, .minibarForced, .lineFault] then 32 else 28
    let gapFirst : Prop := 0 < s.journal.gap ∧ long < 28
    let entry (seq : Nat) : Entry :=
      { sequence := seq, minute := s.clock.minute, second := s.clock.second, kind := q.kind, place := q.place, room := q.room
        reason := q.reason, subject := q.subject, value := q.value }
    let gapEntry : Entry :=
      { sequence := s.journal.sequence, minute := s.clock.minute, second := s.clock.second, kind := .gap, place := 255, room := 255
        reason := 0, subject := 0, value := s.journal.gap }
    let next := (s.journal.sequence + 1) % 65536
    (gapFirst → long + 1 < limit → t.journal.queue = s.journal.queue ++ [gapEntry, entry next] ∧ t.journal.gap = 0 ∧
      t.journal.sequence = (next + 1) % 65536) ∧
    (gapFirst → limit ≤ long + 1 → t.journal.queue = s.journal.queue ++ [gapEntry] ∧ t.journal.gap = 1 ∧
      t.journal.sequence = next) ∧
    (¬ gapFirst → long < limit → t.journal.queue = s.journal.queue ++ [entry s.journal.sequence] ∧
      t.journal.gap = s.journal.gap ∧ t.journal.sequence = next) ∧
    (¬ gapFirst → limit ≤ long → t.journal.queue = s.journal.queue ∧ t.journal.gap = min (s.journal.gap + 1) 65535 ∧
      t.journal.sequence = s.journal.sequence) ∧
    (limit = 32 → (t.cause.getLsbD 2 = true ↔ s.cause.getLsbD 2 = true ∨ long < 32)) ∧
    (limit = 28 → t.cause.getLsbD 2 = s.cause.getLsbD 2) ∧
    (t.journal.queue.length ≠ s.journal.queue.length ∨ t.journal.gap ≠ s.journal.gap →
      (t.byte 0x45C).toNat = t.journal.queue.length % 256 ∧ t.field 0x45E 2 = t.journal.gap % 65536 ∧
      t.siteCount = s.siteCount + 2 ∧ t.field 0x440 2 = t.siteCount.toNat) ∧
    (t.journal.queue.length = s.journal.queue.length → t.journal.gap = s.journal.gap → t = s) ∧
    (s.journal.filling = none → t.journal.queue ≠ s.journal.queue → s.Searches t) ∧
    (s.journal.filling ≠ none ∨ t.journal.queue = s.journal.queue → s.NoSearch t) ∧
    (∀ i, i ≠ 1 → i ≠ 2 → t.cause.getLsbD i = s.cause.getLsbD i) ∧
    (s.JournalInv → t.JournalInv) ∧ t.records = s.records ∧ t.held = s.held ∧ t.engine = s.engine ∧
    s.KeepsBytes t fun x => ofDescriptors x ∨ ofSiteMirror x

/-- JOURNAL_WRITE (R161, R162): the oldest entry's sixteen bytes are written at the buffer's next place, with its number in the descriptor
and the raised written count; it leaves the queue. An ALARM entry under CUT_ON_ALARM ends the descriptor ALARM_CUT, a full buffer ends it
FULL: the end status, the minute and ENDED are written, and JOURNAL is set (R165). While entries remain a search follows, from the
descriptor after the cursor on (R160): the first ARMED one with good bounds is taken up, and those with bad bounds before it are BAD; with
none remaining nothing is FILLING. With nothing FILLING, or nothing queued, the command does nothing. -/
def Obligations.JournalWritesTheOldestEntry : Prop :=
  (∀ s : State, s.journal.filling = none ∨ s.journal.queue = [] → exec .journalWrite s = .next s) ∧
  ∀ (s : State) (f : Filling) (e : Entry) (rest : List Entry), s.MemoryInv → s.ClockInv → s.journal.filling = some f →
    s.journal.queue = e :: rest →
    let at_ := 0x400 + 16 * f.index.val
    let place := f.offset + 16 * f.written
    let cut : Prop := e.kind.isAlarm = true ∧ f.cutOnAlarm = true
    let full : Prop := f.capacity = f.written + 1
    ∃ t, exec .journalWrite s = .next t ∧ t.journal.queue = rest ∧ t.journal.gap = s.journal.gap ∧
      t.journal.sequence = s.journal.sequence ∧
      t.field place 2 = e.sequence % 65536 ∧ t.field (place + 2) 3 = e.minute % 16777216 ∧
      t.field (place + 5) 1 = e.second % 256 ∧ t.field (place + 6) 1 = e.kind.code ∧ t.field (place + 7) 1 = e.place % 256 ∧
      t.field (place + 8) 1 = e.room % 256 ∧ t.field (place + 9) 1 = e.reason % 256 ∧
      t.field (place + 10) 4 = e.subject % 4294967296 ∧ t.field (place + 14) 2 = e.value % 65536 ∧
      t.field (at_ + 10) 2 = e.sequence % 65536 ∧ t.field (at_ + 6) 2 = (f.written + 1) % 65536 ∧
      (f.written = 0 → t.field (at_ + 8) 2 = e.sequence % 65536) ∧
      (¬ cut → ¬ full → t.journal.filling = some { f with
        written := f.written + 1, lastSeq := e.sequence, firstSeq := if f.written = 0 then e.sequence else f.firstSeq } ∧
        t.byte at_ = s.byte at_ ∧ t.cause = s.cause) ∧
      (cut ∨ full → (∀ g, t.journal.filling = some g → g.index ≠ f.index) ∧ t.byte at_ = 3 ∧
        t.field (at_ + 13) 3 = s.clock.minute ∧ t.cause.getLsbD 1 = true ∧ (cut → t.byte (at_ + 12) = 2) ∧
        (¬ cut → t.byte (at_ + 12) = 1) ∧
        (rest ≠ [] → (s.store at_ [3]).LooksFor t) ∧
        (rest = [] → t.journal.filling = none ∧ t.journal.cursor = s.journal.cursor ∧
          ∀ x, ofDescriptors x → (x < at_ ∨ at_ + 16 ≤ x) → t.byte x = s.byte x)) ∧
      t.records = s.records ∧ t.held = s.held ∧ t.engine = s.engine ∧
      s.KeepsBytes t fun x => (place ≤ x ∧ x < place + 16) ∨ ofDescriptors x ∨ ofSiteMirror x

/-- JOURNAL_CUT (R163): a descriptor field out of range is refused BAD_PARAM, with the result data of the other results. With nothing
FILLING, or another descriptor FILLING than the one named, the order is NOT_NEEDED and changes nothing. A FILLING descriptor with nothing
written, for which entries then wait, returns to ARMED, and a search follows (R160): from the descriptor after the cursor on, the first
ARMED one with good bounds is taken up, and an ARMED one passed over for bad bounds is BAD, with JOURNAL set; the order is NOT_NEEDED. One
with entries ends CUT_BY_ORDER, OK, and while entries remain in the queue the same search follows. The result shows the descriptor that was
FILLING, with the sequences the Journal Writer wrote there, or, with nothing written, those that stand in its bytes in shared RAM, before
the order as after it. That it is the former alone, whatever the host has written over them, once an entry is written, is the model's choice
(log 30). -/
def Obligations.JournalCutEndsTheDescriptor : Prop :=
  ∀ (s : State) (b : Fin 16) (h : Held), s.ServesNow b .journalCut h → s.ClockInv → s.JournalInv →
    let n := leAt h.params 0 1
    let outOfRange : Prop := 4 ≤ n ∧ n ≠ 255
    (s.journal.filling = none →
      let refused (res : Result) : Prop :=
        ∃ t, exec (.journalCut b) s = .next t ∧ s.Refuses t b res ∧ t.resultAt b 0 1 = 255 ∧
          t.resultAt b 1 1 = s.journal.queue.length % 256 ∧ t.resultAt b 8 2 = s.journal.gap % 65536
      (outOfRange → refused .badParam) ∧ (¬ outOfRange → refused .notNeeded)) ∧
    ∀ f, s.journal.filling = some f →
      let at_ := 0x400 + 16 * f.index.val
      let refused (res : Result) : Prop :=
        ∃ t, exec (.journalCut b) s = .next t ∧ s.Refuses t b res ∧
          t.resultAt b 0 1 = f.index.val ∧ t.resultAt b 1 1 = s.journal.queue.length % 256 ∧
          t.resultAt b 2 2 = f.written % 65536 ∧ t.resultAt b 8 2 = s.journal.gap % 65536 ∧
          (f.written = 0 → t.resultAt b 4 2 = s.field (at_ + 8) 2 ∧ t.resultAt b 6 2 = s.field (at_ + 10) 2) ∧
          (f.written ≠ 0 → t.resultAt b 4 2 = f.firstSeq % 65536 ∧ t.resultAt b 6 2 = f.lastSeq % 65536)
      (outOfRange → refused .badParam) ∧ (n < 4 → n ≠ f.index.val → refused .notNeeded) ∧
      (n = f.index.val ∨ n = 255 → f.written = 0 →
        let turn (i : Fin 4) : Fin 4 := s.journal.cursor + 1 + i
        let state (k : Fin 4) : Nat := 0x400 + 16 * k.val
        let capacity (k : Fin 4) : Nat := s.field (state k + 2) 2
        let offset (k : Fin 4) : Nat := s.field (state k + 4) 2
        let armed (k : Fin 4) : Prop := k = f.index ∨ s.byte (state k) = 1
        let good (k : Fin 4) : Prop := 1 ≤ capacity k ∧ capacity k ≤ 1792 ∧ offset k % 16 = 0 ∧ 0x1000 ≤ offset k ∧
          offset k ≤ 0x7FF0 ∧ offset k + 16 * capacity k ≤ 0x8000
        let passedBad (i : Fin 4) : Prop := armed (turn i) ∧ ¬ good (turn i)
        let looksPast (t : State) (i : Fin 4) : Prop :=
          (passedBad i → t.byte (state (turn i)) = 4) ∧ (¬ armed (turn i) → t.byte (state (turn i)) = s.byte (state (turn i)))
        ∃ t, exec (.journalCut b) s = .next t ∧ t.Ended b .notNeeded ∧ t.resultAt b 0 1 = f.index.val ∧ t.resultAt b 2 2 = 0 ∧
          t.resultAt b 1 1 = s.journal.queue.length % 256 ∧ t.resultAt b 8 2 = s.journal.gap % 65536 ∧
          t.resultAt b 4 2 = t.field (at_ + 8) 2 ∧ t.resultAt b 6 2 = t.field (at_ + 10) 2 ∧
          (∀ k : Fin 4, ∀ i, 8 ≤ i → i < 12 → t.byte (state k + i) = s.byte (state k + i)) ∧
          t.records = s.records ∧ s.KeepsBytes t (fun x => ofResult b x ∨ ofDescriptors x) ∧
          (∀ i : Fin 4, armed (turn i) → good (turn i) → (∀ j, j < i → ¬(armed (turn j) ∧ good (turn j))) →
            t.journal = { s.journal with
              cursor := turn i
              filling := some { index := turn i, cutOnAlarm := (s.byte (state (turn i) + 1)).getLsbD 0, capacity := capacity (turn i)
                                offset := offset (turn i), written := 0, firstSeq := 0, lastSeq := 0 } } ∧
            t.byte (state (turn i)) = 2 ∧ t.field (state (turn i) + 6) 2 = 0 ∧ t.field (state (turn i) + 12) 4 = 0 ∧
            (∀ j, j < i → looksPast t j) ∧
            (∀ j, i < j → t.byte (state (turn j)) = if turn j = f.index then 1 else s.byte (state (turn j))) ∧
            (t.cause.getLsbD 1 = true ↔ s.cause.getLsbD 1 = true ∨ ∃ j, j < i ∧ passedBad j)) ∧
          ((∀ i : Fin 4, ¬(armed (turn i) ∧ good (turn i))) →
            t.journal = { s.journal with filling := none } ∧ (∀ j, looksPast t j) ∧ t.cause.getLsbD 1 = true)) ∧
      (n = f.index.val ∨ n = 255 → f.written ≠ 0 →
        ∃ t, exec (.journalCut b) s = .next t ∧ t.Ended b .ok ∧ t.byte at_ = 3 ∧ t.byte (at_ + 12) = 3 ∧
          t.field (at_ + 13) 3 = s.clock.minute ∧ t.cause.getLsbD 1 = true ∧ t.journal.queue = s.journal.queue ∧
          t.resultAt b 0 1 = f.index.val ∧ t.resultAt b 2 2 = f.written % 65536 ∧ t.resultAt b 4 2 = f.firstSeq % 65536 ∧
          t.resultAt b 6 2 = f.lastSeq % 65536 ∧ t.resultAt b 1 1 = s.journal.queue.length % 256 ∧
          t.resultAt b 8 2 = s.journal.gap % 65536 ∧ t.records = s.records ∧
          (s.journal.queue ≠ [] → (s.store at_ [3]).LooksFor t) ∧
          (s.journal.queue = [] → t.journal.filling = none ∧ t.journal.cursor = s.journal.cursor) ∧
          s.KeepsBytes t fun x => ofResult b x ∨ ofDescriptors x)

/-- CANCEL (R173, R87): a block out of range is refused BAD_PARAM, and shown as named; a block with no held order NOT_ACTIVE, found as 0;
its own block NOT_CANCELLABLE; an order in the table engine's list, and one waiting at the encoder, completes CANCELLED before the CANCEL,
which is OK; a running encoder order is marked, OK; an order handed on to the Room Table, the Minibar Unit or a line is NOT_CANCELLABLE and
goes on. That a block out of range is found as 0 is the model's reading (log 11). The code D1 for its own block is free (log 10). The result
data of the order withdrawn from the engine's list is 0 by the model's choice (log 48). -/
def Obligations.CancelWithdrawsOrders : Prop :=
  ∀ (s : State) (b : Fin 16) (h : Held), s.ServesNow b .cancel h → s.HeldInv →
    (16 ≤ leAt h.params 0 1 → ∃ t, exec (.cancel b) s = .next t ∧ s.Refuses t b .badParam ∧ t.resultAt b 0 1 = leAt h.params 0 1 ∧
      t.resultAt b 1 1 = 0) ∧
    (leAt h.params 0 1 = b.val → ∃ t, exec (.cancel b) s = .next t ∧ t.Ended b .notCancellable ∧ t.resultAt b 0 1 = b.val ∧
      t.journal = s.journal ∧ { t with freeCount := s.freeCount }.records = s.records ∧ t.held = s.held.filter fun g => decide (g.block ≠ b)) ∧
    ∀ k : Fin 16, leAt h.params 0 1 = k.val → k ≠ b →
      (s.heldIn k = none → ∃ t, exec (.cancel b) s = .next t ∧ s.Refuses t b .notActive ∧ t.resultAt b 0 1 = k.val ∧ t.resultAt b 1 1 = 0) ∧
      (∀ g, s.heldIn k = some g → g.owner = .engine →
        ∃ t, exec (.cancel b) s = .next t ∧ t.Ended b .ok ∧ t.Ended k .cancelled ∧ t.records = s.records ∧ t.journal = s.journal ∧
          t.resultAt b 0 1 = k.val ∧ t.resultAt b 1 1 = 1 ∧ t.resultAt k 0 20 = 0 ∧
          s.KeepsBytes t fun x => ofResult b x ∨ ofResult k x) ∧
      (∀ g o, s.heldIn k = some g → g.owner = .encoder → (s.encoder.waiting.find? fun w => decide (w.block = k)) = some o →
        ∃ t, exec (.cancel b) s = .next t ∧ t.Ended b .ok ∧ t.Ended k .cancelled ∧
          t.encoder = { s.encoder with waiting := s.encoder.waiting.filter fun w => decide (w.block ≠ k) } ∧
          t.rooms = s.rooms ∧ t.journal = s.journal ∧ t.resultAt b 1 1 = (if o.paused then 3 else 2)) ∧
      (∀ g o, s.heldIn k = some g → g.owner = .encoder → (∀ w ∈ s.encoder.waiting, w.block ≠ k) →
        s.encoder.running = some o → o.block = k →
        ∃ t, exec (.cancel b) s = .next t ∧ s.Completes t b .ok ∧
          t.records = ({ s with encoder := { s.encoder with running := some { o with cancelMark := true } } } : State).records ∧
          t.resultAt b 1 1 = 4) ∧
      (∀ g, s.heldIn k = some g → g.owner ≠ .engine → g.owner ≠ .encoder →
        ∃ t, exec (.cancel b) s = .next t ∧ s.Refuses t b .notCancellable ∧ t.resultAt b 1 1 = 5)

/-! ## The states of a line (chapter 9) -/

/-- LINE_GO posted alone and not carried on (R144): BAD_PARAM for a line or a target out of range, then BUSY, then LINE_STATE, each changing
nothing but its block; OFF taken in OFF completes OK at once. The result data of each that names a line holds the line's state and current rate;
that of one that names none is 0 by the model's reading (log 11). That the command posts the order and sets the latch is its form (log 12). -/
def Obligations.LineGoIsJudged : Prop :=
  ∀ (s : State) (b : Fin 16) (prio : Byte) (p : List Byte), s.CanPost b → p.length = 40 →
    let target := leAt p 1 1
    let ends (res : Result) (data : State → Prop) : Prop :=
      ∃ t, exec (.lineGo b prio p) s = .next t ∧ t.byte (64 * b.val) = 4 ∧ t.byte (64 * b.val + 1) = byteOf res.code ∧
        t.cause.getLsbD 0 = true ∧ t.lines = s.lines ∧ t.held = s.held ∧ t.rooms = s.rooms ∧ t.minibars = s.minibars ∧
        t.journal.queue = s.journal.queue ∧ data t
    (2 ≤ leAt p 0 1 → ends .badParam fun t => ∀ i, i < 20 → t.byte (64 * b.val + 44 + i) = 0) ∧
    ∀ l : Fin 2, leAt p 0 1 = l.val →
      let x := s.lines[l]
      let shows (t : State) : Prop := t.resultAt b 0 1 = x.state.code ∧ t.resultAt b 4 4 = x.rate % 4294967296
      (target ∉ [0, 1, 2, 3, 4, 7] → ends .badParam shows) ∧ (target ∈ [0, 1, 2, 3, 4, 7] →
      let busy : Prop := x.state = .survey ∨ x.state = .wake ∨ x.mark.isSome = true
      let taken : Prop :=
        (target = 0 ∧ x.state ∈ [LineState.ready, .run, .hush, .fault, .off]) ∨ (target = 1 ∧ x.state ∈ [LineState.off, .fault]) ∨
        ((target = 2 ∨ target = 7) ∧ x.state = .ready) ∨ (target = 3 ∧ x.state ∈ [LineState.ready, .hush]) ∨
        (target = 4 ∧ x.state = .run)
      (busy → ends .busy shows) ∧ (¬ busy → ¬ taken → ends .lineState shows) ∧
      (¬ busy → target = 0 → x.state = .off → ends .ok shows))

/-- LINE_GO taken (9.2, R144 to R149, R152). OFF to READY and READY to RUN complete at once, with a LINE_STATE entry of cause 1; entering
RUN resets pointer and round count, places the owed marks, lowest address first, until 16 places are full or none is left (R140), brings the
minibars of PRESENT drops within reach, LOCKED with a stay-start mark that is set applied, and polls the first position. READY to SURVEY
sends RATE with divisor 95; HUSH to RUN sends the wake break; FAULT to READY watches the line. RUN to HUSH sends QUIET, and both HUSH and
OFF wait for an open exchange. OFF leaves every drop ABSENT and the base rate, and disposes of the queue: it is empty, each waiting HOLD or
LATCH is owed, each waiting OPEN is discarded, its grant pending no more, with GRANT_UNDELIVERED of cause 3, and DENY, SCAN_TRAYS and
STOP_SCAN are dropped (R63, R110, R142); the line's minibars go out of reach (R104), and LINE_STATE is asked for last (R143). OFF in OFF
completes and changes nothing of the line. An order that has not ended is held and its block TAKEN. That a line entering RUN begins its
first exchange in the same step is the model's form (log 24); the order of the entries of OFF before LINE_STATE is its choice (logs 22, 44).
-/
def Obligations.LineGoFollowsItsCourse : Prop :=
  ∀ (s : State) (b : Fin 16) (prio : Byte) (p : List Byte) (l : Fin 2), s.CanPost b → s.LineInv → p.length = 40 →
    leAt p 0 1 = l.val → s.lines[l].mark = none →
    let x := s.lines[l]
    let goes (target : Nat) (after : State → Prop) : Prop :=
      leAt p 1 1 = target → ∃ t, exec (.lineGo b prio p) s = .next t ∧ (∀ k, k ≠ l → t.lines[k] = s.lines[k]) ∧ after t
    let entry (new : Nat) : Request :=
      { kind := .lineState, place := 128 * l.val, reason := 1, subject := x.rate, value := new * 256 + x.state.code }
    let marked (target : Target) : Line := { x with mark := some { block := b, target := target } }
    let goesOn (t : State) : Prop := t.HeldFor b (.line l) ∧ t.byte (64 * b.val) = 2
    let ended (t : State) : Prop :=
      t.Ended b .ok ∧ t.resultAt b 0 1 = t.lines[l].state.code ∧ t.resultAt b 4 4 = t.lines[l].rate % 4294967296
    let stops (t : State) : Prop := s.EntersOff t l [lineRequest l .off x.state 1 9600] ∧ ended t
    (x.state = .off → goes 0 fun t => t.lines[l] = x ∧ t.journal.queue = s.journal.queue ∧ ended t) ∧
    (x.state = .off → goes 1 fun t =>
      t.lines[l] = { x with state := .ready, activity := .idle } ∧ s.Asks t (entry 1) ∧ ended t) ∧
    (x.state = .ready → goes 3 fun t =>
      t.lines[l].state = .run ∧ t.lines[l].mark = none ∧ s.Asks t (entry 3) ∧ ended t ∧
      (∀ (a : Fin 64) (r : Fin 48), a ≠ 0 → (s.drop l a).binding = some (.minibar r) → (s.drop l a).presence = .present →
        s.minibars[r].state = .offline → t.minibars[r] = (s.minibars[r].cleared .locked).marked) ∧ s.PlacesOwed t l ∧
      ∀ (a : Fin 64) (rest : List (Fin 64)), x.setup.table = a :: rest → x.returning = none → (∀ c, (s.drop l c).owed = none) →
        t.lines[l].activity = .exchange { addr := a, msg := .poll, retries := x.setup.retryLimit } ∧
        t.lines[l].pointer = (if rest = [] then 0 else 1) ∧ t.lines[l].round = if rest = [] then 1 else 0) ∧
    (x.state = .ready → ∀ target ∈ [(2, Target.survey), (7, .surveyRun)], goes target.1 fun t =>
      t.lines[l] = { marked target.2 with state := .survey, activity := .rateWindow 9600 95 false, returning := none } ∧
      s.Asks t (entry 2) ∧ goesOn t) ∧
    (x.state = .hush → goes 3 fun t =>
      t.lines[l] = { marked .run with state := .wake, activity := .wakeBreak } ∧ s.Asks t (entry 5) ∧ goesOn t) ∧
    (x.state = .fault → goes 1 fun t =>
      t.lines[l] = { marked .ready with activity := .watch } ∧ t.journal.queue = s.journal.queue ∧ goesOn t) ∧
    (x.state = .run → x.activity ≠ .idle → ∀ target ∈ [(0, Target.off), (4, .hush)], goes target.1 fun t =>
      t.lines[l] = marked target.2 ∧ t.journal.queue = s.journal.queue ∧ goesOn t) ∧
    (x.state = .run → x.activity = .idle → goes 4 fun t =>
      t.lines[l] = { marked .hush with activity := .quietWindow } ∧ t.journal.queue = s.journal.queue ∧ goesOn t) ∧
    ((x.state = .run ∧ x.activity = .idle) ∨ x.state ∈ [LineState.ready, .hush, .fault] → goes 0 stops)

/-- The survey chooses its rate when address 63 has been probed, by an IDENT or by a final failure (R148): with a drop PRESENT, every
PRESENT drop fast-capable and another configured rate than 9600, RATE is broadcast with the divisor of that rate, and the line goes on in
SURVEY; otherwise it keeps the rate and enters READY, or RUN for a SURVEY_RUN, and the order completes OK with the counts. The silent window
of a broadcast ends (R128). After RATE the line moves to the rate sent: the survey then probes address 1, or, when the probes are over,
enters READY, or RUN for a SURVEY_RUN, where owed marks are placed (R140), and the order completes OK with the counts of PRESENT and
MISMATCH drops and the rate (R147, R148). After QUIET the line enters HUSH: its queue is empty, each waiting HOLD or LATCH is owed and the
marks that stood are kept, each waiting OPEN is discarded, its grant pending no more, with GRANT_UNDELIVERED of cause 3, its minibars go out
of reach with the entries, reports and ends of orders of R104, the drops keep their presence and the line its rate, LINE_STATE is asked for
last, and the order completes OK (R63, R110, R142, R143, R145, R150). The order of the entries before LINE_STATE is the model's choice (logs
22, 44); that a survey with no LINE_GO enters READY with cause 4 is too, in states no run reaches (log 29). -/
def Obligations.BroadcastWindowEnds : Prop :=
  ∀ (s : State) (l : Fin 2), s.LineInv →
    let x := s.lines[l]
    (∀ rate divisor, x.activity = .rateWindow rate divisor false →
      ∃ t, exec (.broadcastWindowEnd l) s = .next t ∧
        t.lines[l] = { x with
          rate := rate, divisor := divisor, activity := .exchange { addr := 1, msg := .identify, retries := 1 } } ∧
        (rate ≠ x.rate → t.field (0x44E + 8 * l.val) 4 = rate % 4294967296) ∧ t.journal = s.journal ∧ t.held = s.held) ∧
    (∀ (rate divisor : Nat) (m : GoMark), x.activity = .rateWindow rate divisor true → x.mark = some m →
      ∃ t, exec (.broadcastWindowEnd l) s = .next t ∧ t.lines[l].rate = rate ∧ t.lines[l].divisor = divisor ∧
        t.lines[l].state = (if m.target = .surveyRun then .run else .ready) ∧ t.lines[l].mark = none ∧ t.Ended m.block .ok ∧
        t.resultAt m.block 0 1 = t.lines[l].state.code ∧ t.resultAt m.block 1 1 = x.count .present ∧
        t.resultAt m.block 2 1 = x.count .mismatch ∧ t.resultAt m.block 4 4 = rate % 4294967296 ∧
        s.Asks t { kind := .lineState, place := 128 * l.val, reason := 1, subject := rate
                   value := t.lines[l].state.code * 256 + 2 } ∧
        (m.target = .surveyRun → s.PlacesOwed t l) ∧
        ∀ (a : Fin 64) (r : Fin 48), a ≠ 0 → m.target = .surveyRun → (s.drop l a).binding = some (.minibar r) →
          (s.drop l a).presence = .present → s.minibars[r].state = .offline →
          t.minibars[r] = (s.minibars[r].cleared .locked).marked) ∧
    (∀ m : GoMark, x.activity = .quietWindow → x.mark = some m →
      ∃ t, exec (.broadcastWindowEnd l) s = .next t ∧ t.lines[l].state = .hush ∧ t.lines[l].mark = none ∧
        s.LeavesRun t l [lineRequest l .hush .run 1 x.rate] ∧
        t.lines[l].activity = .idle ∧ t.lines[l].rate = x.rate ∧ t.Ended m.block .ok ∧
        t.resultAt m.block 0 1 = 4 ∧ t.resultAt m.block 4 4 = x.rate % 4294967296 ∧
        (∀ a : Fin 64, (t.drop l a).presence = (s.drop l a).presence ∧ (t.drop l a).miss = (s.drop l a).miss ∧
          (t.drop l a).binding = (s.drop l a).binding ∧ (s.BindingInv → (t.drop l a).door = s.doorLeft l a)) ∧
        ∀ (a : Fin 64) (r : Fin 48), a ≠ 0 → (s.drop l a).binding = some (.minibar r) → t.minibars[r].state = .offline) ∧
    ∀ (n : Nat) (kind fast : Byte) (c : Instr), x.state = .survey → x.activity = .exchange { addr := 63, msg := .identify, retries := n } →
      c = .ident l kind fast ∨ (n = 0 ∧ c = .replyWindowExpiry l) →
      (∀ r, (s.drop l 63).binding = some (.minibar r) → s.minibars[r].state = .offline) →
      ∃ t, exec c s = .next t ∧ t.lines[l].setup = x.setup ∧ t.lines[l].rate = x.rate ∧ t.lines[l].divisor = x.divisor ∧
        let present (a : Fin 64) : Prop := a ≠ 0 ∧ (t.drop l a).presence = .present
        let fastest : Prop := (∃ a, present a) ∧ (∀ a, present a → (t.drop l a).fast = true) ∧ x.setup.rate ≠ 9600
        (fastest → t.lines[l].state = .survey ∧ t.lines[l].mark = x.mark ∧ t.held = s.held ∧
          t.lines[l].activity = .rateWindow x.setup.rate x.setup.divisor true) ∧
        (¬ fastest → t.lines[l].mark = none ∧
          t.lines[l].state = (if x.mark.map GoMark.target = some .surveyRun then .run else .ready) ∧
          (c = .replyWindowExpiry l → (s.drop l 63).presence = .absent → s.Asks t
            { kind := .lineState, place := 128 * l.val, reason := if x.mark.isSome = true then 1 else 4, subject := x.rate
              value := t.lines[l].state.code * 256 + 2 }) ∧
          ∀ m, x.mark = some m → t.Ended m.block .ok ∧ t.resultAt m.block 0 1 = t.lines[l].state.code ∧
            t.resultAt m.block 1 1 = t.lines[l].count .present ∧ t.resultAt m.block 2 1 = t.lines[l].count .mismatch ∧
            t.resultAt m.block 4 4 = x.rate % 4294967296)

/-- Wake and watch (R146, R151, R152). A break of at least 1 ms that ends on a line in HUSH admits WAKE_REQUEST; with the wake flag set the
line enters WAKE with cause 2 and LINE is set. After the 20 ms break the line settles; after the settle it enters RUN, for a LINE_GO with
cause 1, which completes OK, and on its own with cause 4; owed marks are placed, lowest address first (R140), and minibars of PRESENT drops
come within reach. A clean watch out of FAULT enters READY, and the order completes OK; a break in it leaves the line in FAULT, with no
entry, and the order ends LINE_FAULT. -/
def Obligations.LinesWakeAndLeaveFault : Prop :=
  ∀ (s : State) (l : Fin 2), s.LineInv →
    let x := s.lines[l]
    let entry (reason new left : Nat) : Request :=
      { kind := .lineState, place := 128 * l.val, reason := reason, subject := x.rate, value := new * 256 + left }
    let asked (n value : Nat) : Request := { kind := .wakeRequest, place := 128 * l.val, subject := n, value := value }
    (∀ n, x.state ≠ .hush ∨ n = 0 → exec (.wakeRequest l n) s = .next s) ∧
    (∀ n, x.state = .hush → 1 ≤ n → n < 100 →
      (x.setup.wakeFlag = false →
        ∃ t, exec (.wakeRequest l n) s = .next t ∧ t.records = s.records ∧ s.Asks t (asked n 0) ∧ t.held = s.held ∧
          s.CausesAfter t 0) ∧
      (x.setup.wakeFlag = true →
        ∃ t, exec (.wakeRequest l n) s = .next t ∧
          t.records = (s.setLine l { x with state := .wake, activity := .wakeBreak }).records ∧ t.held = s.held ∧
          s.CausesAfter t 0x0008 ∧ (s.HasRoom 2 → s.Admits t [asked n 1, entry 2 5 4]))) ∧
    (x.activity = .wakeBreak → exec (.wakeBreakEnd l) s = .next (s.setLine l { x with activity := .wakeSettle })) ∧
    (x.activity = .wakeSettle →
      ∃ t, exec (.wakeSettleEnd l) s = .next t ∧ t.lines[l].state = .run ∧ t.lines[l].mark = none ∧ t.lines[l].rate = x.rate ∧
        s.Asks t (entry (if x.mark.isSome then 1 else 4) 3 5) ∧ (∀ m, x.mark = some m → t.Ended m.block .ok) ∧ s.PlacesOwed t l ∧
        ∀ (a : Fin 64) (r : Fin 48), a ≠ 0 → (s.drop l a).binding = some (.minibar r) → (s.drop l a).presence = .present →
          s.minibars[r].state = .offline → t.minibars[r] = (s.minibars[r].cleared .locked).marked) ∧
    ∀ m, x.activity = .watch → x.mark = some m →
      (∃ t, exec (.faultWatchEnd l) s = .next t ∧ s.Completes t m.block .ok ∧
        t.records = (s.setLine l { x with state := .ready, activity := .idle, mark := none }).records ∧
        s.Asks t (entry 1 1 6)) ∧
      ∃ t, exec (.faultWatchBreak l) s = .next t ∧ s.Completes t m.block .lineFault ∧
        t.records = (s.setLine l { x with activity := .idle, mark := none }).records ∧ t.journal = s.journal

/-- A break that reaches 100 ms in SURVEY, RUN, HUSH or WAKE puts the line in FAULT (R153): nothing is open, PRESENT drops are SILENT with
miss count 3, the others keep their presence, door-side records of the lost drops know nothing, their minibars go out of reach with the
entries, reports and ends of orders of R104, and LINE is set. The queue is disposed of, the message in exchange first (R142): it is empty, a
HOLD or LATCH is owed, that in exchange only where no mark stood, an OPEN is discarded, its grant pending no more, with GRANT_UNDELIVERED of
cause 3, one for each pending grant (R63, R110), and DENY, SCAN_TRAYS and STOP_SCAN are dropped. The rate and the round count stay. The
LINE_FAULT entry comes after those, and outside RUN it is the only one asked for. A LINE_GO in progress ends LINE_FAULT, but one to OFF goes
on, and the line is OFF as R145 says, with its LINE_STATE entry. In the other states nothing happens. The order of the effects is the
model's (logs 22, 44). That in SURVEY the drops of an earlier survey which the probes have not reached are made SILENT too, by R153, where
R147 says that they keep their presence, is its choice (log 36). -/
def Obligations.LongBreakMakesAFault : Prop :=
  ∀ (s : State) (l : Fin 2), s.LineInv → s.BindingInv → s.ReachInv →
    let x := s.lines[l]
    (x.state ∈ [LineState.off, .ready, .fault] → exec (.longBreak l) s = .next s) ∧
    (x.state ∈ [LineState.survey, .run, .hush, .wake] →
      let fault := lineRequest l .fault x.state 3 x.rate
      ∃ t, exec (.longBreak l) s = .next t ∧ (∀ k, k ≠ l → t.lines[k] = s.lines[k]) ∧ t.cause.getLsbD 3 = true ∧
        t.lines[l].activity = .idle ∧ t.lines[l].queue = [] ∧ t.lines[l].mark = none ∧
        (∀ (a : Fin 64) (r : Fin 48), a ≠ 0 → (s.drop l a).binding = some (.minibar r) → (s.drop l a).presence = .present →
          t.minibars[r].state = .offline) ∧
        ((∀ m, x.mark = some m → m.target ≠ .off) →
          t.lines[l].state = .fault ∧ t.lines[l].rate = x.rate ∧ t.lines[l].divisor = x.divisor ∧
          t.lines[l].round = x.round ∧ s.LeavesRun t l [fault] ∧ (∀ m, x.mark = some m → t.Ended m.block .lineFault) ∧
          (∀ a : Fin 64, a ≠ 0 →
            ((s.drop l a).presence = .present → (t.drop l a).presence = .silent ∧ (t.drop l a).miss = 3 ∧
              (t.drop l a).door = (s.doorLeft l a).map DoorSide.unseen) ∧
            ((s.drop l a).presence ≠ .present → (t.drop l a).presence = (s.drop l a).presence ∧
              (t.drop l a).miss = (s.drop l a).miss ∧ (t.drop l a).door = s.doorLeft l a)) ∧
          (x.state ≠ .run → s.Asks t fault)) ∧
        ∀ m, x.mark = some m → m.target = .off → s.EntersOff t l [fault, lineRequest l .off .fault 1 9600] ∧ t.Ended m.block .ok)

/-! ## Exchanges of a door line (chapter 8) -/

/-- A reply is complete when its length byte, the payload that byte announces and the sum have come; until then its characters are kept
(R129). An attempt fails when no complete reply comes in time, or when the complete one has a character in error, a bad sum, no mark of a
drop, another address, a kind that the message does not accept or a length that is not its kind's (R127); a good one is taken as the reply
it spells. A character is in error when its parity bit does not match the line's parity, a stop bit is spacing or it has overrun (R124);
what EVEN, ODD, MARK and SPACE mean is presumed (log 34). With a retry left the same message is sent again (R129). With none left, an
exchange in RUN fails finally: the miss count rises, and at three a PRESENT or MISMATCH drop becomes SILENT, with DROP_SILENT and the drop
mirror (R130, R132), and a minibar goes out of reach with what R104 names; the IDENTIFY of a returning drop leaves it as it was and drops
its report (R131). A directed message leaves the queue, and owed marks take the free places, lowest address first (R140). An OPEN of the
Door Decision Unit ends its pending grant with GRANT_UNDELIVERED, cause 2 (R63), and so does one of the Minibar Unit, a GRANTED minibar with
no deadline becoming LOCKED, a stay-start mark that is set applied (R110, R120); while a newer OPEN to the drop waits, neither is told
(R140). A LATCH of the Minibar Unit starts the final scan while the final LATCH mark is set (R122). A probe of a survey makes the drop
ABSENT and the next address is probed (R147). That BAD_REPLY brings any characters, that later ones than a complete reply's are discarded,
and that a named reply after other characters is read with them, are the model's form (log 25); that a failed probe keeps the reported kind
is its reading (log 28). -/
def Obligations.FailedAttemptsAreRepeated : Prop :=
  ∀ (s : State) (l : Fin 2) (x : Exchange) (head : LineChar) (tail : List LineChar), s.LineInv →
    s.lines[l].activity = .exchange x → s.lines[l].mark = none ∨ s.lines[l].state = .survey →
    let u := s.lines[l].setup
    let run := x.received ++ head :: tail
    let announced := ((run.map LineChar.data).getD 2 0).toNat
    let complete : Prop := 4 + announced ≤ run.length
    let heard := run.take (4 + announced)
    let bytes := heard.map LineChar.data
    let payload := (bytes.drop 3).take announced
    let first := (bytes.getD 0 0).toNat
    let inError (c : LineChar) : Prop :=
      let ones := ((List.range 8).filter fun i => c.data.getLsbD i).length
      (u.parity = .even ∧ c.parity ≠ decide (ones % 2 = 1)) ∨ (u.parity = .odd ∧ c.parity ≠ decide (ones % 2 = 0)) ∨
      (u.parity = .mark ∧ c.parity = false) ∨ (u.parity = .space ∧ c.parity = true) ∨ c.stop1 = false ∨
      (u.stopBits = 2 ∧ c.stop2 = false) ∨ c.overrun = true
    let lengthFits (k : ReplyKind) : Prop :=
      match k with
      | .nil | .ack => announced = 0
      | .cardRead => announced = 20
      | .doorState => announced = 3
      | .ident => announced = 2
      | .trayData => ∃ n, 1 ≤ n ∧ n ≤ 8 ∧ announced = 2 + 2 * n ∧ (payload.getD 1 0).toNat = n
    let good (k : ReplyKind) : Prop := complete ∧ (∀ c ∈ heard, ¬ inError c) ∧ (bytes.map BitVec.toNat).sum % 256 = 0 ∧
      128 ≤ first ∧ first % 64 = x.addr.val ∧ bytes[1]? = some k.code ∧ x.msg.accepts k = true ∧ lengthFits k
    let hears (y : Exchange) : State := s.setLine l { s.lines[l] with activity := .exchange y }
    (¬ complete → exec (.badReply l head tail) s = .next (hears { x with received := run })) ∧
    (∀ k, good k → exec (.badReply l head tail) s = exec ((k.withPayload payload).row l) (hears { x with received := [] })) ∧
    (∀ r : Reply, (x.replyBytes r).map (soundChar u.parity) = head :: tail → x.received ≠ [] →
      exec (r.row l) s = exec (.badReply l head tail) s) ∧
    ∀ c, c = .replyWindowExpiry l ∨ (c = .badReply l head tail ∧ complete ∧ ∀ k, ¬ good k) →
    let d := s.drop l x.addr
    let lost : Prop := d.presence = .present ∨ d.presence = .mismatch
    (0 < x.retries →
      ∃ t, exec c s = .next t ∧ t.lines[l] = { s.lines[l] with activity := .exchange { x with retries := x.retries - 1, received := [] } } ∧
        t.journal = s.journal ∧ t.cause = s.cause) ∧
    (x.retries = 0 → s.lines[l].state = .run → x.msg = .poll →
      (d.miss < 2 ∨ ¬ lost →
        ∃ t, exec c s = .next t ∧ t.drop l x.addr = { d with miss := min (d.miss + 1) 3 } ∧ t.journal = s.journal ∧
          t.minibars = s.minibars) ∧
      (2 ≤ d.miss → lost →
        ∃ t, exec c s = .next t ∧ (t.drop l x.addr).presence = .silent ∧ (t.drop l x.addr).miss = 3 ∧
          (t.drop l x.addr).binding = d.binding ∧ t.byte (0xA80 + 64 * l.val + x.addr.val) = 2 ∧
          ((∀ r, d.binding ≠ some (.minibar r)) → s.Asks t
            { kind := .dropSilent, place := 128 * l.val + x.addr.val
              room := match d.binding with
                | some (.door r) => r.val
                | _ => 255
              value := d.presence.code * 256 }) ∧
          (∀ r, d.binding = some (.minibar r) → t.minibars[r].state = .offline ∧
            (s.minibars[r].state ≠ .offline → s.OutOfReach t r s.minibars[r]) ∧
            let losses := s.lossEntries r s.minibars[r] (128 * l.val + x.addr.val)
            let silent : Request := { kind := .dropSilent, place := 128 * l.val + x.addr.val, room := r.val, value := d.presence.code * 256 }
            (s.HasRoom (1 + losses.length) → s.Admits t (silent :: losses))) ∧
          (∀ side, (d.binding.any Binding.hasDoor) = true → d.door = some side →
            ∃ e, (t.drop l x.addr).door = some e ∧ e.leaf = .unknown ∧ e.bolt = .unknown ∧ e.latch = .unknown ∧
              e.deadline = none ∧ e.timer = false ∧ e.pending = side.pending))) ∧
    let newer : Prop := s.lines[l].newerOpen x.addr
    (x.retries = 0 → s.lines[l].state = .run → ∀ q, x.msg = .directed q → q.msg ≠ .latch ∨ q.asker ≠ .minibarUnit →
      ∃ t, exec c s = .next t ∧ s.PlacesOwed t l) ∧
    (x.retries = 0 → s.lines[l].state = .run → d.miss < 2 → newer → ∀ (n : Nat) (asker : Asker),
      x.msg = .directed { addr := x.addr, msg := .openLock n, asker := asker } →
      ∃ t, exec c s = .next t ∧ (t.drop l x.addr).door = d.door ∧ t.minibars = s.minibars ∧ t.journal = s.journal) ∧
    (x.retries = 0 → s.lines[l].state = .run → d.miss < 2 → ¬ newer → ∀ (n : Nat) (side : DoorSide) (g : Grant),
      x.msg = .directed { addr := x.addr, msg := .openLock n, asker := .doorUnit } → d.door = some side → side.pending = some g →
      ∃ t, exec c s = .next t ∧ (t.drop l x.addr).door = some side.withoutGrant ∧
        s.Asks t (g.lostEntry (128 * l.val + x.addr.val) 2)) ∧
    (x.retries = 0 → s.lines[l].state = .run → x.msg = .identify → d.presence = .absent ∨ d.presence = .silent →
      ∃ t, exec c s = .next t ∧ t.drop l x.addr = { d with miss := min (d.miss + 1) 3 } ∧ t.lines[l].returning = none ∧
        t.journal = s.journal ∧ t.minibars = s.minibars ∧ t.rooms = s.rooms) ∧
    (∀ r : Fin 48, x.retries = 0 → s.lines[l].state = .run → d.miss < 2 → d.binding = some (.minibar r) →
      let m := s.minibars[r]
      (∀ (n : Nat) (g : Grant), x.msg = .directed { addr := x.addr, msg := .openLock n, asker := .minibarUnit } → m.pending = some g →
        ¬ newer →
        ∃ t, exec c s = .next t ∧ t.minibars = s.minibars.set r m.withoutGrant ∧ t.rooms = s.rooms ∧
          s.Asks t (g.lostEntry (128 * l.val + x.addr.val) 2)) ∧
      (x.msg = .directed { addr := x.addr, msg := .latch, asker := .minibarUnit } →
        (m.latchMark = false →
          ∃ t, exec c s = .next t ∧ t.minibars = s.minibars ∧ t.journal = s.journal ∧ s.PlacesOwed t l) ∧
        (m.latchMark = true → m.state = .granted → 1 ≤ m.trayCount → m.trayCount ≤ 8 →
          ∃ t, exec c s = .next t ∧ t.minibars[r].state = .scanning ∧ t.minibars[r].purpose = some .final ∧
            t.minibars[r].latchMark = false ∧ t.minibars[r].deadline = none ∧ t.minibars[r].scanCount = 10 ∧
            (∀ i, i < 8 → t.minibars[r].requested.getLsbD i = decide (i < m.trayCount)) ∧ t.minibars[r].trays = m.trays ∧
            (s.BindingInv → m.pending = none ∨ ¬ newer → t.journal = s.journal) ∧
            ∀ k a, s.minibarDropOf r = some (k, a) →
              t.Sends k { addr := a, msg := .scanAll, asker := .minibarUnit } ∨
                (t.drop k a).owed = some { msg := .scanAll, asker := .minibarUnit }))) ∧
    (x.retries = 0 → s.lines[l].state = .survey → x.addr.val < 63 →
      (∀ r, d.binding = some (.minibar r) → s.minibars[r].state = .offline) →
      ∃ t, exec c s = .next t ∧ (t.drop l x.addr).presence = .absent ∧ (t.drop l x.addr).miss = 0 ∧ t.minibars = s.minibars ∧
        (t.drop l x.addr).reported = d.reported ∧ t.journal = s.journal ∧
        t.lines[l].activity = .exchange { addr := x.addr + 1, msg := .identify, retries := 1 })

/-- Replies to a POLL (R130, R131). NIL from a PRESENT or MISMATCH drop makes its miss count 0 and nothing else of it changes; from an
ABSENT or SILENT one, as any good reply, it has the line make an IDENTIFY exchange with the drop next. DOOR_STATE from a PRESENT door or
gate is taken by R66 and R67: the record, with DOOR_FORCED or DOOR_HELD_END when the tables admit them; a door or bolt byte outside its
codes has the report dropped (R179). Where a LINE_GO to OFF waits for the exchange, the line enters OFF at its end, its queue disposed of by
R142; where one to HUSH waits, QUIET is broadcast (R145). That the next exchange begins in the same step is the model's form (log 24); the
order of the entries of OFF before LINE_STATE is its choice (logs 22, 44). -/
def Obligations.PollRepliesAreTaken : Prop :=
  (∀ (s : State) (l : Fin 2) (a : Fin 64) (n : Nat), s.LineInv → s.Exchanging l { addr := a, msg := .poll, retries := n } →
    let d := s.drop l a
    (d.presence = .present ∨ d.presence = .mismatch →
      ∃ t, exec (.nil l) s = .next t ∧ t.drop l a = { d with miss := 0 } ∧ t.journal = s.journal ∧ t.minibars = s.minibars) ∧
    (d.presence = .absent ∨ d.presence = .silent →
      ∀ c ∈ [Instr.nil l, .doorState l 0 0 0],
        ∃ t, exec c s = .next t ∧ t.drop l a = { d with miss := 0 } ∧ t.journal = s.journal ∧
          t.lines[l].activity = .exchange { addr := a, msg := .identify, retries := s.lines[l].setup.retryLimit } ∧
          t.lines[l].returning.map Returning.addr = some a)) ∧
  (∀ (s : State) (l : Fin 2) (a : Fin 64) (b : Binding) (d : DoorSide) (door bolt egress : Byte), s.LineInv → b.hasDoor = true →
    s.Polling l a b d →
    let newLeaf : Leaf := if door = 1 then .opened else .closed
    let newBolt : Bolt := if bolt = 1 then .engaged else .free
    let begins : Prop := d.leaf ≠ .opened ∧ door = 1
    let ends : Prop := d.leaf = .opened ∧ door = 0
    let after : DoorSide := { d with
      leaf := newLeaf, bolt := newBolt
      latch := if begins ∧ d.latch = .granted then .latched else d.latch
      deadline := if begins ∧ d.latch = .granted then none else d.deadline
      timer := if ends then false else if begins ∧ d.latch ≠ .held then true else d.timer
      heldCount := if ends ∨ (begins ∧ d.latch ≠ .held) then 0 else d.heldCount
      alarm := if ends ∨ (begins ∧ d.latch ≠ .held) then false else d.alarm }
    let entry (kind : EntryKind) (value : Nat) : Request :=
      { kind := kind, place := 128 * l.val + a.val
        room := match b with
          | .door r => r.val
          | _ => 255
        value := value }
    (door = 0 ∨ door = 1 → bolt = 0 ∨ bolt = 1 →
      ∃ t, exec (.doorState l door bolt egress) s = .next t ∧
        t.drop l a = { s.drop l a with miss := 0, door := some after } ∧
        (begins ∧ d.latch = .latched ∧ egress = 0 → s.Asks t (entry .doorForced 0)) ∧
        (ends ∧ d.alarm = true → s.Asks t (entry .doorHeldEnd d.heldCount)) ∧
        (¬(begins ∧ d.latch = .latched ∧ egress = 0) → ¬(ends ∧ d.alarm = true) → t.journal.queue = s.journal.queue)) ∧
    (1 < door ∨ 1 < bolt →
      ∃ t, exec (.doorState l door bolt egress) s = .next t ∧ t.drop l a = { s.drop l a with miss := 0 } ∧
        t.journal = s.journal)) ∧
  ∀ (s : State) (l : Fin 2) (a : Fin 64) (n : Nat) (m : GoMark), s.LineInv → s.lines[l].state = .run → s.lines[l].mark = some m →
    s.lines[l].activity = .exchange { addr := a, msg := .poll, retries := n } →
    (s.drop l a).presence = .present ∨ (s.drop l a).presence = .mismatch →
    (m.target = .off →
      ∃ t, exec (.nil l) s = .next t ∧ s.EntersOff t l [lineRequest l .off .run 1 9600] ∧ t.Ended m.block .ok) ∧
    (m.target = .hush →
      ∃ t, exec (.nil l) s = .next t ∧ t.drop l a = { s.drop l a with miss := 0 } ∧ t.journal = s.journal ∧ t.held = s.held ∧
        t.lines[l] = { s.lines[l] with activity := .quietWindow, drops := t.lines[l].drops })

/-- IDENT judges the presence by the table of R131, for a returning drop in RUN and for a probe in SURVEY (R147): the reported kind and the
fast-capable flag are kept,
the miss count is 0, the entry of a change is asked for, the drop mirror shows it, and a door-side record that becomes PRESENT is LATCHED, or
HELD for a gate
of a held zone (R48), to which HOLD is queued or owed (R14). In SURVEY the next address is probed. A report held for a returning drop is delivered
after its owner has been told (R131 to R133): a DOOR_STATE is taken by R66, and the GUEST card of a CARD_READ at a room's door is decided, here
granted, or refused UNBOUND_DROP when the drop is in MISMATCH (R51). That a kind byte that names no kind is kept and shown as it came is the
model's choice (log 45). -/
def Obligations.IdentJudgesThePresence : Prop :=
  (∀ (s : State) (l : Fin 2) (a : Fin 64) (n : Nat) (kind fast : Byte) (report : Report) (b : Binding) (side : DoorSide),
    s.LineInv → s.BindingInv → s.ReachInv → s.lines[l].queue = [] → s.Exchanging l { addr := a, msg := .identify, retries := n } →
    let d := s.drop l a
    d.presence = .absent ∨ d.presence = .silent → s.lines[l].returning = some { addr := a, report := some report } →
    d.binding = some b → d.door = some side → d.owed = none → s.HasRoom 2 →
    let place := 128 * l.val + a.val
    let room := (b.shownRoom.map Fin.val).getD 255
    let back (entry : EntryKind) : Request := { kind := entry, place := place, room := room, value := d.presence.code * 256 + kind.toNat }
    let told : DoorSide := { side with
      latch := if s.gateHeld (some b) then .held else .latched
      deadline := none, timer := false, heldCount := 0, alarm := false }
    (∀ door bolt egress : Byte, report = .doorState door bolt egress → kind.toNat = b.kindCode → side.leaf ≠ .opened →
      bolt = 0 ∨ bolt = 1 →
      let newBolt : Bolt := if bolt = 1 then .engaged else .free
      (door = 0 → ∃ t, exec (.ident l kind fast) s = .next t ∧ s.Admits t [back .dropPresent] ∧
        (t.drop l a).door = some { told with leaf := .closed, bolt := newBolt }) ∧
      (door = 1 → s.gateHeld (some b) = false →
        ∃ t, exec (.ident l kind fast) s = .next t ∧
          (t.drop l a).door = some { told with leaf := .opened, bolt := newBolt, timer := true } ∧
          s.Admits t (back .dropPresent :: if egress = 0 then [{ kind := .doorForced, place := place, room := room }] else []))) ∧
    (∀ (card : List Byte) (r : Fin 48), report = .cardRead card → b = .door r → card.length = 20 →
      (kind.toNat = 1 → cardClass card = 1 → s.decides b side.bolt card = none →
        let seconds := d.openTime
        ∃ t, exec (.ident l kind fast) s = .next t ∧ t.Sends l { addr := a, msg := .openLock seconds, asker := .doorUnit } ∧
          (t.drop l a).door = some { told with
            latch := .granted
            pending := some { cls := .guest, serial := cardSerial card, seconds := seconds, room := r.val } } ∧
          s.Admits t [back .dropPresent,
            { kind := .grant, place := place, room := r.val, reason := 1, subject := cardSerial card, value := seconds }] ∧
          t.rooms = s.rooms.set r { s.rooms[r] with lastGrant := some s.clock.minute }) ∧
      (kind.toNat ≠ 1 → side.pending = none →
        ∃ t, exec (.ident l kind fast) s = .next t ∧ t.Sends l { addr := a, msg := .deny 4, asker := .doorUnit } ∧
          s.Admits t [back .dropMismatch,
            { kind := .deny, place := place, room := r.val, reason := 19, subject := cardSerial card, value := 4 * 256 }] ∧
          t.rooms = s.rooms))) ∧
  ∀ (s : State) (l : Fin 2) (a : Fin 64) (n : Nat) (kind fast : Byte), s.LineInv → s.BindingInv → s.ReachInv → s.lines[l].queue = [] →
    s.lines[l].activity = .exchange { addr := a, msg := .identify, retries := n } →
    let d := s.drop l a
    let back : Prop := s.lines[l].state = .run ∧ s.lines[l].mark = none ∧ (d.presence = .absent ∨ d.presence = .silent) ∧
      s.lines[l].returning = some { addr := a, report := none }
    let probed : Prop := s.lines[l].state = .survey ∧ a.val < 63
    back ∨ probed →
      let left := d.presence
      let matching : Prop := ∀ b, d.binding = some b → kind.toNat = b.kindCode
      let entry : EntryKind :=
        match d.binding with
        | none => .unboundDrop
        | some b => if kind.toNat = b.kindCode then .dropPresent else .dropMismatch
      ∃ t, exec (.ident l kind fast) s = .next t ∧
        (t.drop l a).reported = some kind.toNat ∧ (t.drop l a).fast = decide (fast ≠ 0) ∧ (t.drop l a).miss = 0 ∧
        (t.drop l a).binding = d.binding ∧ (matching → (t.drop l a).presence = .present) ∧
        (¬ matching → (t.drop l a).presence = .mismatch) ∧
        ((t.drop l a).presence ≠ left →
          t.byte (0xA80 + 64 * l.val + a.val) = byteOf (t.drop l a).presence.code ∧
          s.Asks t
            { kind := entry, place := 128 * l.val + a.val
              room := ((d.binding.bind Binding.shownRoom).map Fin.val).getD 255
              value := left.code * 256 + kind.toNat } ∧
          ∀ side, d.door = some side → matching → (t.drop l a).door = some { side with
            latch := if s.gateHeld d.binding then .held else .latched
            deadline := none, timer := false, heldCount := 0, alarm := false }) ∧
        ((t.drop l a).presence ≠ left → matching → s.gateHeld d.binding = true →
          t.Sends l { addr := a, msg := .hold, asker := .zoneTable } ∨
            (t.drop l a).owed = some { msg := .hold, asker := .zoneTable }) ∧
        ((t.drop l a).presence = left → t.journal = s.journal ∧ (t.drop l a).door = d.door) ∧
        (probed → t.lines[l].activity = .exchange { addr := a + 1, msg := .identify, retries := 1 })

/-- ACK ends a directed exchange with success. The OPEN of a door: the pending grant is taken away, and under GRANTED the open window runs
from here (R62). The OPEN of a minibar: the same (R110). While a newer OPEN to the drop waits, neither is told, and the grant stays pending
(R140). The LATCH that a CHECKOUT queued for a GRANTED minibar starts the final scan of every tray, while the final LATCH mark is set
(R122); with the mark clear its report is dropped. A DENY, HOLD, SCAN_TRAYS or STOP_SCAN, and a LATCH of the zone table, is reported to no
one. The message has left the queue, and owed marks take the free places at its end, lowest address first, until 16 are full or none is left
(R140). -/
def Obligations.AckDeliversTheMessage : Prop :=
  ∀ (s : State) (l : Fin 2) (m : QMsg) (n : Nat), s.LineInv →
    s.Exchanging l { addr := m.addr, msg := .directed m, retries := n } → (s.drop l m.addr).presence = .present →
    let newer : Prop := s.lines[l].newerOpen m.addr
    (∀ (seconds : Nat) (d : DoorSide) (g : Grant), m.msg = .openLock seconds → m.asker = .doorUnit → ¬ newer →
      (s.drop l m.addr).door = some d → d.pending = some g →
      ∃ t, exec (.ack l) s = .next t ∧
        (t.drop l m.addr).door = some { d with
          pending := none, deadline := if d.latch = .granted then some g.seconds else d.deadline } ∧
        t.journal = s.journal ∧ t.minibars = s.minibars) ∧
    (∀ (seconds : Nat) (r : Fin 48) (g : Grant), m.msg = .openLock seconds → m.asker = .minibarUnit → ¬ newer →
      (s.drop l m.addr).binding = some (.minibar r) → s.minibars[r].pending = some g →
      let x := s.minibars[r]
      ∃ t, exec (.ack l) s = .next t ∧
        t.minibars = s.minibars.set r { x with
          pending := none, deadline := if x.state = .granted then some g.seconds else x.deadline } ∧
        t.journal = s.journal) ∧
    (∀ seconds : Nat, m.msg = .openLock seconds → newer →
      ∃ t, exec (.ack l) s = .next t ∧ (t.drop l m.addr).door = (s.drop l m.addr).door ∧ t.minibars = s.minibars ∧
        t.journal = s.journal) ∧
    (∀ r : Fin 48, m.msg = .latch → m.asker = .minibarUnit → (s.drop l m.addr).binding = some (.minibar r) →
      let x := s.minibars[r]
      (x.latchMark = true → x.state = .granted → 1 ≤ x.trayCount → x.trayCount ≤ 8 →
        ∃ t, exec (.ack l) s = .next t ∧ t.minibars[r].state = .scanning ∧ t.minibars[r].purpose = some .final ∧
          t.minibars[r].latchMark = false ∧ t.minibars[r].deadline = none ∧ t.minibars[r].scanCount = 10 ∧
          (∀ i, i < 8 → t.minibars[r].requested.getLsbD i = decide (i < x.trayCount)) ∧
          t.minibars[r].trays = x.trays ∧ t.minibars[r].charge = x.charge ∧
          (s.BindingInv → x.pending = none ∨ ¬ newer → t.journal = s.journal) ∧
          ∀ k c, s.minibarDropOf r = some (k, c) →
            t.Sends k { addr := c, msg := .scanAll, asker := .minibarUnit } ∨
              (t.drop k c).owed = some { msg := .scanAll, asker := .minibarUnit }) ∧
      (x.latchMark = false →
        ∃ t, exec (.ack l) s = .next t ∧ t.minibars = s.minibars ∧ t.journal = s.journal ∧ s.PlacesOwed t l)) ∧
    (m.msg ≠ .latch ∨ m.asker ≠ .minibarUnit → ∃ t, exec (.ack l) s = .next t ∧ s.PlacesOwed t l) ∧
    ((∀ k, m.msg ≠ .openLock k) → m.msg ≠ .latch ∨ m.asker ≠ .minibarUnit →
      ∃ t, exec (.ack l) s = .next t ∧ (t.drop l m.addr).door = (s.drop l m.addr).door ∧ (t.drop l m.addr).miss = 0 ∧
        t.journal = s.journal ∧ t.minibars = s.minibars ∧ t.rooms = s.rooms)

/-! ## The decision on a read (chapter 4) -/

/-- A read at a PRESENT door or gate ends in the decision of R51 to R57. Granted with the latch not HELD, on a drop that takes a message:
OPEN is queued with the open time, in the place of a waiting OPEN or DENY or at the end of the queue (R65, R139), the latch is GRANTED, the
grant is pending in the place of an earlier one, and GRANT, or EMERGENCY_ENTRY for an EMERGENCY card, is asked for (R60, R59); on a drop
that takes none (R139): nothing is queued, the record stays, the Room Table hears nothing, and GRANT_UNDELIVERED with cause 1 is asked for,
after the EMERGENCY_ENTRY of an EMERGENCY card, whose value is the model's choice (log 40). Granted at a HELD latch: the entry with 0
seconds, and the record stays (R61). A guest grant of an OCCUPIED room leaves its minute there (R24). Refused, with no grant pending: DENY
is queued with its class, in the place of a waiting OPEN or DENY or at the end, the DENY entry asked for, the record stays, and a DOOR
drop's room keeps the reason and the minute; with a grant pending, or on a drop that takes no message, DENY is not queued and the entry says
so (R58). A read of an unbound drop, or of one in MISMATCH, is refused UNBOUND_DROP with no evaluation (R51). That a guest card read in a
room VACANT after an advance and before its first copy record is refused by the order of R52, GENERATION_OLD or NOT_ISSUED, where R22 says
ROOM_STATE, is the model's choice (log 39); that an EMERGENCY card's zone mask is not read, by R56, where R12 has it pass gates subject to the
mask, is too (log 47). -/
def Obligations.ReadsAreDecided : Prop :=
  (∀ (s : State) (l : Fin 2) (a : Fin 64) (n : Nat) (card : List Byte), s.LineInv → card.length = 20 →
    s.Exchanging l { addr := a, msg := .poll, retries := n } →
    let d := s.drop l a
    (d.binding = none ∧ d.presence = .present) ∨ (d.presence = .mismatch ∧ d.binding.any Binding.hasDoor = true) →
    (∀ side, d.door = some side → side.pending = none) → s.takesMessage l a →
    ∃ t, exec (.cardRead l card) s = .next t ∧ t.lines[l].standing = s.lines[l].queueWith { addr := a, msg := .deny 4, asker := .doorUnit } ∧
      (t.drop l a).door = d.door ∧ t.rooms = s.rooms ∧ t.minibars = s.minibars ∧
      s.Asks t
        { kind := .deny, place := 128 * l.val + a.val, reason := 19, subject := cardSerial card, value := 4 * 256
          room := match d.binding with
            | some b => entryRoom b card
            | none => if cardRoom card < 48 then cardRoom card else 255 } ∧
      ∀ k : Fin 48, t.lastDeny[k] =
        if d.binding = some (.door k) then some { reason := .unboundDrop, minute := s.clock.minute } else s.lastDeny[k]) ∧
  ∀ (s : State) (l : Fin 2) (a : Fin 64) (b : Binding) (d : DoorSide) (card : List Byte), s.LineInv → b.hasDoor = true →
    s.Polling l a b d → card.length = 20 →
    let place := 128 * l.val + a.val
    let seconds := (s.drop l a).openTime
    let grant (n : Nat) : Request :=
      { kind := if cardClass card = 4 then .emergencyEntry else .grant, place := place, room := entryRoom b card
        reason := cardClass card, subject := cardSerial card, value := n }
    let guest (t : State) : Prop := ∀ k : Fin 48, t.rooms[k] =
      if cardClass card = 1 ∧ cardRoom card = k.val ∧ s.rooms[k].state = .occupied then
        { s.rooms[k] with lastGrant := some s.clock.minute } else s.rooms[k]
    (s.decides b d.bolt card = none → d.latch ≠ .held → s.takesMessage l a →
      ∃ t cls, exec (.cardRead l card) s = .next t ∧ CardClass.code cls = cardClass card ∧
        (t.drop l a).door = some { d with
          latch := .granted, deadline := if d.latch = .granted then d.deadline else none
          pending := some { cls := cls, serial := cardSerial card, seconds := seconds, room := entryRoom b card } } ∧
        t.lines[l].standing = s.lines[l].queueWith { addr := a, msg := .openLock seconds, asker := .doorUnit } ∧ s.Asks t (grant seconds) ∧ guest t ∧
        t.lastDeny = s.lastDeny) ∧
    (s.decides b d.bolt card = none → d.latch = .held →
      ∃ t, exec (.cardRead l card) s = .next t ∧ (t.drop l a).door = some d ∧ s.Asks t (grant 0) ∧ guest t ∧
        t.lines[l].standing = s.lines[l].queue ∧ t.lastDeny = s.lastDeny) ∧
    (s.decides b d.bolt card = none → d.latch ≠ .held → s.refusesMessage l a →
      let lost : Request := { kind := .grantUndelivered, place := place, room := entryRoom b card, reason := cardClass card
                              subject := cardSerial card, value := 1 }
      ∃ t, exec (.cardRead l card) s = .next t ∧ (t.drop l a).door = some d ∧ t.rooms = s.rooms ∧ t.lastDeny = s.lastDeny ∧
        t.lines[l].standing = s.lines[l].queue ∧ (cardClass card ≠ 4 → s.Asks t lost) ∧
        (cardClass card = 4 → s.HasRoom 2 → s.Admits t [grant seconds, lost])) ∧
    (∀ reason, s.decides b d.bolt card = some reason → d.pending.isSome = true ∨ s.refusesMessage l a →
      ∃ t, exec (.cardRead l card) s = .next t ∧ (t.drop l a).door = some d ∧ t.rooms = s.rooms ∧
        t.lines[l].standing = s.lines[l].queue ∧
        s.Asks t { kind := .deny, place := place, room := entryRoom b card, reason := reason.code, subject := cardSerial card
                   value := reason.cls * 256 + 1 } ∧
        ∀ k : Fin 48, t.lastDeny[k] =
          if b = .door k then some { reason := reason, minute := s.clock.minute } else s.lastDeny[k]) ∧
    ∀ reason, s.decides b d.bolt card = some reason → d.pending = none → s.takesMessage l a →
      ∃ t, exec (.cardRead l card) s = .next t ∧ (t.drop l a).door = some d ∧
        t.lines[l].standing = s.lines[l].queueWith { addr := a, msg := .deny reason.cls, asker := .doorUnit } ∧ t.rooms = s.rooms ∧
        s.Asks t { kind := .deny, place := place, room := entryRoom b card, reason := reason.code, subject := cardSerial card
                   value := reason.cls * 256 } ∧
        ∀ k : Fin 48, t.lastDeny[k] =
          if b = .door k then some { reason := reason, minute := s.clock.minute } else s.lastDeny[k]
end

