-- ==== Sys2Proof/Laws/Memory.lean ====
section
/-! SUPPORT. Shared RAM: what a byte reads after a write, and that every memory operation keeps the canonical form. -/

namespace Sys2Proof.Machine

open Sys2Proof

/-! ## Reading -/

theorem lookup_filter_key (p : Nat → Bool) (m : Memory) (x : Nat) :
    (m.filter fun c => p c.1).lookup x = if p x then m.lookup x else none := by
  induction m with
  | nil => simp
  | cons c cs ih =>
    obtain ⟨k, v⟩ := c
    by_cases hk : p k
    · by_cases hx : x = k
      · subst hx; simp [hk]
      · have hb : (x == k) = false := by simpa using hx
        simp [hk, List.lookup_cons, hb, ih]
    · have hk' : p k = false := by simpa using hk
      by_cases hx : x = k
      · subst hx; simp [hk', ih]
      · have hb : (x == k) = false := by simpa using hx
        simp [hk', List.lookup_cons, hb, ih]

theorem lookup_append_key (m n : Memory) (x : Nat) :
    (m ++ n).lookup x = (m.lookup x).or (n.lookup x) := by
  induction m with
  | nil => simp
  | cons c cs ih =>
    obtain ⟨k, v⟩ := c
    by_cases hx : x == k <;> simp [List.lookup_cons, hx, ih]

theorem lookup_cellsOf (a : Nat) (bs : List Byte) (x : Nat) :
    ((cellsOf a bs).lookup x).getD 0 = if a ≤ x then bs.getD (x - a) 0 else 0 := by
  induction bs generalizing a with
  | nil => simp [cellsOf]
  | cons b bs ih =>
    unfold cellsOf
    by_cases hb : b = 0
    · rw [if_pos hb, ih]
      by_cases h : a + 1 ≤ x
      · have h1 : x - a = (x - (a + 1)) + 1 := by omega
        rw [if_pos h, if_pos (by omega), h1]; simp
      · by_cases h2 : a ≤ x
        · have h3 : x - a = 0 := by omega
          rw [if_neg h, if_pos h2, h3]; simp [hb]
        · rw [if_neg h, if_neg h2]
    · rw [if_neg hb, List.lookup_cons]
      by_cases hx : x = a
      · subst hx; simp
      · have hf : (x == a) = false := by simpa using hx
        simp only [hf]
        rw [ih]
        by_cases h : a + 1 ≤ x
        · have h1 : x - a = (x - (a + 1)) + 1 := by omega
          rw [if_pos h, if_pos (by omega), h1]; simp
        · rw [if_neg h, if_neg (by omega)]

theorem lookup_cellsOf_none (a : Nat) (bs : List Byte) (x : Nat) (h : x < a ∨ a + bs.length ≤ x) :
    (cellsOf a bs).lookup x = none := by
  induction bs generalizing a with
  | nil => simp [cellsOf]
  | cons b bs ih =>
    simp only [List.length_cons] at h
    unfold cellsOf
    by_cases hb : b = 0
    · rw [if_pos hb]; exact ih _ (by omega)
    · have hf : (x == a) = false := by simp; omega
      rw [if_neg hb, List.lookup_cons, hf]
      exact ih _ (by omega)

/-- A byte inside the run written reads the byte written there. -/
theorem Memory.read_write_in (m : Memory) (a : Nat) (bs : List Byte) (x : Nat) (h1 : a ≤ x)
    (h2 : x < a + bs.length) : (m.write a bs).read x = bs.getD (x - a) 0 := by
  have hl := lookup_cellsOf a bs x
  rw [if_pos h1] at hl
  unfold Memory.read Memory.write
  rw [lookup_append_key, lookup_append_key, lookup_filter_key (fun k => decide (k < a)),
    lookup_filter_key (fun k => decide (a + bs.length ≤ k))]
  simp only [decide_eq_true_eq]
  rw [if_neg (by omega), if_neg (by omega)]
  simpa using hl

/-- A byte outside the run written reads as before. -/
theorem Memory.read_write_out (m : Memory) (a : Nat) (bs : List Byte) (x : Nat)
    (h : x < a ∨ a + bs.length ≤ x) : (m.write a bs).read x = m.read x := by
  unfold Memory.read Memory.write
  rw [lookup_append_key, lookup_append_key, lookup_filter_key (fun k => decide (k < a)),
    lookup_filter_key (fun k => decide (a + bs.length ≤ k)), lookup_cellsOf_none a bs x h]
  simp only [decide_eq_true_eq]
  rcases h with h | h
  · rw [if_pos h, if_neg (by omega)]; simp
  · rw [if_neg (by omega), if_pos h]; simp

/-- A byte outside the range cleared reads as before, one inside reads 0. -/
theorem Memory.read_clear (m : Memory) (low high x : Nat) :
    (m.clear low high).read x = if x < low ∨ high ≤ x then m.read x else 0 := by
  unfold Memory.read Memory.clear
  rw [lookup_filter_key (fun k => decide (k < low ∨ high ≤ k))]
  simp only [decide_eq_true_eq]
  split <;> simp

/-! ## The canonical form -/

theorem Memory.wf_iff (m : Memory) :
    m.wf = true ↔ m.Pairwise (fun x y => x.1 < y.1) ∧ ∀ c ∈ m, c.2 ≠ 0 ∧ c.1 < 0x8000 := by
  simp [Memory.wf]

theorem mem_cellsOf (a : Nat) (bs : List Byte) (c : Host.Cell) (h : c ∈ cellsOf a bs) :
    a ≤ c.1 ∧ c.1 < a + bs.length ∧ c.2 ≠ 0 := by
  induction bs generalizing a with
  | nil => simp [cellsOf] at h
  | cons b bs ih =>
    unfold cellsOf at h
    simp only [List.length_cons]
    split at h
    · obtain ⟨h1, h2, h3⟩ := ih _ h
      exact ⟨by omega, by omega, h3⟩
    · rename_i hb
      rcases List.mem_cons.1 h with rfl | h
      · exact ⟨le_rfl, by simp, hb⟩
      · obtain ⟨h1, h2, h3⟩ := ih _ h
        exact ⟨by omega, by omega, h3⟩

theorem pairwise_cellsOf (a : Nat) (bs : List Byte) : (cellsOf a bs).Pairwise fun x y => x.1 < y.1 := by
  induction bs generalizing a with
  | nil => simp [cellsOf]
  | cons b bs ih =>
    unfold cellsOf
    split
    · exact ih _
    · refine List.pairwise_cons.2 ⟨fun c hc => ?_, ih _⟩
      have := mem_cellsOf _ _ c hc
      show a < c.1
      omega

/-- A write inside the 32 KiB keeps the canonical form. -/
theorem Memory.wf_write (m : Memory) (a : Nat) (bs : List Byte) (hm : m.wf = true) (h : a + bs.length ≤ 0x8000) :
    (m.write a bs).wf = true := by
  rw [Memory.wf_iff] at hm ⊢
  obtain ⟨hs, hv⟩ := hm
  refine ⟨?_, ?_⟩
  · unfold Memory.write
    refine List.pairwise_append.2 ⟨List.pairwise_append.2 ⟨hs.filter _, pairwise_cellsOf a bs, ?_⟩, hs.filter _, ?_⟩
    · intro x hx y hy
      have hx := (List.mem_filter.1 hx).2
      have hy := mem_cellsOf _ _ y hy
      simp at hx
      omega
    · intro x hx y hy
      have hy := (List.mem_filter.1 hy).2
      simp at hy
      rcases List.mem_append.1 hx with hx | hx
      · have hx := (List.mem_filter.1 hx).2
        simp at hx
        omega
      · have hx := mem_cellsOf _ _ x hx
        omega
  · intro c hc
    unfold Memory.write at hc
    rcases List.mem_append.1 hc with hc | hc
    · rcases List.mem_append.1 hc with hc | hc
      · exact hv c (List.mem_filter.1 hc).1
      · have := mem_cellsOf _ _ c hc
        exact ⟨this.2.2, by omega⟩
    · exact hv c (List.mem_filter.1 hc).1

/-- Clearing keeps the canonical form. -/
theorem Memory.wf_clear (m : Memory) (low high : Nat) (hm : m.wf = true) : (m.clear low high).wf = true := by
  rw [Memory.wf_iff] at hm ⊢
  exact ⟨hm.1.filter _, fun c hc => hm.2 c (List.mem_filter.1 hc).1⟩

/-- Empty memory is in the canonical form. -/
theorem Memory.wf_nil : Memory.wf [] = true := by decide

/-- So is shared RAM after reset. -/
theorem Memory.wf_reset : State.reset.ram.wf = true := by decide +kernel

/-- The host's writes keep the canonical form. -/
theorem State.wf_hostWrites (s : State) (ws : List HostWrite) (hm : s.ram.wf = true) : (s.hostWrites ws).ram.wf = true := by
  show (ws.foldl (fun m w => if w.1 < 0x8000 then m.write w.1 [w.2] else m) s.ram).wf = true
  generalize s.ram = m at hm
  induction ws generalizing m with
  | nil => exact hm
  | cons w ws ih =>
    simp only [List.foldl_cons]
    refine ih _ ?_
    split
    · exact Memory.wf_write m _ _ hm (by simp; omega)
    · exact hm

/-! ## Bytes of the state -/

theorem State.byte_store_in (s : State) (a : Nat) (bs : List Byte) (x : Nat) (h1 : a ≤ x) (h2 : x < a + bs.length) :
    (s.store a bs).byte x = bs.getD (x - a) 0 := Memory.read_write_in _ _ _ _ h1 h2

theorem State.byte_store_out (s : State) (a : Nat) (bs : List Byte) (x : Nat) (h : x < a ∨ a + bs.length ≤ x) :
    (s.store a bs).byte x = s.byte x := Memory.read_write_out _ _ _ _ h

end Sys2Proof.Machine
end

