-- ==== Sys2Proof/Laws/State.lean ====
section
/-! SUPPORT. What each plain update of the state leaves in each field: one lemma per field per update, true by definition. -/

namespace Sys2Proof.Machine

open Sys2Proof

@[simp] theorem State.store_pending (s : State) (a : Nat) (bs : List Byte) : (s.store a bs).pending = s.pending := rfl
@[simp] theorem State.store_powered (s : State) (a : Nat) (bs : List Byte) : (s.store a bs).powered = s.powered := rfl
@[simp] theorem State.store_ready (s : State) (a : Nat) (bs : List Byte) : (s.store a bs).ready = s.ready := rfl
@[simp] theorem State.store_latch (s : State) (a : Nat) (bs : List Byte) : (s.store a bs).latch = s.latch := rfl
@[simp] theorem State.store_cause (s : State) (a : Nat) (bs : List Byte) : (s.store a bs).cause = s.cause := rfl
@[simp] theorem State.store_mask (s : State) (a : Nat) (bs : List Byte) : (s.store a bs).mask = s.mask := rfl
@[simp] theorem State.store_startFlags (s : State) (a : Nat) (bs : List Byte) : (s.store a bs).startFlags = s.startFlags := rfl
@[simp] theorem State.store_selfTest (s : State) (a : Nat) (bs : List Byte) : (s.store a bs).selfTest = s.selfTest := rfl
@[simp] theorem State.store_siteCount (s : State) (a : Nat) (bs : List Byte) : (s.store a bs).siteCount = s.siteCount := rfl
@[simp] theorem State.store_roomCounts (s : State) (a : Nat) (bs : List Byte) : (s.store a bs).roomCounts = s.roomCounts := rfl
@[simp] theorem State.store_held (s : State) (a : Nat) (bs : List Byte) : (s.store a bs).held = s.held := rfl
@[simp] theorem State.store_engine (s : State) (a : Nat) (bs : List Byte) : (s.store a bs).engine = s.engine := rfl
@[simp] theorem State.store_intakeNext (s : State) (a : Nat) (bs : List Byte) : (s.store a bs).intakeNext = s.intakeNext := rfl
@[simp] theorem State.store_site (s : State) (a : Nat) (bs : List Byte) : (s.store a bs).site = s.site := rfl
@[simp] theorem State.store_clock (s : State) (a : Nat) (bs : List Byte) : (s.store a bs).clock = s.clock := rfl
@[simp] theorem State.store_crystalRuns (s : State) (a : Nat) (bs : List Byte) : (s.store a bs).crystalRuns = s.crystalRuns := rfl
@[simp] theorem State.store_crystalFault (s : State) (a : Nat) (bs : List Byte) : (s.store a bs).crystalFault = s.crystalFault := rfl
@[simp] theorem State.store_mirrorsStand (s : State) (a : Nat) (bs : List Byte) : (s.store a bs).mirrorsStand = s.mirrorsStand := rfl
@[simp] theorem State.store_tableCheck (s : State) (a : Nat) (bs : List Byte) : (s.store a bs).tableCheck = s.tableCheck := rfl
@[simp] theorem State.store_zones (s : State) (a : Nat) (bs : List Byte) : (s.store a bs).zones = s.zones := rfl
@[simp] theorem State.store_rooms (s : State) (a : Nat) (bs : List Byte) : (s.store a bs).rooms = s.rooms := rfl
@[simp] theorem State.store_serial (s : State) (a : Nat) (bs : List Byte) : (s.store a bs).serial = s.serial := rfl
@[simp] theorem State.store_revs (s : State) (a : Nat) (bs : List Byte) : (s.store a bs).revs = s.revs := rfl
@[simp] theorem State.store_lastDeny (s : State) (a : Nat) (bs : List Byte) : (s.store a bs).lastDeny = s.lastDeny := rfl
@[simp] theorem State.store_minibars (s : State) (a : Nat) (bs : List Byte) : (s.store a bs).minibars = s.minibars := rfl
@[simp] theorem State.store_encoder (s : State) (a : Nat) (bs : List Byte) : (s.store a bs).encoder = s.encoder := rfl
@[simp] theorem State.store_lines (s : State) (a : Nat) (bs : List Byte) : (s.store a bs).lines = s.lines := rfl
@[simp] theorem State.store_journal (s : State) (a : Nat) (bs : List Byte) : (s.store a bs).journal = s.journal := rfl
@[simp] theorem State.store_freeCount (s : State) (a : Nat) (bs : List Byte) : (s.store a bs).freeCount = s.freeCount := rfl

@[simp] theorem State.setBlockState_pending (s : State) (b : Fin 16) (st : BlockState) : (s.setBlockState b st).pending = s.pending := rfl
@[simp] theorem State.setBlockState_powered (s : State) (b : Fin 16) (st : BlockState) : (s.setBlockState b st).powered = s.powered := rfl
@[simp] theorem State.setBlockState_ready (s : State) (b : Fin 16) (st : BlockState) : (s.setBlockState b st).ready = s.ready := rfl
@[simp] theorem State.setBlockState_latch (s : State) (b : Fin 16) (st : BlockState) : (s.setBlockState b st).latch = s.latch := rfl
@[simp] theorem State.setBlockState_cause (s : State) (b : Fin 16) (st : BlockState) : (s.setBlockState b st).cause = s.cause := rfl
@[simp] theorem State.setBlockState_mask (s : State) (b : Fin 16) (st : BlockState) : (s.setBlockState b st).mask = s.mask := rfl
@[simp] theorem State.setBlockState_startFlags (s : State) (b : Fin 16) (st : BlockState) : (s.setBlockState b st).startFlags = s.startFlags := rfl
@[simp] theorem State.setBlockState_selfTest (s : State) (b : Fin 16) (st : BlockState) : (s.setBlockState b st).selfTest = s.selfTest := rfl
@[simp] theorem State.setBlockState_siteCount (s : State) (b : Fin 16) (st : BlockState) : (s.setBlockState b st).siteCount = s.siteCount := rfl
@[simp] theorem State.setBlockState_roomCounts (s : State) (b : Fin 16) (st : BlockState) : (s.setBlockState b st).roomCounts = s.roomCounts := rfl
@[simp] theorem State.setBlockState_held (s : State) (b : Fin 16) (st : BlockState) : (s.setBlockState b st).held = s.held := rfl
@[simp] theorem State.setBlockState_engine (s : State) (b : Fin 16) (st : BlockState) : (s.setBlockState b st).engine = s.engine := rfl
@[simp] theorem State.setBlockState_intakeNext (s : State) (b : Fin 16) (st : BlockState) : (s.setBlockState b st).intakeNext = s.intakeNext := rfl
@[simp] theorem State.setBlockState_site (s : State) (b : Fin 16) (st : BlockState) : (s.setBlockState b st).site = s.site := rfl
@[simp] theorem State.setBlockState_clock (s : State) (b : Fin 16) (st : BlockState) : (s.setBlockState b st).clock = s.clock := rfl
@[simp] theorem State.setBlockState_crystalRuns (s : State) (b : Fin 16) (st : BlockState) : (s.setBlockState b st).crystalRuns = s.crystalRuns := rfl
@[simp] theorem State.setBlockState_crystalFault (s : State) (b : Fin 16) (st : BlockState) : (s.setBlockState b st).crystalFault = s.crystalFault := rfl
@[simp] theorem State.setBlockState_mirrorsStand (s : State) (b : Fin 16) (st : BlockState) : (s.setBlockState b st).mirrorsStand = s.mirrorsStand := rfl
@[simp] theorem State.setBlockState_tableCheck (s : State) (b : Fin 16) (st : BlockState) : (s.setBlockState b st).tableCheck = s.tableCheck := rfl
@[simp] theorem State.setBlockState_zones (s : State) (b : Fin 16) (st : BlockState) : (s.setBlockState b st).zones = s.zones := rfl
@[simp] theorem State.setBlockState_rooms (s : State) (b : Fin 16) (st : BlockState) : (s.setBlockState b st).rooms = s.rooms := rfl
@[simp] theorem State.setBlockState_serial (s : State) (b : Fin 16) (st : BlockState) : (s.setBlockState b st).serial = s.serial := rfl
@[simp] theorem State.setBlockState_revs (s : State) (b : Fin 16) (st : BlockState) : (s.setBlockState b st).revs = s.revs := rfl
@[simp] theorem State.setBlockState_lastDeny (s : State) (b : Fin 16) (st : BlockState) : (s.setBlockState b st).lastDeny = s.lastDeny := rfl
@[simp] theorem State.setBlockState_minibars (s : State) (b : Fin 16) (st : BlockState) : (s.setBlockState b st).minibars = s.minibars := rfl
@[simp] theorem State.setBlockState_encoder (s : State) (b : Fin 16) (st : BlockState) : (s.setBlockState b st).encoder = s.encoder := rfl
@[simp] theorem State.setBlockState_lines (s : State) (b : Fin 16) (st : BlockState) : (s.setBlockState b st).lines = s.lines := rfl
@[simp] theorem State.setBlockState_journal (s : State) (b : Fin 16) (st : BlockState) : (s.setBlockState b st).journal = s.journal := rfl
@[simp] theorem State.setBlockState_freeCount (s : State) (b : Fin 16) (st : BlockState) : (s.setBlockState b st).freeCount = s.freeCount := rfl

@[simp] theorem State.hostWrites_pending (s : State) (ws : List HostWrite) : (s.hostWrites ws).pending = s.pending := rfl
@[simp] theorem State.hostWrites_powered (s : State) (ws : List HostWrite) : (s.hostWrites ws).powered = s.powered := rfl
@[simp] theorem State.hostWrites_ready (s : State) (ws : List HostWrite) : (s.hostWrites ws).ready = s.ready := rfl
@[simp] theorem State.hostWrites_latch (s : State) (ws : List HostWrite) : (s.hostWrites ws).latch = s.latch := rfl
@[simp] theorem State.hostWrites_cause (s : State) (ws : List HostWrite) : (s.hostWrites ws).cause = s.cause := rfl
@[simp] theorem State.hostWrites_mask (s : State) (ws : List HostWrite) : (s.hostWrites ws).mask = s.mask := rfl
@[simp] theorem State.hostWrites_startFlags (s : State) (ws : List HostWrite) : (s.hostWrites ws).startFlags = s.startFlags := rfl
@[simp] theorem State.hostWrites_selfTest (s : State) (ws : List HostWrite) : (s.hostWrites ws).selfTest = s.selfTest := rfl
@[simp] theorem State.hostWrites_siteCount (s : State) (ws : List HostWrite) : (s.hostWrites ws).siteCount = s.siteCount := rfl
@[simp] theorem State.hostWrites_roomCounts (s : State) (ws : List HostWrite) : (s.hostWrites ws).roomCounts = s.roomCounts := rfl
@[simp] theorem State.hostWrites_held (s : State) (ws : List HostWrite) : (s.hostWrites ws).held = s.held := rfl
@[simp] theorem State.hostWrites_engine (s : State) (ws : List HostWrite) : (s.hostWrites ws).engine = s.engine := rfl
@[simp] theorem State.hostWrites_intakeNext (s : State) (ws : List HostWrite) : (s.hostWrites ws).intakeNext = s.intakeNext := rfl
@[simp] theorem State.hostWrites_site (s : State) (ws : List HostWrite) : (s.hostWrites ws).site = s.site := rfl
@[simp] theorem State.hostWrites_clock (s : State) (ws : List HostWrite) : (s.hostWrites ws).clock = s.clock := rfl
@[simp] theorem State.hostWrites_crystalRuns (s : State) (ws : List HostWrite) : (s.hostWrites ws).crystalRuns = s.crystalRuns := rfl
@[simp] theorem State.hostWrites_crystalFault (s : State) (ws : List HostWrite) : (s.hostWrites ws).crystalFault = s.crystalFault := rfl
@[simp] theorem State.hostWrites_mirrorsStand (s : State) (ws : List HostWrite) : (s.hostWrites ws).mirrorsStand = s.mirrorsStand := rfl
@[simp] theorem State.hostWrites_tableCheck (s : State) (ws : List HostWrite) : (s.hostWrites ws).tableCheck = s.tableCheck := rfl
@[simp] theorem State.hostWrites_zones (s : State) (ws : List HostWrite) : (s.hostWrites ws).zones = s.zones := rfl
@[simp] theorem State.hostWrites_rooms (s : State) (ws : List HostWrite) : (s.hostWrites ws).rooms = s.rooms := rfl
@[simp] theorem State.hostWrites_serial (s : State) (ws : List HostWrite) : (s.hostWrites ws).serial = s.serial := rfl
@[simp] theorem State.hostWrites_revs (s : State) (ws : List HostWrite) : (s.hostWrites ws).revs = s.revs := rfl
@[simp] theorem State.hostWrites_lastDeny (s : State) (ws : List HostWrite) : (s.hostWrites ws).lastDeny = s.lastDeny := rfl
@[simp] theorem State.hostWrites_minibars (s : State) (ws : List HostWrite) : (s.hostWrites ws).minibars = s.minibars := rfl
@[simp] theorem State.hostWrites_encoder (s : State) (ws : List HostWrite) : (s.hostWrites ws).encoder = s.encoder := rfl
@[simp] theorem State.hostWrites_lines (s : State) (ws : List HostWrite) : (s.hostWrites ws).lines = s.lines := rfl
@[simp] theorem State.hostWrites_journal (s : State) (ws : List HostWrite) : (s.hostWrites ws).journal = s.journal := rfl
@[simp] theorem State.hostWrites_freeCount (s : State) (ws : List HostWrite) : (s.hostWrites ws).freeCount = s.freeCount := rfl

@[simp] theorem State.setCause_pending (s : State) (c : Half) : (s.setCause c).pending = s.pending := rfl
@[simp] theorem State.setCause_powered (s : State) (c : Half) : (s.setCause c).powered = s.powered := rfl
@[simp] theorem State.setCause_ready (s : State) (c : Half) : (s.setCause c).ready = s.ready := rfl
@[simp] theorem State.setCause_latch (s : State) (c : Half) : (s.setCause c).latch = s.latch := rfl
@[simp] theorem State.setCause_mask (s : State) (c : Half) : (s.setCause c).mask = s.mask := rfl
@[simp] theorem State.setCause_startFlags (s : State) (c : Half) : (s.setCause c).startFlags = s.startFlags := rfl
@[simp] theorem State.setCause_selfTest (s : State) (c : Half) : (s.setCause c).selfTest = s.selfTest := rfl
@[simp] theorem State.setCause_ram (s : State) (c : Half) : (s.setCause c).ram = s.ram := rfl
@[simp] theorem State.setCause_siteCount (s : State) (c : Half) : (s.setCause c).siteCount = s.siteCount := rfl
@[simp] theorem State.setCause_roomCounts (s : State) (c : Half) : (s.setCause c).roomCounts = s.roomCounts := rfl
@[simp] theorem State.setCause_held (s : State) (c : Half) : (s.setCause c).held = s.held := rfl
@[simp] theorem State.setCause_engine (s : State) (c : Half) : (s.setCause c).engine = s.engine := rfl
@[simp] theorem State.setCause_intakeNext (s : State) (c : Half) : (s.setCause c).intakeNext = s.intakeNext := rfl
@[simp] theorem State.setCause_site (s : State) (c : Half) : (s.setCause c).site = s.site := rfl
@[simp] theorem State.setCause_clock (s : State) (c : Half) : (s.setCause c).clock = s.clock := rfl
@[simp] theorem State.setCause_crystalRuns (s : State) (c : Half) : (s.setCause c).crystalRuns = s.crystalRuns := rfl
@[simp] theorem State.setCause_crystalFault (s : State) (c : Half) : (s.setCause c).crystalFault = s.crystalFault := rfl
@[simp] theorem State.setCause_mirrorsStand (s : State) (c : Half) : (s.setCause c).mirrorsStand = s.mirrorsStand := rfl
@[simp] theorem State.setCause_tableCheck (s : State) (c : Half) : (s.setCause c).tableCheck = s.tableCheck := rfl
@[simp] theorem State.setCause_zones (s : State) (c : Half) : (s.setCause c).zones = s.zones := rfl
@[simp] theorem State.setCause_rooms (s : State) (c : Half) : (s.setCause c).rooms = s.rooms := rfl
@[simp] theorem State.setCause_serial (s : State) (c : Half) : (s.setCause c).serial = s.serial := rfl
@[simp] theorem State.setCause_revs (s : State) (c : Half) : (s.setCause c).revs = s.revs := rfl
@[simp] theorem State.setCause_lastDeny (s : State) (c : Half) : (s.setCause c).lastDeny = s.lastDeny := rfl
@[simp] theorem State.setCause_minibars (s : State) (c : Half) : (s.setCause c).minibars = s.minibars := rfl
@[simp] theorem State.setCause_encoder (s : State) (c : Half) : (s.setCause c).encoder = s.encoder := rfl
@[simp] theorem State.setCause_lines (s : State) (c : Half) : (s.setCause c).lines = s.lines := rfl
@[simp] theorem State.setCause_journal (s : State) (c : Half) : (s.setCause c).journal = s.journal := rfl
@[simp] theorem State.setCause_freeCount (s : State) (c : Half) : (s.setCause c).freeCount = s.freeCount := rfl

@[simp] theorem State.setLine_pending (s : State) (l : Fin 2) (x : Line) : (s.setLine l x).pending = s.pending := rfl
@[simp] theorem State.setLine_powered (s : State) (l : Fin 2) (x : Line) : (s.setLine l x).powered = s.powered := rfl
@[simp] theorem State.setLine_ready (s : State) (l : Fin 2) (x : Line) : (s.setLine l x).ready = s.ready := rfl
@[simp] theorem State.setLine_latch (s : State) (l : Fin 2) (x : Line) : (s.setLine l x).latch = s.latch := rfl
@[simp] theorem State.setLine_cause (s : State) (l : Fin 2) (x : Line) : (s.setLine l x).cause = s.cause := rfl
@[simp] theorem State.setLine_mask (s : State) (l : Fin 2) (x : Line) : (s.setLine l x).mask = s.mask := rfl
@[simp] theorem State.setLine_startFlags (s : State) (l : Fin 2) (x : Line) : (s.setLine l x).startFlags = s.startFlags := rfl
@[simp] theorem State.setLine_selfTest (s : State) (l : Fin 2) (x : Line) : (s.setLine l x).selfTest = s.selfTest := rfl
@[simp] theorem State.setLine_ram (s : State) (l : Fin 2) (x : Line) : (s.setLine l x).ram = s.ram := rfl
@[simp] theorem State.setLine_siteCount (s : State) (l : Fin 2) (x : Line) : (s.setLine l x).siteCount = s.siteCount := rfl
@[simp] theorem State.setLine_roomCounts (s : State) (l : Fin 2) (x : Line) : (s.setLine l x).roomCounts = s.roomCounts := rfl
@[simp] theorem State.setLine_held (s : State) (l : Fin 2) (x : Line) : (s.setLine l x).held = s.held := rfl
@[simp] theorem State.setLine_engine (s : State) (l : Fin 2) (x : Line) : (s.setLine l x).engine = s.engine := rfl
@[simp] theorem State.setLine_intakeNext (s : State) (l : Fin 2) (x : Line) : (s.setLine l x).intakeNext = s.intakeNext := rfl
@[simp] theorem State.setLine_site (s : State) (l : Fin 2) (x : Line) : (s.setLine l x).site = s.site := rfl
@[simp] theorem State.setLine_clock (s : State) (l : Fin 2) (x : Line) : (s.setLine l x).clock = s.clock := rfl
@[simp] theorem State.setLine_crystalRuns (s : State) (l : Fin 2) (x : Line) : (s.setLine l x).crystalRuns = s.crystalRuns := rfl
@[simp] theorem State.setLine_crystalFault (s : State) (l : Fin 2) (x : Line) : (s.setLine l x).crystalFault = s.crystalFault := rfl
@[simp] theorem State.setLine_mirrorsStand (s : State) (l : Fin 2) (x : Line) : (s.setLine l x).mirrorsStand = s.mirrorsStand := rfl
@[simp] theorem State.setLine_tableCheck (s : State) (l : Fin 2) (x : Line) : (s.setLine l x).tableCheck = s.tableCheck := rfl
@[simp] theorem State.setLine_zones (s : State) (l : Fin 2) (x : Line) : (s.setLine l x).zones = s.zones := rfl
@[simp] theorem State.setLine_rooms (s : State) (l : Fin 2) (x : Line) : (s.setLine l x).rooms = s.rooms := rfl
@[simp] theorem State.setLine_serial (s : State) (l : Fin 2) (x : Line) : (s.setLine l x).serial = s.serial := rfl
@[simp] theorem State.setLine_revs (s : State) (l : Fin 2) (x : Line) : (s.setLine l x).revs = s.revs := rfl
@[simp] theorem State.setLine_lastDeny (s : State) (l : Fin 2) (x : Line) : (s.setLine l x).lastDeny = s.lastDeny := rfl
@[simp] theorem State.setLine_minibars (s : State) (l : Fin 2) (x : Line) : (s.setLine l x).minibars = s.minibars := rfl
@[simp] theorem State.setLine_encoder (s : State) (l : Fin 2) (x : Line) : (s.setLine l x).encoder = s.encoder := rfl
@[simp] theorem State.setLine_journal (s : State) (l : Fin 2) (x : Line) : (s.setLine l x).journal = s.journal := rfl
@[simp] theorem State.setLine_freeCount (s : State) (l : Fin 2) (x : Line) : (s.setLine l x).freeCount = s.freeCount := rfl

@[simp] theorem State.setDrop_pending (s : State) (l : Fin 2) (a : Fin 64) (d : Drop) : (s.setDrop l a d).pending = s.pending := rfl
@[simp] theorem State.setDrop_powered (s : State) (l : Fin 2) (a : Fin 64) (d : Drop) : (s.setDrop l a d).powered = s.powered := rfl
@[simp] theorem State.setDrop_ready (s : State) (l : Fin 2) (a : Fin 64) (d : Drop) : (s.setDrop l a d).ready = s.ready := rfl
@[simp] theorem State.setDrop_latch (s : State) (l : Fin 2) (a : Fin 64) (d : Drop) : (s.setDrop l a d).latch = s.latch := rfl
@[simp] theorem State.setDrop_cause (s : State) (l : Fin 2) (a : Fin 64) (d : Drop) : (s.setDrop l a d).cause = s.cause := rfl
@[simp] theorem State.setDrop_mask (s : State) (l : Fin 2) (a : Fin 64) (d : Drop) : (s.setDrop l a d).mask = s.mask := rfl
@[simp] theorem State.setDrop_startFlags (s : State) (l : Fin 2) (a : Fin 64) (d : Drop) : (s.setDrop l a d).startFlags = s.startFlags := rfl
@[simp] theorem State.setDrop_selfTest (s : State) (l : Fin 2) (a : Fin 64) (d : Drop) : (s.setDrop l a d).selfTest = s.selfTest := rfl
@[simp] theorem State.setDrop_ram (s : State) (l : Fin 2) (a : Fin 64) (d : Drop) : (s.setDrop l a d).ram = s.ram := rfl
@[simp] theorem State.setDrop_siteCount (s : State) (l : Fin 2) (a : Fin 64) (d : Drop) : (s.setDrop l a d).siteCount = s.siteCount := rfl
@[simp] theorem State.setDrop_roomCounts (s : State) (l : Fin 2) (a : Fin 64) (d : Drop) : (s.setDrop l a d).roomCounts = s.roomCounts := rfl
@[simp] theorem State.setDrop_held (s : State) (l : Fin 2) (a : Fin 64) (d : Drop) : (s.setDrop l a d).held = s.held := rfl
@[simp] theorem State.setDrop_engine (s : State) (l : Fin 2) (a : Fin 64) (d : Drop) : (s.setDrop l a d).engine = s.engine := rfl
@[simp] theorem State.setDrop_intakeNext (s : State) (l : Fin 2) (a : Fin 64) (d : Drop) : (s.setDrop l a d).intakeNext = s.intakeNext := rfl
@[simp] theorem State.setDrop_site (s : State) (l : Fin 2) (a : Fin 64) (d : Drop) : (s.setDrop l a d).site = s.site := rfl
@[simp] theorem State.setDrop_clock (s : State) (l : Fin 2) (a : Fin 64) (d : Drop) : (s.setDrop l a d).clock = s.clock := rfl
@[simp] theorem State.setDrop_crystalRuns (s : State) (l : Fin 2) (a : Fin 64) (d : Drop) : (s.setDrop l a d).crystalRuns = s.crystalRuns := rfl
@[simp] theorem State.setDrop_crystalFault (s : State) (l : Fin 2) (a : Fin 64) (d : Drop) : (s.setDrop l a d).crystalFault = s.crystalFault := rfl
@[simp] theorem State.setDrop_mirrorsStand (s : State) (l : Fin 2) (a : Fin 64) (d : Drop) : (s.setDrop l a d).mirrorsStand = s.mirrorsStand := rfl
@[simp] theorem State.setDrop_tableCheck (s : State) (l : Fin 2) (a : Fin 64) (d : Drop) : (s.setDrop l a d).tableCheck = s.tableCheck := rfl
@[simp] theorem State.setDrop_zones (s : State) (l : Fin 2) (a : Fin 64) (d : Drop) : (s.setDrop l a d).zones = s.zones := rfl
@[simp] theorem State.setDrop_rooms (s : State) (l : Fin 2) (a : Fin 64) (d : Drop) : (s.setDrop l a d).rooms = s.rooms := rfl
@[simp] theorem State.setDrop_serial (s : State) (l : Fin 2) (a : Fin 64) (d : Drop) : (s.setDrop l a d).serial = s.serial := rfl
@[simp] theorem State.setDrop_revs (s : State) (l : Fin 2) (a : Fin 64) (d : Drop) : (s.setDrop l a d).revs = s.revs := rfl
@[simp] theorem State.setDrop_lastDeny (s : State) (l : Fin 2) (a : Fin 64) (d : Drop) : (s.setDrop l a d).lastDeny = s.lastDeny := rfl
@[simp] theorem State.setDrop_minibars (s : State) (l : Fin 2) (a : Fin 64) (d : Drop) : (s.setDrop l a d).minibars = s.minibars := rfl
@[simp] theorem State.setDrop_encoder (s : State) (l : Fin 2) (a : Fin 64) (d : Drop) : (s.setDrop l a d).encoder = s.encoder := rfl
@[simp] theorem State.setDrop_journal (s : State) (l : Fin 2) (a : Fin 64) (d : Drop) : (s.setDrop l a d).journal = s.journal := rfl
@[simp] theorem State.setDrop_freeCount (s : State) (l : Fin 2) (a : Fin 64) (d : Drop) : (s.setDrop l a d).freeCount = s.freeCount := rfl

@[simp] theorem State.setOwed_pending (s : State) (l : Fin 2) (a : Fin 64) (o : Option Owed) : (s.setOwed l a o).pending = s.pending := rfl
@[simp] theorem State.setOwed_powered (s : State) (l : Fin 2) (a : Fin 64) (o : Option Owed) : (s.setOwed l a o).powered = s.powered := rfl
@[simp] theorem State.setOwed_ready (s : State) (l : Fin 2) (a : Fin 64) (o : Option Owed) : (s.setOwed l a o).ready = s.ready := rfl
@[simp] theorem State.setOwed_latch (s : State) (l : Fin 2) (a : Fin 64) (o : Option Owed) : (s.setOwed l a o).latch = s.latch := rfl
@[simp] theorem State.setOwed_cause (s : State) (l : Fin 2) (a : Fin 64) (o : Option Owed) : (s.setOwed l a o).cause = s.cause := rfl
@[simp] theorem State.setOwed_mask (s : State) (l : Fin 2) (a : Fin 64) (o : Option Owed) : (s.setOwed l a o).mask = s.mask := rfl
@[simp] theorem State.setOwed_startFlags (s : State) (l : Fin 2) (a : Fin 64) (o : Option Owed) : (s.setOwed l a o).startFlags = s.startFlags := rfl
@[simp] theorem State.setOwed_selfTest (s : State) (l : Fin 2) (a : Fin 64) (o : Option Owed) : (s.setOwed l a o).selfTest = s.selfTest := rfl
@[simp] theorem State.setOwed_ram (s : State) (l : Fin 2) (a : Fin 64) (o : Option Owed) : (s.setOwed l a o).ram = s.ram := rfl
@[simp] theorem State.setOwed_siteCount (s : State) (l : Fin 2) (a : Fin 64) (o : Option Owed) : (s.setOwed l a o).siteCount = s.siteCount := rfl
@[simp] theorem State.setOwed_roomCounts (s : State) (l : Fin 2) (a : Fin 64) (o : Option Owed) : (s.setOwed l a o).roomCounts = s.roomCounts := rfl
@[simp] theorem State.setOwed_held (s : State) (l : Fin 2) (a : Fin 64) (o : Option Owed) : (s.setOwed l a o).held = s.held := rfl
@[simp] theorem State.setOwed_engine (s : State) (l : Fin 2) (a : Fin 64) (o : Option Owed) : (s.setOwed l a o).engine = s.engine := rfl
@[simp] theorem State.setOwed_intakeNext (s : State) (l : Fin 2) (a : Fin 64) (o : Option Owed) : (s.setOwed l a o).intakeNext = s.intakeNext := rfl
@[simp] theorem State.setOwed_site (s : State) (l : Fin 2) (a : Fin 64) (o : Option Owed) : (s.setOwed l a o).site = s.site := rfl
@[simp] theorem State.setOwed_clock (s : State) (l : Fin 2) (a : Fin 64) (o : Option Owed) : (s.setOwed l a o).clock = s.clock := rfl
@[simp] theorem State.setOwed_crystalRuns (s : State) (l : Fin 2) (a : Fin 64) (o : Option Owed) : (s.setOwed l a o).crystalRuns = s.crystalRuns := rfl
@[simp] theorem State.setOwed_crystalFault (s : State) (l : Fin 2) (a : Fin 64) (o : Option Owed) : (s.setOwed l a o).crystalFault = s.crystalFault := rfl
@[simp] theorem State.setOwed_mirrorsStand (s : State) (l : Fin 2) (a : Fin 64) (o : Option Owed) : (s.setOwed l a o).mirrorsStand = s.mirrorsStand := rfl
@[simp] theorem State.setOwed_tableCheck (s : State) (l : Fin 2) (a : Fin 64) (o : Option Owed) : (s.setOwed l a o).tableCheck = s.tableCheck := rfl
@[simp] theorem State.setOwed_zones (s : State) (l : Fin 2) (a : Fin 64) (o : Option Owed) : (s.setOwed l a o).zones = s.zones := rfl
@[simp] theorem State.setOwed_rooms (s : State) (l : Fin 2) (a : Fin 64) (o : Option Owed) : (s.setOwed l a o).rooms = s.rooms := rfl
@[simp] theorem State.setOwed_serial (s : State) (l : Fin 2) (a : Fin 64) (o : Option Owed) : (s.setOwed l a o).serial = s.serial := rfl
@[simp] theorem State.setOwed_revs (s : State) (l : Fin 2) (a : Fin 64) (o : Option Owed) : (s.setOwed l a o).revs = s.revs := rfl
@[simp] theorem State.setOwed_lastDeny (s : State) (l : Fin 2) (a : Fin 64) (o : Option Owed) : (s.setOwed l a o).lastDeny = s.lastDeny := rfl
@[simp] theorem State.setOwed_minibars (s : State) (l : Fin 2) (a : Fin 64) (o : Option Owed) : (s.setOwed l a o).minibars = s.minibars := rfl
@[simp] theorem State.setOwed_encoder (s : State) (l : Fin 2) (a : Fin 64) (o : Option Owed) : (s.setOwed l a o).encoder = s.encoder := rfl
@[simp] theorem State.setOwed_journal (s : State) (l : Fin 2) (a : Fin 64) (o : Option Owed) : (s.setOwed l a o).journal = s.journal := rfl
@[simp] theorem State.setOwed_freeCount (s : State) (l : Fin 2) (a : Fin 64) (o : Option Owed) : (s.setOwed l a o).freeCount = s.freeCount := rfl

@[simp] theorem State.setQueue_pending (s : State) (l : Fin 2) (q : List QMsg) : (s.setQueue l q).pending = s.pending := rfl
@[simp] theorem State.setQueue_powered (s : State) (l : Fin 2) (q : List QMsg) : (s.setQueue l q).powered = s.powered := rfl
@[simp] theorem State.setQueue_ready (s : State) (l : Fin 2) (q : List QMsg) : (s.setQueue l q).ready = s.ready := rfl
@[simp] theorem State.setQueue_latch (s : State) (l : Fin 2) (q : List QMsg) : (s.setQueue l q).latch = s.latch := rfl
@[simp] theorem State.setQueue_cause (s : State) (l : Fin 2) (q : List QMsg) : (s.setQueue l q).cause = s.cause := rfl
@[simp] theorem State.setQueue_mask (s : State) (l : Fin 2) (q : List QMsg) : (s.setQueue l q).mask = s.mask := rfl
@[simp] theorem State.setQueue_startFlags (s : State) (l : Fin 2) (q : List QMsg) : (s.setQueue l q).startFlags = s.startFlags := rfl
@[simp] theorem State.setQueue_selfTest (s : State) (l : Fin 2) (q : List QMsg) : (s.setQueue l q).selfTest = s.selfTest := rfl
@[simp] theorem State.setQueue_ram (s : State) (l : Fin 2) (q : List QMsg) : (s.setQueue l q).ram = s.ram := rfl
@[simp] theorem State.setQueue_siteCount (s : State) (l : Fin 2) (q : List QMsg) : (s.setQueue l q).siteCount = s.siteCount := rfl
@[simp] theorem State.setQueue_roomCounts (s : State) (l : Fin 2) (q : List QMsg) : (s.setQueue l q).roomCounts = s.roomCounts := rfl
@[simp] theorem State.setQueue_held (s : State) (l : Fin 2) (q : List QMsg) : (s.setQueue l q).held = s.held := rfl
@[simp] theorem State.setQueue_engine (s : State) (l : Fin 2) (q : List QMsg) : (s.setQueue l q).engine = s.engine := rfl
@[simp] theorem State.setQueue_intakeNext (s : State) (l : Fin 2) (q : List QMsg) : (s.setQueue l q).intakeNext = s.intakeNext := rfl
@[simp] theorem State.setQueue_site (s : State) (l : Fin 2) (q : List QMsg) : (s.setQueue l q).site = s.site := rfl
@[simp] theorem State.setQueue_clock (s : State) (l : Fin 2) (q : List QMsg) : (s.setQueue l q).clock = s.clock := rfl
@[simp] theorem State.setQueue_crystalRuns (s : State) (l : Fin 2) (q : List QMsg) : (s.setQueue l q).crystalRuns = s.crystalRuns := rfl
@[simp] theorem State.setQueue_crystalFault (s : State) (l : Fin 2) (q : List QMsg) : (s.setQueue l q).crystalFault = s.crystalFault := rfl
@[simp] theorem State.setQueue_mirrorsStand (s : State) (l : Fin 2) (q : List QMsg) : (s.setQueue l q).mirrorsStand = s.mirrorsStand := rfl
@[simp] theorem State.setQueue_tableCheck (s : State) (l : Fin 2) (q : List QMsg) : (s.setQueue l q).tableCheck = s.tableCheck := rfl
@[simp] theorem State.setQueue_zones (s : State) (l : Fin 2) (q : List QMsg) : (s.setQueue l q).zones = s.zones := rfl
@[simp] theorem State.setQueue_rooms (s : State) (l : Fin 2) (q : List QMsg) : (s.setQueue l q).rooms = s.rooms := rfl
@[simp] theorem State.setQueue_serial (s : State) (l : Fin 2) (q : List QMsg) : (s.setQueue l q).serial = s.serial := rfl
@[simp] theorem State.setQueue_revs (s : State) (l : Fin 2) (q : List QMsg) : (s.setQueue l q).revs = s.revs := rfl
@[simp] theorem State.setQueue_lastDeny (s : State) (l : Fin 2) (q : List QMsg) : (s.setQueue l q).lastDeny = s.lastDeny := rfl
@[simp] theorem State.setQueue_minibars (s : State) (l : Fin 2) (q : List QMsg) : (s.setQueue l q).minibars = s.minibars := rfl
@[simp] theorem State.setQueue_encoder (s : State) (l : Fin 2) (q : List QMsg) : (s.setQueue l q).encoder = s.encoder := rfl
@[simp] theorem State.setQueue_journal (s : State) (l : Fin 2) (q : List QMsg) : (s.setQueue l q).journal = s.journal := rfl
@[simp] theorem State.setQueue_freeCount (s : State) (l : Fin 2) (q : List QMsg) : (s.setQueue l q).freeCount = s.freeCount := rfl

@[simp] theorem State.setActivity_pending (s : State) (l : Fin 2) (x : Activity) : (s.setActivity l x).pending = s.pending := rfl
@[simp] theorem State.setActivity_powered (s : State) (l : Fin 2) (x : Activity) : (s.setActivity l x).powered = s.powered := rfl
@[simp] theorem State.setActivity_ready (s : State) (l : Fin 2) (x : Activity) : (s.setActivity l x).ready = s.ready := rfl
@[simp] theorem State.setActivity_latch (s : State) (l : Fin 2) (x : Activity) : (s.setActivity l x).latch = s.latch := rfl
@[simp] theorem State.setActivity_cause (s : State) (l : Fin 2) (x : Activity) : (s.setActivity l x).cause = s.cause := rfl
@[simp] theorem State.setActivity_mask (s : State) (l : Fin 2) (x : Activity) : (s.setActivity l x).mask = s.mask := rfl
@[simp] theorem State.setActivity_startFlags (s : State) (l : Fin 2) (x : Activity) : (s.setActivity l x).startFlags = s.startFlags := rfl
@[simp] theorem State.setActivity_selfTest (s : State) (l : Fin 2) (x : Activity) : (s.setActivity l x).selfTest = s.selfTest := rfl
@[simp] theorem State.setActivity_ram (s : State) (l : Fin 2) (x : Activity) : (s.setActivity l x).ram = s.ram := rfl
@[simp] theorem State.setActivity_siteCount (s : State) (l : Fin 2) (x : Activity) : (s.setActivity l x).siteCount = s.siteCount := rfl
@[simp] theorem State.setActivity_roomCounts (s : State) (l : Fin 2) (x : Activity) : (s.setActivity l x).roomCounts = s.roomCounts := rfl
@[simp] theorem State.setActivity_held (s : State) (l : Fin 2) (x : Activity) : (s.setActivity l x).held = s.held := rfl
@[simp] theorem State.setActivity_engine (s : State) (l : Fin 2) (x : Activity) : (s.setActivity l x).engine = s.engine := rfl
@[simp] theorem State.setActivity_intakeNext (s : State) (l : Fin 2) (x : Activity) : (s.setActivity l x).intakeNext = s.intakeNext := rfl
@[simp] theorem State.setActivity_site (s : State) (l : Fin 2) (x : Activity) : (s.setActivity l x).site = s.site := rfl
@[simp] theorem State.setActivity_clock (s : State) (l : Fin 2) (x : Activity) : (s.setActivity l x).clock = s.clock := rfl
@[simp] theorem State.setActivity_crystalRuns (s : State) (l : Fin 2) (x : Activity) : (s.setActivity l x).crystalRuns = s.crystalRuns := rfl
@[simp] theorem State.setActivity_crystalFault (s : State) (l : Fin 2) (x : Activity) : (s.setActivity l x).crystalFault = s.crystalFault := rfl
@[simp] theorem State.setActivity_mirrorsStand (s : State) (l : Fin 2) (x : Activity) : (s.setActivity l x).mirrorsStand = s.mirrorsStand := rfl
@[simp] theorem State.setActivity_tableCheck (s : State) (l : Fin 2) (x : Activity) : (s.setActivity l x).tableCheck = s.tableCheck := rfl
@[simp] theorem State.setActivity_zones (s : State) (l : Fin 2) (x : Activity) : (s.setActivity l x).zones = s.zones := rfl
@[simp] theorem State.setActivity_rooms (s : State) (l : Fin 2) (x : Activity) : (s.setActivity l x).rooms = s.rooms := rfl
@[simp] theorem State.setActivity_serial (s : State) (l : Fin 2) (x : Activity) : (s.setActivity l x).serial = s.serial := rfl
@[simp] theorem State.setActivity_revs (s : State) (l : Fin 2) (x : Activity) : (s.setActivity l x).revs = s.revs := rfl
@[simp] theorem State.setActivity_lastDeny (s : State) (l : Fin 2) (x : Activity) : (s.setActivity l x).lastDeny = s.lastDeny := rfl
@[simp] theorem State.setActivity_minibars (s : State) (l : Fin 2) (x : Activity) : (s.setActivity l x).minibars = s.minibars := rfl
@[simp] theorem State.setActivity_encoder (s : State) (l : Fin 2) (x : Activity) : (s.setActivity l x).encoder = s.encoder := rfl
@[simp] theorem State.setActivity_journal (s : State) (l : Fin 2) (x : Activity) : (s.setActivity l x).journal = s.journal := rfl
@[simp] theorem State.setActivity_freeCount (s : State) (l : Fin 2) (x : Activity) : (s.setActivity l x).freeCount = s.freeCount := rfl

@[simp] theorem State.setReturning_pending (s : State) (l : Fin 2) (r : Option Returning) : (s.setReturning l r).pending = s.pending := rfl
@[simp] theorem State.setReturning_powered (s : State) (l : Fin 2) (r : Option Returning) : (s.setReturning l r).powered = s.powered := rfl
@[simp] theorem State.setReturning_ready (s : State) (l : Fin 2) (r : Option Returning) : (s.setReturning l r).ready = s.ready := rfl
@[simp] theorem State.setReturning_latch (s : State) (l : Fin 2) (r : Option Returning) : (s.setReturning l r).latch = s.latch := rfl
@[simp] theorem State.setReturning_cause (s : State) (l : Fin 2) (r : Option Returning) : (s.setReturning l r).cause = s.cause := rfl
@[simp] theorem State.setReturning_mask (s : State) (l : Fin 2) (r : Option Returning) : (s.setReturning l r).mask = s.mask := rfl
@[simp] theorem State.setReturning_startFlags (s : State) (l : Fin 2) (r : Option Returning) : (s.setReturning l r).startFlags = s.startFlags := rfl
@[simp] theorem State.setReturning_selfTest (s : State) (l : Fin 2) (r : Option Returning) : (s.setReturning l r).selfTest = s.selfTest := rfl
@[simp] theorem State.setReturning_ram (s : State) (l : Fin 2) (r : Option Returning) : (s.setReturning l r).ram = s.ram := rfl
@[simp] theorem State.setReturning_siteCount (s : State) (l : Fin 2) (r : Option Returning) : (s.setReturning l r).siteCount = s.siteCount := rfl
@[simp] theorem State.setReturning_roomCounts (s : State) (l : Fin 2) (r : Option Returning) : (s.setReturning l r).roomCounts = s.roomCounts := rfl
@[simp] theorem State.setReturning_held (s : State) (l : Fin 2) (r : Option Returning) : (s.setReturning l r).held = s.held := rfl
@[simp] theorem State.setReturning_engine (s : State) (l : Fin 2) (r : Option Returning) : (s.setReturning l r).engine = s.engine := rfl
@[simp] theorem State.setReturning_intakeNext (s : State) (l : Fin 2) (r : Option Returning) : (s.setReturning l r).intakeNext = s.intakeNext := rfl
@[simp] theorem State.setReturning_site (s : State) (l : Fin 2) (r : Option Returning) : (s.setReturning l r).site = s.site := rfl
@[simp] theorem State.setReturning_clock (s : State) (l : Fin 2) (r : Option Returning) : (s.setReturning l r).clock = s.clock := rfl
@[simp] theorem State.setReturning_crystalRuns (s : State) (l : Fin 2) (r : Option Returning) : (s.setReturning l r).crystalRuns = s.crystalRuns := rfl
@[simp] theorem State.setReturning_crystalFault (s : State) (l : Fin 2) (r : Option Returning) : (s.setReturning l r).crystalFault = s.crystalFault := rfl
@[simp] theorem State.setReturning_mirrorsStand (s : State) (l : Fin 2) (r : Option Returning) : (s.setReturning l r).mirrorsStand = s.mirrorsStand := rfl
@[simp] theorem State.setReturning_tableCheck (s : State) (l : Fin 2) (r : Option Returning) : (s.setReturning l r).tableCheck = s.tableCheck := rfl
@[simp] theorem State.setReturning_zones (s : State) (l : Fin 2) (r : Option Returning) : (s.setReturning l r).zones = s.zones := rfl
@[simp] theorem State.setReturning_rooms (s : State) (l : Fin 2) (r : Option Returning) : (s.setReturning l r).rooms = s.rooms := rfl
@[simp] theorem State.setReturning_serial (s : State) (l : Fin 2) (r : Option Returning) : (s.setReturning l r).serial = s.serial := rfl
@[simp] theorem State.setReturning_revs (s : State) (l : Fin 2) (r : Option Returning) : (s.setReturning l r).revs = s.revs := rfl
@[simp] theorem State.setReturning_lastDeny (s : State) (l : Fin 2) (r : Option Returning) : (s.setReturning l r).lastDeny = s.lastDeny := rfl
@[simp] theorem State.setReturning_minibars (s : State) (l : Fin 2) (r : Option Returning) : (s.setReturning l r).minibars = s.minibars := rfl
@[simp] theorem State.setReturning_encoder (s : State) (l : Fin 2) (r : Option Returning) : (s.setReturning l r).encoder = s.encoder := rfl
@[simp] theorem State.setReturning_journal (s : State) (l : Fin 2) (r : Option Returning) : (s.setReturning l r).journal = s.journal := rfl
@[simp] theorem State.setReturning_freeCount (s : State) (l : Fin 2) (r : Option Returning) : (s.setReturning l r).freeCount = s.freeCount := rfl

@[simp] theorem State.rewriteSite_pending (s : State) : (s.rewriteSite).pending = s.pending := rfl
@[simp] theorem State.rewriteSite_powered (s : State) : (s.rewriteSite).powered = s.powered := rfl
@[simp] theorem State.rewriteSite_ready (s : State) : (s.rewriteSite).ready = s.ready := rfl
@[simp] theorem State.rewriteSite_latch (s : State) : (s.rewriteSite).latch = s.latch := rfl
@[simp] theorem State.rewriteSite_cause (s : State) : (s.rewriteSite).cause = s.cause := rfl
@[simp] theorem State.rewriteSite_mask (s : State) : (s.rewriteSite).mask = s.mask := rfl
@[simp] theorem State.rewriteSite_startFlags (s : State) : (s.rewriteSite).startFlags = s.startFlags := rfl
@[simp] theorem State.rewriteSite_selfTest (s : State) : (s.rewriteSite).selfTest = s.selfTest := rfl
@[simp] theorem State.rewriteSite_roomCounts (s : State) : (s.rewriteSite).roomCounts = s.roomCounts := rfl
@[simp] theorem State.rewriteSite_held (s : State) : (s.rewriteSite).held = s.held := rfl
@[simp] theorem State.rewriteSite_engine (s : State) : (s.rewriteSite).engine = s.engine := rfl
@[simp] theorem State.rewriteSite_intakeNext (s : State) : (s.rewriteSite).intakeNext = s.intakeNext := rfl
@[simp] theorem State.rewriteSite_site (s : State) : (s.rewriteSite).site = s.site := rfl
@[simp] theorem State.rewriteSite_clock (s : State) : (s.rewriteSite).clock = s.clock := rfl
@[simp] theorem State.rewriteSite_crystalRuns (s : State) : (s.rewriteSite).crystalRuns = s.crystalRuns := rfl
@[simp] theorem State.rewriteSite_crystalFault (s : State) : (s.rewriteSite).crystalFault = s.crystalFault := rfl
@[simp] theorem State.rewriteSite_mirrorsStand (s : State) : (s.rewriteSite).mirrorsStand = s.mirrorsStand := rfl
@[simp] theorem State.rewriteSite_tableCheck (s : State) : (s.rewriteSite).tableCheck = s.tableCheck := rfl
@[simp] theorem State.rewriteSite_zones (s : State) : (s.rewriteSite).zones = s.zones := rfl
@[simp] theorem State.rewriteSite_rooms (s : State) : (s.rewriteSite).rooms = s.rooms := rfl
@[simp] theorem State.rewriteSite_serial (s : State) : (s.rewriteSite).serial = s.serial := rfl
@[simp] theorem State.rewriteSite_revs (s : State) : (s.rewriteSite).revs = s.revs := rfl
@[simp] theorem State.rewriteSite_lastDeny (s : State) : (s.rewriteSite).lastDeny = s.lastDeny := rfl
@[simp] theorem State.rewriteSite_minibars (s : State) : (s.rewriteSite).minibars = s.minibars := rfl
@[simp] theorem State.rewriteSite_encoder (s : State) : (s.rewriteSite).encoder = s.encoder := rfl
@[simp] theorem State.rewriteSite_lines (s : State) : (s.rewriteSite).lines = s.lines := rfl
@[simp] theorem State.rewriteSite_journal (s : State) : (s.rewriteSite).journal = s.journal := rfl
@[simp] theorem State.rewriteSite_freeCount (s : State) : (s.rewriteSite).freeCount = s.freeCount := rfl

@[simp] theorem State.rewriteRoom_pending (s : State) (r : Fin 48) : (s.rewriteRoom r).pending = s.pending := rfl
@[simp] theorem State.rewriteRoom_powered (s : State) (r : Fin 48) : (s.rewriteRoom r).powered = s.powered := rfl
@[simp] theorem State.rewriteRoom_ready (s : State) (r : Fin 48) : (s.rewriteRoom r).ready = s.ready := rfl
@[simp] theorem State.rewriteRoom_latch (s : State) (r : Fin 48) : (s.rewriteRoom r).latch = s.latch := rfl
@[simp] theorem State.rewriteRoom_cause (s : State) (r : Fin 48) : (s.rewriteRoom r).cause = s.cause := rfl
@[simp] theorem State.rewriteRoom_mask (s : State) (r : Fin 48) : (s.rewriteRoom r).mask = s.mask := rfl
@[simp] theorem State.rewriteRoom_startFlags (s : State) (r : Fin 48) : (s.rewriteRoom r).startFlags = s.startFlags := rfl
@[simp] theorem State.rewriteRoom_selfTest (s : State) (r : Fin 48) : (s.rewriteRoom r).selfTest = s.selfTest := rfl
@[simp] theorem State.rewriteRoom_siteCount (s : State) (r : Fin 48) : (s.rewriteRoom r).siteCount = s.siteCount := rfl
@[simp] theorem State.rewriteRoom_held (s : State) (r : Fin 48) : (s.rewriteRoom r).held = s.held := rfl
@[simp] theorem State.rewriteRoom_engine (s : State) (r : Fin 48) : (s.rewriteRoom r).engine = s.engine := rfl
@[simp] theorem State.rewriteRoom_intakeNext (s : State) (r : Fin 48) : (s.rewriteRoom r).intakeNext = s.intakeNext := rfl
@[simp] theorem State.rewriteRoom_site (s : State) (r : Fin 48) : (s.rewriteRoom r).site = s.site := rfl
@[simp] theorem State.rewriteRoom_clock (s : State) (r : Fin 48) : (s.rewriteRoom r).clock = s.clock := rfl
@[simp] theorem State.rewriteRoom_crystalRuns (s : State) (r : Fin 48) : (s.rewriteRoom r).crystalRuns = s.crystalRuns := rfl
@[simp] theorem State.rewriteRoom_crystalFault (s : State) (r : Fin 48) : (s.rewriteRoom r).crystalFault = s.crystalFault := rfl
@[simp] theorem State.rewriteRoom_mirrorsStand (s : State) (r : Fin 48) : (s.rewriteRoom r).mirrorsStand = s.mirrorsStand := rfl
@[simp] theorem State.rewriteRoom_tableCheck (s : State) (r : Fin 48) : (s.rewriteRoom r).tableCheck = s.tableCheck := rfl
@[simp] theorem State.rewriteRoom_zones (s : State) (r : Fin 48) : (s.rewriteRoom r).zones = s.zones := rfl
@[simp] theorem State.rewriteRoom_rooms (s : State) (r : Fin 48) : (s.rewriteRoom r).rooms = s.rooms := rfl
@[simp] theorem State.rewriteRoom_serial (s : State) (r : Fin 48) : (s.rewriteRoom r).serial = s.serial := rfl
@[simp] theorem State.rewriteRoom_revs (s : State) (r : Fin 48) : (s.rewriteRoom r).revs = s.revs := rfl
@[simp] theorem State.rewriteRoom_lastDeny (s : State) (r : Fin 48) : (s.rewriteRoom r).lastDeny = s.lastDeny := rfl
@[simp] theorem State.rewriteRoom_minibars (s : State) (r : Fin 48) : (s.rewriteRoom r).minibars = s.minibars := rfl
@[simp] theorem State.rewriteRoom_encoder (s : State) (r : Fin 48) : (s.rewriteRoom r).encoder = s.encoder := rfl
@[simp] theorem State.rewriteRoom_lines (s : State) (r : Fin 48) : (s.rewriteRoom r).lines = s.lines := rfl
@[simp] theorem State.rewriteRoom_journal (s : State) (r : Fin 48) : (s.rewriteRoom r).journal = s.journal := rfl
@[simp] theorem State.rewriteRoom_freeCount (s : State) (r : Fin 48) : (s.rewriteRoom r).freeCount = s.freeCount := rfl

@[simp] theorem State.rewriteDrop_pending (s : State) (l : Fin 2) (a : Fin 64) : (s.rewriteDrop l a).pending = s.pending := rfl
@[simp] theorem State.rewriteDrop_powered (s : State) (l : Fin 2) (a : Fin 64) : (s.rewriteDrop l a).powered = s.powered := rfl
@[simp] theorem State.rewriteDrop_ready (s : State) (l : Fin 2) (a : Fin 64) : (s.rewriteDrop l a).ready = s.ready := rfl
@[simp] theorem State.rewriteDrop_latch (s : State) (l : Fin 2) (a : Fin 64) : (s.rewriteDrop l a).latch = s.latch := rfl
@[simp] theorem State.rewriteDrop_cause (s : State) (l : Fin 2) (a : Fin 64) : (s.rewriteDrop l a).cause = s.cause := rfl
@[simp] theorem State.rewriteDrop_mask (s : State) (l : Fin 2) (a : Fin 64) : (s.rewriteDrop l a).mask = s.mask := rfl
@[simp] theorem State.rewriteDrop_startFlags (s : State) (l : Fin 2) (a : Fin 64) : (s.rewriteDrop l a).startFlags = s.startFlags := rfl
@[simp] theorem State.rewriteDrop_selfTest (s : State) (l : Fin 2) (a : Fin 64) : (s.rewriteDrop l a).selfTest = s.selfTest := rfl
@[simp] theorem State.rewriteDrop_siteCount (s : State) (l : Fin 2) (a : Fin 64) : (s.rewriteDrop l a).siteCount = s.siteCount := rfl
@[simp] theorem State.rewriteDrop_roomCounts (s : State) (l : Fin 2) (a : Fin 64) : (s.rewriteDrop l a).roomCounts = s.roomCounts := rfl
@[simp] theorem State.rewriteDrop_held (s : State) (l : Fin 2) (a : Fin 64) : (s.rewriteDrop l a).held = s.held := rfl
@[simp] theorem State.rewriteDrop_engine (s : State) (l : Fin 2) (a : Fin 64) : (s.rewriteDrop l a).engine = s.engine := rfl
@[simp] theorem State.rewriteDrop_intakeNext (s : State) (l : Fin 2) (a : Fin 64) : (s.rewriteDrop l a).intakeNext = s.intakeNext := rfl
@[simp] theorem State.rewriteDrop_site (s : State) (l : Fin 2) (a : Fin 64) : (s.rewriteDrop l a).site = s.site := rfl
@[simp] theorem State.rewriteDrop_clock (s : State) (l : Fin 2) (a : Fin 64) : (s.rewriteDrop l a).clock = s.clock := rfl
@[simp] theorem State.rewriteDrop_crystalRuns (s : State) (l : Fin 2) (a : Fin 64) : (s.rewriteDrop l a).crystalRuns = s.crystalRuns := rfl
@[simp] theorem State.rewriteDrop_crystalFault (s : State) (l : Fin 2) (a : Fin 64) : (s.rewriteDrop l a).crystalFault = s.crystalFault := rfl
@[simp] theorem State.rewriteDrop_mirrorsStand (s : State) (l : Fin 2) (a : Fin 64) : (s.rewriteDrop l a).mirrorsStand = s.mirrorsStand := rfl
@[simp] theorem State.rewriteDrop_tableCheck (s : State) (l : Fin 2) (a : Fin 64) : (s.rewriteDrop l a).tableCheck = s.tableCheck := rfl
@[simp] theorem State.rewriteDrop_zones (s : State) (l : Fin 2) (a : Fin 64) : (s.rewriteDrop l a).zones = s.zones := rfl
@[simp] theorem State.rewriteDrop_rooms (s : State) (l : Fin 2) (a : Fin 64) : (s.rewriteDrop l a).rooms = s.rooms := rfl
@[simp] theorem State.rewriteDrop_serial (s : State) (l : Fin 2) (a : Fin 64) : (s.rewriteDrop l a).serial = s.serial := rfl
@[simp] theorem State.rewriteDrop_revs (s : State) (l : Fin 2) (a : Fin 64) : (s.rewriteDrop l a).revs = s.revs := rfl
@[simp] theorem State.rewriteDrop_lastDeny (s : State) (l : Fin 2) (a : Fin 64) : (s.rewriteDrop l a).lastDeny = s.lastDeny := rfl
@[simp] theorem State.rewriteDrop_minibars (s : State) (l : Fin 2) (a : Fin 64) : (s.rewriteDrop l a).minibars = s.minibars := rfl
@[simp] theorem State.rewriteDrop_encoder (s : State) (l : Fin 2) (a : Fin 64) : (s.rewriteDrop l a).encoder = s.encoder := rfl
@[simp] theorem State.rewriteDrop_lines (s : State) (l : Fin 2) (a : Fin 64) : (s.rewriteDrop l a).lines = s.lines := rfl
@[simp] theorem State.rewriteDrop_journal (s : State) (l : Fin 2) (a : Fin 64) : (s.rewriteDrop l a).journal = s.journal := rfl
@[simp] theorem State.rewriteDrop_freeCount (s : State) (l : Fin 2) (a : Fin 64) : (s.rewriteDrop l a).freeCount = s.freeCount := rfl

@[simp] theorem State.setLineState_pending (s : State) (l : Fin 2) (st : LineState) : (s.setLineState l st).pending = s.pending := rfl
@[simp] theorem State.setLineState_powered (s : State) (l : Fin 2) (st : LineState) : (s.setLineState l st).powered = s.powered := rfl
@[simp] theorem State.setLineState_ready (s : State) (l : Fin 2) (st : LineState) : (s.setLineState l st).ready = s.ready := rfl
@[simp] theorem State.setLineState_latch (s : State) (l : Fin 2) (st : LineState) : (s.setLineState l st).latch = s.latch := rfl
@[simp] theorem State.setLineState_cause (s : State) (l : Fin 2) (st : LineState) : (s.setLineState l st).cause = s.cause := rfl
@[simp] theorem State.setLineState_mask (s : State) (l : Fin 2) (st : LineState) : (s.setLineState l st).mask = s.mask := rfl
@[simp] theorem State.setLineState_startFlags (s : State) (l : Fin 2) (st : LineState) : (s.setLineState l st).startFlags = s.startFlags := rfl
@[simp] theorem State.setLineState_selfTest (s : State) (l : Fin 2) (st : LineState) : (s.setLineState l st).selfTest = s.selfTest := rfl
@[simp] theorem State.setLineState_roomCounts (s : State) (l : Fin 2) (st : LineState) : (s.setLineState l st).roomCounts = s.roomCounts := rfl
@[simp] theorem State.setLineState_held (s : State) (l : Fin 2) (st : LineState) : (s.setLineState l st).held = s.held := rfl
@[simp] theorem State.setLineState_engine (s : State) (l : Fin 2) (st : LineState) : (s.setLineState l st).engine = s.engine := rfl
@[simp] theorem State.setLineState_intakeNext (s : State) (l : Fin 2) (st : LineState) : (s.setLineState l st).intakeNext = s.intakeNext := rfl
@[simp] theorem State.setLineState_site (s : State) (l : Fin 2) (st : LineState) : (s.setLineState l st).site = s.site := rfl
@[simp] theorem State.setLineState_clock (s : State) (l : Fin 2) (st : LineState) : (s.setLineState l st).clock = s.clock := rfl
@[simp] theorem State.setLineState_crystalRuns (s : State) (l : Fin 2) (st : LineState) : (s.setLineState l st).crystalRuns = s.crystalRuns := rfl
@[simp] theorem State.setLineState_crystalFault (s : State) (l : Fin 2) (st : LineState) : (s.setLineState l st).crystalFault = s.crystalFault := rfl
@[simp] theorem State.setLineState_mirrorsStand (s : State) (l : Fin 2) (st : LineState) : (s.setLineState l st).mirrorsStand = s.mirrorsStand := rfl
@[simp] theorem State.setLineState_tableCheck (s : State) (l : Fin 2) (st : LineState) : (s.setLineState l st).tableCheck = s.tableCheck := rfl
@[simp] theorem State.setLineState_zones (s : State) (l : Fin 2) (st : LineState) : (s.setLineState l st).zones = s.zones := rfl
@[simp] theorem State.setLineState_rooms (s : State) (l : Fin 2) (st : LineState) : (s.setLineState l st).rooms = s.rooms := rfl
@[simp] theorem State.setLineState_serial (s : State) (l : Fin 2) (st : LineState) : (s.setLineState l st).serial = s.serial := rfl
@[simp] theorem State.setLineState_revs (s : State) (l : Fin 2) (st : LineState) : (s.setLineState l st).revs = s.revs := rfl
@[simp] theorem State.setLineState_lastDeny (s : State) (l : Fin 2) (st : LineState) : (s.setLineState l st).lastDeny = s.lastDeny := rfl
@[simp] theorem State.setLineState_minibars (s : State) (l : Fin 2) (st : LineState) : (s.setLineState l st).minibars = s.minibars := rfl
@[simp] theorem State.setLineState_encoder (s : State) (l : Fin 2) (st : LineState) : (s.setLineState l st).encoder = s.encoder := rfl
@[simp] theorem State.setLineState_journal (s : State) (l : Fin 2) (st : LineState) : (s.setLineState l st).journal = s.journal := rfl
@[simp] theorem State.setLineState_freeCount (s : State) (l : Fin 2) (st : LineState) : (s.setLineState l st).freeCount = s.freeCount := rfl

@[simp] theorem State.setRate_pending (s : State) (l : Fin 2) (rate divisor : Nat) : (s.setRate l rate divisor).pending = s.pending := rfl
@[simp] theorem State.setRate_powered (s : State) (l : Fin 2) (rate divisor : Nat) : (s.setRate l rate divisor).powered = s.powered := rfl
@[simp] theorem State.setRate_ready (s : State) (l : Fin 2) (rate divisor : Nat) : (s.setRate l rate divisor).ready = s.ready := rfl
@[simp] theorem State.setRate_latch (s : State) (l : Fin 2) (rate divisor : Nat) : (s.setRate l rate divisor).latch = s.latch := rfl
@[simp] theorem State.setRate_cause (s : State) (l : Fin 2) (rate divisor : Nat) : (s.setRate l rate divisor).cause = s.cause := rfl
@[simp] theorem State.setRate_mask (s : State) (l : Fin 2) (rate divisor : Nat) : (s.setRate l rate divisor).mask = s.mask := rfl
@[simp] theorem State.setRate_startFlags (s : State) (l : Fin 2) (rate divisor : Nat) : (s.setRate l rate divisor).startFlags = s.startFlags := rfl
@[simp] theorem State.setRate_selfTest (s : State) (l : Fin 2) (rate divisor : Nat) : (s.setRate l rate divisor).selfTest = s.selfTest := rfl
@[simp] theorem State.setRate_ram (s : State) (l : Fin 2) (rate divisor : Nat) : (s.setRate l rate divisor).ram = s.ram := rfl
@[simp] theorem State.setRate_siteCount (s : State) (l : Fin 2) (rate divisor : Nat) : (s.setRate l rate divisor).siteCount = s.siteCount := rfl
@[simp] theorem State.setRate_roomCounts (s : State) (l : Fin 2) (rate divisor : Nat) : (s.setRate l rate divisor).roomCounts = s.roomCounts := rfl
@[simp] theorem State.setRate_held (s : State) (l : Fin 2) (rate divisor : Nat) : (s.setRate l rate divisor).held = s.held := rfl
@[simp] theorem State.setRate_engine (s : State) (l : Fin 2) (rate divisor : Nat) : (s.setRate l rate divisor).engine = s.engine := rfl
@[simp] theorem State.setRate_intakeNext (s : State) (l : Fin 2) (rate divisor : Nat) : (s.setRate l rate divisor).intakeNext = s.intakeNext := rfl
@[simp] theorem State.setRate_site (s : State) (l : Fin 2) (rate divisor : Nat) : (s.setRate l rate divisor).site = s.site := rfl
@[simp] theorem State.setRate_clock (s : State) (l : Fin 2) (rate divisor : Nat) : (s.setRate l rate divisor).clock = s.clock := rfl
@[simp] theorem State.setRate_crystalRuns (s : State) (l : Fin 2) (rate divisor : Nat) : (s.setRate l rate divisor).crystalRuns = s.crystalRuns := rfl
@[simp] theorem State.setRate_crystalFault (s : State) (l : Fin 2) (rate divisor : Nat) : (s.setRate l rate divisor).crystalFault = s.crystalFault := rfl
@[simp] theorem State.setRate_mirrorsStand (s : State) (l : Fin 2) (rate divisor : Nat) : (s.setRate l rate divisor).mirrorsStand = s.mirrorsStand := rfl
@[simp] theorem State.setRate_tableCheck (s : State) (l : Fin 2) (rate divisor : Nat) : (s.setRate l rate divisor).tableCheck = s.tableCheck := rfl
@[simp] theorem State.setRate_zones (s : State) (l : Fin 2) (rate divisor : Nat) : (s.setRate l rate divisor).zones = s.zones := rfl
@[simp] theorem State.setRate_rooms (s : State) (l : Fin 2) (rate divisor : Nat) : (s.setRate l rate divisor).rooms = s.rooms := rfl
@[simp] theorem State.setRate_serial (s : State) (l : Fin 2) (rate divisor : Nat) : (s.setRate l rate divisor).serial = s.serial := rfl
@[simp] theorem State.setRate_revs (s : State) (l : Fin 2) (rate divisor : Nat) : (s.setRate l rate divisor).revs = s.revs := rfl
@[simp] theorem State.setRate_lastDeny (s : State) (l : Fin 2) (rate divisor : Nat) : (s.setRate l rate divisor).lastDeny = s.lastDeny := rfl
@[simp] theorem State.setRate_minibars (s : State) (l : Fin 2) (rate divisor : Nat) : (s.setRate l rate divisor).minibars = s.minibars := rfl
@[simp] theorem State.setRate_encoder (s : State) (l : Fin 2) (rate divisor : Nat) : (s.setRate l rate divisor).encoder = s.encoder := rfl
@[simp] theorem State.setRate_journal (s : State) (l : Fin 2) (rate divisor : Nat) : (s.setRate l rate divisor).journal = s.journal := rfl
@[simp] theorem State.setRate_freeCount (s : State) (l : Fin 2) (rate divisor : Nat) : (s.setRate l rate divisor).freeCount = s.freeCount := rfl

@[simp] theorem State.setEncoder_pending (s : State) (e : Encoder) : (s.setEncoder e).pending = s.pending := rfl
@[simp] theorem State.setEncoder_powered (s : State) (e : Encoder) : (s.setEncoder e).powered = s.powered := rfl
@[simp] theorem State.setEncoder_ready (s : State) (e : Encoder) : (s.setEncoder e).ready = s.ready := rfl
@[simp] theorem State.setEncoder_latch (s : State) (e : Encoder) : (s.setEncoder e).latch = s.latch := rfl
@[simp] theorem State.setEncoder_cause (s : State) (e : Encoder) : (s.setEncoder e).cause = s.cause := rfl
@[simp] theorem State.setEncoder_mask (s : State) (e : Encoder) : (s.setEncoder e).mask = s.mask := rfl
@[simp] theorem State.setEncoder_startFlags (s : State) (e : Encoder) : (s.setEncoder e).startFlags = s.startFlags := rfl
@[simp] theorem State.setEncoder_selfTest (s : State) (e : Encoder) : (s.setEncoder e).selfTest = s.selfTest := rfl
@[simp] theorem State.setEncoder_ram (s : State) (e : Encoder) : (s.setEncoder e).ram = s.ram := rfl
@[simp] theorem State.setEncoder_siteCount (s : State) (e : Encoder) : (s.setEncoder e).siteCount = s.siteCount := rfl
@[simp] theorem State.setEncoder_roomCounts (s : State) (e : Encoder) : (s.setEncoder e).roomCounts = s.roomCounts := rfl
@[simp] theorem State.setEncoder_held (s : State) (e : Encoder) : (s.setEncoder e).held = s.held := rfl
@[simp] theorem State.setEncoder_engine (s : State) (e : Encoder) : (s.setEncoder e).engine = s.engine := rfl
@[simp] theorem State.setEncoder_intakeNext (s : State) (e : Encoder) : (s.setEncoder e).intakeNext = s.intakeNext := rfl
@[simp] theorem State.setEncoder_site (s : State) (e : Encoder) : (s.setEncoder e).site = s.site := rfl
@[simp] theorem State.setEncoder_clock (s : State) (e : Encoder) : (s.setEncoder e).clock = s.clock := rfl
@[simp] theorem State.setEncoder_crystalRuns (s : State) (e : Encoder) : (s.setEncoder e).crystalRuns = s.crystalRuns := rfl
@[simp] theorem State.setEncoder_crystalFault (s : State) (e : Encoder) : (s.setEncoder e).crystalFault = s.crystalFault := rfl
@[simp] theorem State.setEncoder_mirrorsStand (s : State) (e : Encoder) : (s.setEncoder e).mirrorsStand = s.mirrorsStand := rfl
@[simp] theorem State.setEncoder_tableCheck (s : State) (e : Encoder) : (s.setEncoder e).tableCheck = s.tableCheck := rfl
@[simp] theorem State.setEncoder_zones (s : State) (e : Encoder) : (s.setEncoder e).zones = s.zones := rfl
@[simp] theorem State.setEncoder_rooms (s : State) (e : Encoder) : (s.setEncoder e).rooms = s.rooms := rfl
@[simp] theorem State.setEncoder_serial (s : State) (e : Encoder) : (s.setEncoder e).serial = s.serial := rfl
@[simp] theorem State.setEncoder_revs (s : State) (e : Encoder) : (s.setEncoder e).revs = s.revs := rfl
@[simp] theorem State.setEncoder_lastDeny (s : State) (e : Encoder) : (s.setEncoder e).lastDeny = s.lastDeny := rfl
@[simp] theorem State.setEncoder_minibars (s : State) (e : Encoder) : (s.setEncoder e).minibars = s.minibars := rfl
@[simp] theorem State.setEncoder_lines (s : State) (e : Encoder) : (s.setEncoder e).lines = s.lines := rfl
@[simp] theorem State.setEncoder_journal (s : State) (e : Encoder) : (s.setEncoder e).journal = s.journal := rfl
@[simp] theorem State.setEncoder_freeCount (s : State) (e : Encoder) : (s.setEncoder e).freeCount = s.freeCount := rfl

@[simp] theorem State.chooseOrder_pending (s : State) : (s.chooseOrder).pending = s.pending := rfl
@[simp] theorem State.chooseOrder_powered (s : State) : (s.chooseOrder).powered = s.powered := rfl
@[simp] theorem State.chooseOrder_ready (s : State) : (s.chooseOrder).ready = s.ready := rfl
@[simp] theorem State.chooseOrder_latch (s : State) : (s.chooseOrder).latch = s.latch := rfl
@[simp] theorem State.chooseOrder_cause (s : State) : (s.chooseOrder).cause = s.cause := rfl
@[simp] theorem State.chooseOrder_mask (s : State) : (s.chooseOrder).mask = s.mask := rfl
@[simp] theorem State.chooseOrder_startFlags (s : State) : (s.chooseOrder).startFlags = s.startFlags := rfl
@[simp] theorem State.chooseOrder_selfTest (s : State) : (s.chooseOrder).selfTest = s.selfTest := rfl
@[simp] theorem State.chooseOrder_ram (s : State) : (s.chooseOrder).ram = s.ram := rfl
@[simp] theorem State.chooseOrder_siteCount (s : State) : (s.chooseOrder).siteCount = s.siteCount := rfl
@[simp] theorem State.chooseOrder_roomCounts (s : State) : (s.chooseOrder).roomCounts = s.roomCounts := rfl
@[simp] theorem State.chooseOrder_held (s : State) : (s.chooseOrder).held = s.held := rfl
@[simp] theorem State.chooseOrder_intakeNext (s : State) : (s.chooseOrder).intakeNext = s.intakeNext := rfl
@[simp] theorem State.chooseOrder_site (s : State) : (s.chooseOrder).site = s.site := rfl
@[simp] theorem State.chooseOrder_clock (s : State) : (s.chooseOrder).clock = s.clock := rfl
@[simp] theorem State.chooseOrder_crystalRuns (s : State) : (s.chooseOrder).crystalRuns = s.crystalRuns := rfl
@[simp] theorem State.chooseOrder_crystalFault (s : State) : (s.chooseOrder).crystalFault = s.crystalFault := rfl
@[simp] theorem State.chooseOrder_mirrorsStand (s : State) : (s.chooseOrder).mirrorsStand = s.mirrorsStand := rfl
@[simp] theorem State.chooseOrder_tableCheck (s : State) : (s.chooseOrder).tableCheck = s.tableCheck := rfl
@[simp] theorem State.chooseOrder_zones (s : State) : (s.chooseOrder).zones = s.zones := rfl
@[simp] theorem State.chooseOrder_rooms (s : State) : (s.chooseOrder).rooms = s.rooms := rfl
@[simp] theorem State.chooseOrder_serial (s : State) : (s.chooseOrder).serial = s.serial := rfl
@[simp] theorem State.chooseOrder_revs (s : State) : (s.chooseOrder).revs = s.revs := rfl
@[simp] theorem State.chooseOrder_lastDeny (s : State) : (s.chooseOrder).lastDeny = s.lastDeny := rfl
@[simp] theorem State.chooseOrder_minibars (s : State) : (s.chooseOrder).minibars = s.minibars := rfl
@[simp] theorem State.chooseOrder_encoder (s : State) : (s.chooseOrder).encoder = s.encoder := rfl
@[simp] theorem State.chooseOrder_lines (s : State) : (s.chooseOrder).lines = s.lines := rfl
@[simp] theorem State.chooseOrder_journal (s : State) : (s.chooseOrder).journal = s.journal := rfl
@[simp] theorem State.chooseOrder_freeCount (s : State) : (s.chooseOrder).freeCount = s.freeCount := rfl

@[simp] theorem State.setRunning_pending (s : State) (o : EncOrder) : (s.setRunning o).pending = s.pending := rfl
@[simp] theorem State.setRunning_powered (s : State) (o : EncOrder) : (s.setRunning o).powered = s.powered := rfl
@[simp] theorem State.setRunning_ready (s : State) (o : EncOrder) : (s.setRunning o).ready = s.ready := rfl
@[simp] theorem State.setRunning_latch (s : State) (o : EncOrder) : (s.setRunning o).latch = s.latch := rfl
@[simp] theorem State.setRunning_cause (s : State) (o : EncOrder) : (s.setRunning o).cause = s.cause := rfl
@[simp] theorem State.setRunning_mask (s : State) (o : EncOrder) : (s.setRunning o).mask = s.mask := rfl
@[simp] theorem State.setRunning_startFlags (s : State) (o : EncOrder) : (s.setRunning o).startFlags = s.startFlags := rfl
@[simp] theorem State.setRunning_selfTest (s : State) (o : EncOrder) : (s.setRunning o).selfTest = s.selfTest := rfl
@[simp] theorem State.setRunning_ram (s : State) (o : EncOrder) : (s.setRunning o).ram = s.ram := rfl
@[simp] theorem State.setRunning_siteCount (s : State) (o : EncOrder) : (s.setRunning o).siteCount = s.siteCount := rfl
@[simp] theorem State.setRunning_roomCounts (s : State) (o : EncOrder) : (s.setRunning o).roomCounts = s.roomCounts := rfl
@[simp] theorem State.setRunning_held (s : State) (o : EncOrder) : (s.setRunning o).held = s.held := rfl
@[simp] theorem State.setRunning_engine (s : State) (o : EncOrder) : (s.setRunning o).engine = s.engine := rfl
@[simp] theorem State.setRunning_intakeNext (s : State) (o : EncOrder) : (s.setRunning o).intakeNext = s.intakeNext := rfl
@[simp] theorem State.setRunning_site (s : State) (o : EncOrder) : (s.setRunning o).site = s.site := rfl
@[simp] theorem State.setRunning_clock (s : State) (o : EncOrder) : (s.setRunning o).clock = s.clock := rfl
@[simp] theorem State.setRunning_crystalRuns (s : State) (o : EncOrder) : (s.setRunning o).crystalRuns = s.crystalRuns := rfl
@[simp] theorem State.setRunning_crystalFault (s : State) (o : EncOrder) : (s.setRunning o).crystalFault = s.crystalFault := rfl
@[simp] theorem State.setRunning_mirrorsStand (s : State) (o : EncOrder) : (s.setRunning o).mirrorsStand = s.mirrorsStand := rfl
@[simp] theorem State.setRunning_tableCheck (s : State) (o : EncOrder) : (s.setRunning o).tableCheck = s.tableCheck := rfl
@[simp] theorem State.setRunning_zones (s : State) (o : EncOrder) : (s.setRunning o).zones = s.zones := rfl
@[simp] theorem State.setRunning_rooms (s : State) (o : EncOrder) : (s.setRunning o).rooms = s.rooms := rfl
@[simp] theorem State.setRunning_serial (s : State) (o : EncOrder) : (s.setRunning o).serial = s.serial := rfl
@[simp] theorem State.setRunning_revs (s : State) (o : EncOrder) : (s.setRunning o).revs = s.revs := rfl
@[simp] theorem State.setRunning_lastDeny (s : State) (o : EncOrder) : (s.setRunning o).lastDeny = s.lastDeny := rfl
@[simp] theorem State.setRunning_minibars (s : State) (o : EncOrder) : (s.setRunning o).minibars = s.minibars := rfl
@[simp] theorem State.setRunning_lines (s : State) (o : EncOrder) : (s.setRunning o).lines = s.lines := rfl
@[simp] theorem State.setRunning_journal (s : State) (o : EncOrder) : (s.setRunning o).journal = s.journal := rfl
@[simp] theorem State.setRunning_freeCount (s : State) (o : EncOrder) : (s.setRunning o).freeCount = s.freeCount := rfl

@[simp] theorem State.passTo_pending (s : State) (b : Fin 16) (o : Owner) : (s.passTo b o).pending = s.pending := rfl
@[simp] theorem State.passTo_powered (s : State) (b : Fin 16) (o : Owner) : (s.passTo b o).powered = s.powered := rfl
@[simp] theorem State.passTo_ready (s : State) (b : Fin 16) (o : Owner) : (s.passTo b o).ready = s.ready := rfl
@[simp] theorem State.passTo_latch (s : State) (b : Fin 16) (o : Owner) : (s.passTo b o).latch = s.latch := rfl
@[simp] theorem State.passTo_cause (s : State) (b : Fin 16) (o : Owner) : (s.passTo b o).cause = s.cause := rfl
@[simp] theorem State.passTo_mask (s : State) (b : Fin 16) (o : Owner) : (s.passTo b o).mask = s.mask := rfl
@[simp] theorem State.passTo_startFlags (s : State) (b : Fin 16) (o : Owner) : (s.passTo b o).startFlags = s.startFlags := rfl
@[simp] theorem State.passTo_selfTest (s : State) (b : Fin 16) (o : Owner) : (s.passTo b o).selfTest = s.selfTest := rfl
@[simp] theorem State.passTo_ram (s : State) (b : Fin 16) (o : Owner) : (s.passTo b o).ram = s.ram := rfl
@[simp] theorem State.passTo_siteCount (s : State) (b : Fin 16) (o : Owner) : (s.passTo b o).siteCount = s.siteCount := rfl
@[simp] theorem State.passTo_roomCounts (s : State) (b : Fin 16) (o : Owner) : (s.passTo b o).roomCounts = s.roomCounts := rfl
@[simp] theorem State.passTo_engine (s : State) (b : Fin 16) (o : Owner) : (s.passTo b o).engine = s.engine := rfl
@[simp] theorem State.passTo_intakeNext (s : State) (b : Fin 16) (o : Owner) : (s.passTo b o).intakeNext = s.intakeNext := rfl
@[simp] theorem State.passTo_site (s : State) (b : Fin 16) (o : Owner) : (s.passTo b o).site = s.site := rfl
@[simp] theorem State.passTo_clock (s : State) (b : Fin 16) (o : Owner) : (s.passTo b o).clock = s.clock := rfl
@[simp] theorem State.passTo_crystalRuns (s : State) (b : Fin 16) (o : Owner) : (s.passTo b o).crystalRuns = s.crystalRuns := rfl
@[simp] theorem State.passTo_crystalFault (s : State) (b : Fin 16) (o : Owner) : (s.passTo b o).crystalFault = s.crystalFault := rfl
@[simp] theorem State.passTo_mirrorsStand (s : State) (b : Fin 16) (o : Owner) : (s.passTo b o).mirrorsStand = s.mirrorsStand := rfl
@[simp] theorem State.passTo_tableCheck (s : State) (b : Fin 16) (o : Owner) : (s.passTo b o).tableCheck = s.tableCheck := rfl
@[simp] theorem State.passTo_zones (s : State) (b : Fin 16) (o : Owner) : (s.passTo b o).zones = s.zones := rfl
@[simp] theorem State.passTo_rooms (s : State) (b : Fin 16) (o : Owner) : (s.passTo b o).rooms = s.rooms := rfl
@[simp] theorem State.passTo_serial (s : State) (b : Fin 16) (o : Owner) : (s.passTo b o).serial = s.serial := rfl
@[simp] theorem State.passTo_revs (s : State) (b : Fin 16) (o : Owner) : (s.passTo b o).revs = s.revs := rfl
@[simp] theorem State.passTo_lastDeny (s : State) (b : Fin 16) (o : Owner) : (s.passTo b o).lastDeny = s.lastDeny := rfl
@[simp] theorem State.passTo_minibars (s : State) (b : Fin 16) (o : Owner) : (s.passTo b o).minibars = s.minibars := rfl
@[simp] theorem State.passTo_encoder (s : State) (b : Fin 16) (o : Owner) : (s.passTo b o).encoder = s.encoder := rfl
@[simp] theorem State.passTo_lines (s : State) (b : Fin 16) (o : Owner) : (s.passTo b o).lines = s.lines := rfl
@[simp] theorem State.passTo_journal (s : State) (b : Fin 16) (o : Owner) : (s.passTo b o).journal = s.journal := rfl
@[simp] theorem State.passTo_freeCount (s : State) (b : Fin 16) (o : Owner) : (s.passTo b o).freeCount = s.freeCount := rfl

@[simp] theorem State.complete_pending (s : State) (b : Fin 16) (res : Result) (data : List Byte) : (s.complete b res data).pending = s.pending := rfl
@[simp] theorem State.complete_powered (s : State) (b : Fin 16) (res : Result) (data : List Byte) : (s.complete b res data).powered = s.powered := rfl
@[simp] theorem State.complete_ready (s : State) (b : Fin 16) (res : Result) (data : List Byte) : (s.complete b res data).ready = s.ready := rfl
@[simp] theorem State.complete_latch (s : State) (b : Fin 16) (res : Result) (data : List Byte) : (s.complete b res data).latch = s.latch := rfl
@[simp] theorem State.complete_mask (s : State) (b : Fin 16) (res : Result) (data : List Byte) : (s.complete b res data).mask = s.mask := rfl
@[simp] theorem State.complete_startFlags (s : State) (b : Fin 16) (res : Result) (data : List Byte) : (s.complete b res data).startFlags = s.startFlags := rfl
@[simp] theorem State.complete_selfTest (s : State) (b : Fin 16) (res : Result) (data : List Byte) : (s.complete b res data).selfTest = s.selfTest := rfl
@[simp] theorem State.complete_siteCount (s : State) (b : Fin 16) (res : Result) (data : List Byte) : (s.complete b res data).siteCount = s.siteCount := rfl
@[simp] theorem State.complete_roomCounts (s : State) (b : Fin 16) (res : Result) (data : List Byte) : (s.complete b res data).roomCounts = s.roomCounts := rfl
@[simp] theorem State.complete_engine (s : State) (b : Fin 16) (res : Result) (data : List Byte) : (s.complete b res data).engine = s.engine := rfl
@[simp] theorem State.complete_intakeNext (s : State) (b : Fin 16) (res : Result) (data : List Byte) : (s.complete b res data).intakeNext = s.intakeNext := rfl
@[simp] theorem State.complete_site (s : State) (b : Fin 16) (res : Result) (data : List Byte) : (s.complete b res data).site = s.site := rfl
@[simp] theorem State.complete_clock (s : State) (b : Fin 16) (res : Result) (data : List Byte) : (s.complete b res data).clock = s.clock := rfl
@[simp] theorem State.complete_crystalRuns (s : State) (b : Fin 16) (res : Result) (data : List Byte) : (s.complete b res data).crystalRuns = s.crystalRuns := rfl
@[simp] theorem State.complete_crystalFault (s : State) (b : Fin 16) (res : Result) (data : List Byte) : (s.complete b res data).crystalFault = s.crystalFault := rfl
@[simp] theorem State.complete_mirrorsStand (s : State) (b : Fin 16) (res : Result) (data : List Byte) : (s.complete b res data).mirrorsStand = s.mirrorsStand := rfl
@[simp] theorem State.complete_tableCheck (s : State) (b : Fin 16) (res : Result) (data : List Byte) : (s.complete b res data).tableCheck = s.tableCheck := rfl
@[simp] theorem State.complete_zones (s : State) (b : Fin 16) (res : Result) (data : List Byte) : (s.complete b res data).zones = s.zones := rfl
@[simp] theorem State.complete_rooms (s : State) (b : Fin 16) (res : Result) (data : List Byte) : (s.complete b res data).rooms = s.rooms := rfl
@[simp] theorem State.complete_serial (s : State) (b : Fin 16) (res : Result) (data : List Byte) : (s.complete b res data).serial = s.serial := rfl
@[simp] theorem State.complete_revs (s : State) (b : Fin 16) (res : Result) (data : List Byte) : (s.complete b res data).revs = s.revs := rfl
@[simp] theorem State.complete_lastDeny (s : State) (b : Fin 16) (res : Result) (data : List Byte) : (s.complete b res data).lastDeny = s.lastDeny := rfl
@[simp] theorem State.complete_minibars (s : State) (b : Fin 16) (res : Result) (data : List Byte) : (s.complete b res data).minibars = s.minibars := rfl
@[simp] theorem State.complete_encoder (s : State) (b : Fin 16) (res : Result) (data : List Byte) : (s.complete b res data).encoder = s.encoder := rfl
@[simp] theorem State.complete_lines (s : State) (b : Fin 16) (res : Result) (data : List Byte) : (s.complete b res data).lines = s.lines := rfl
@[simp] theorem State.complete_journal (s : State) (b : Fin 16) (res : Result) (data : List Byte) : (s.complete b res data).journal = s.journal := rfl
@[simp] theorem State.complete_freeCount (s : State) (b : Fin 16) (res : Result) (data : List Byte) : (s.complete b res data).freeCount = s.freeCount := rfl

@[simp] theorem State.spendFree_pending (s : State) (n : Nat) : (s.spendFree n).pending = s.pending := rfl
@[simp] theorem State.spendFree_powered (s : State) (n : Nat) : (s.spendFree n).powered = s.powered := rfl
@[simp] theorem State.spendFree_ready (s : State) (n : Nat) : (s.spendFree n).ready = s.ready := rfl
@[simp] theorem State.spendFree_latch (s : State) (n : Nat) : (s.spendFree n).latch = s.latch := rfl
@[simp] theorem State.spendFree_cause (s : State) (n : Nat) : (s.spendFree n).cause = s.cause := rfl
@[simp] theorem State.spendFree_mask (s : State) (n : Nat) : (s.spendFree n).mask = s.mask := rfl
@[simp] theorem State.spendFree_startFlags (s : State) (n : Nat) : (s.spendFree n).startFlags = s.startFlags := rfl
@[simp] theorem State.spendFree_selfTest (s : State) (n : Nat) : (s.spendFree n).selfTest = s.selfTest := rfl
@[simp] theorem State.spendFree_ram (s : State) (n : Nat) : (s.spendFree n).ram = s.ram := rfl
@[simp] theorem State.spendFree_siteCount (s : State) (n : Nat) : (s.spendFree n).siteCount = s.siteCount := rfl
@[simp] theorem State.spendFree_roomCounts (s : State) (n : Nat) : (s.spendFree n).roomCounts = s.roomCounts := rfl
@[simp] theorem State.spendFree_held (s : State) (n : Nat) : (s.spendFree n).held = s.held := rfl
@[simp] theorem State.spendFree_engine (s : State) (n : Nat) : (s.spendFree n).engine = s.engine := rfl
@[simp] theorem State.spendFree_intakeNext (s : State) (n : Nat) : (s.spendFree n).intakeNext = s.intakeNext := rfl
@[simp] theorem State.spendFree_site (s : State) (n : Nat) : (s.spendFree n).site = s.site := rfl
@[simp] theorem State.spendFree_clock (s : State) (n : Nat) : (s.spendFree n).clock = s.clock := rfl
@[simp] theorem State.spendFree_crystalRuns (s : State) (n : Nat) : (s.spendFree n).crystalRuns = s.crystalRuns := rfl
@[simp] theorem State.spendFree_crystalFault (s : State) (n : Nat) : (s.spendFree n).crystalFault = s.crystalFault := rfl
@[simp] theorem State.spendFree_mirrorsStand (s : State) (n : Nat) : (s.spendFree n).mirrorsStand = s.mirrorsStand := rfl
@[simp] theorem State.spendFree_tableCheck (s : State) (n : Nat) : (s.spendFree n).tableCheck = s.tableCheck := rfl
@[simp] theorem State.spendFree_zones (s : State) (n : Nat) : (s.spendFree n).zones = s.zones := rfl
@[simp] theorem State.spendFree_rooms (s : State) (n : Nat) : (s.spendFree n).rooms = s.rooms := rfl
@[simp] theorem State.spendFree_serial (s : State) (n : Nat) : (s.spendFree n).serial = s.serial := rfl
@[simp] theorem State.spendFree_revs (s : State) (n : Nat) : (s.spendFree n).revs = s.revs := rfl
@[simp] theorem State.spendFree_lastDeny (s : State) (n : Nat) : (s.spendFree n).lastDeny = s.lastDeny := rfl
@[simp] theorem State.spendFree_minibars (s : State) (n : Nat) : (s.spendFree n).minibars = s.minibars := rfl
@[simp] theorem State.spendFree_encoder (s : State) (n : Nat) : (s.spendFree n).encoder = s.encoder := rfl
@[simp] theorem State.spendFree_lines (s : State) (n : Nat) : (s.spendFree n).lines = s.lines := rfl
@[simp] theorem State.spendFree_journal (s : State) (n : Nat) : (s.spendFree n).journal = s.journal := rfl

@[simp] theorem State.putSerial_pending (s : State) (n : Nat) : (s.putSerial n).pending = s.pending := rfl
@[simp] theorem State.putSerial_powered (s : State) (n : Nat) : (s.putSerial n).powered = s.powered := rfl
@[simp] theorem State.putSerial_ready (s : State) (n : Nat) : (s.putSerial n).ready = s.ready := rfl
@[simp] theorem State.putSerial_latch (s : State) (n : Nat) : (s.putSerial n).latch = s.latch := rfl
@[simp] theorem State.putSerial_cause (s : State) (n : Nat) : (s.putSerial n).cause = s.cause := rfl
@[simp] theorem State.putSerial_mask (s : State) (n : Nat) : (s.putSerial n).mask = s.mask := rfl
@[simp] theorem State.putSerial_startFlags (s : State) (n : Nat) : (s.putSerial n).startFlags = s.startFlags := rfl
@[simp] theorem State.putSerial_selfTest (s : State) (n : Nat) : (s.putSerial n).selfTest = s.selfTest := rfl
@[simp] theorem State.putSerial_roomCounts (s : State) (n : Nat) : (s.putSerial n).roomCounts = s.roomCounts := rfl
@[simp] theorem State.putSerial_held (s : State) (n : Nat) : (s.putSerial n).held = s.held := rfl
@[simp] theorem State.putSerial_engine (s : State) (n : Nat) : (s.putSerial n).engine = s.engine := rfl
@[simp] theorem State.putSerial_intakeNext (s : State) (n : Nat) : (s.putSerial n).intakeNext = s.intakeNext := rfl
@[simp] theorem State.putSerial_site (s : State) (n : Nat) : (s.putSerial n).site = s.site := rfl
@[simp] theorem State.putSerial_clock (s : State) (n : Nat) : (s.putSerial n).clock = s.clock := rfl
@[simp] theorem State.putSerial_crystalRuns (s : State) (n : Nat) : (s.putSerial n).crystalRuns = s.crystalRuns := rfl
@[simp] theorem State.putSerial_crystalFault (s : State) (n : Nat) : (s.putSerial n).crystalFault = s.crystalFault := rfl
@[simp] theorem State.putSerial_mirrorsStand (s : State) (n : Nat) : (s.putSerial n).mirrorsStand = s.mirrorsStand := rfl
@[simp] theorem State.putSerial_tableCheck (s : State) (n : Nat) : (s.putSerial n).tableCheck = s.tableCheck := rfl
@[simp] theorem State.putSerial_zones (s : State) (n : Nat) : (s.putSerial n).zones = s.zones := rfl
@[simp] theorem State.putSerial_rooms (s : State) (n : Nat) : (s.putSerial n).rooms = s.rooms := rfl
@[simp] theorem State.putSerial_revs (s : State) (n : Nat) : (s.putSerial n).revs = s.revs := rfl
@[simp] theorem State.putSerial_lastDeny (s : State) (n : Nat) : (s.putSerial n).lastDeny = s.lastDeny := rfl
@[simp] theorem State.putSerial_minibars (s : State) (n : Nat) : (s.putSerial n).minibars = s.minibars := rfl
@[simp] theorem State.putSerial_encoder (s : State) (n : Nat) : (s.putSerial n).encoder = s.encoder := rfl
@[simp] theorem State.putSerial_lines (s : State) (n : Nat) : (s.putSerial n).lines = s.lines := rfl
@[simp] theorem State.putSerial_journal (s : State) (n : Nat) : (s.putSerial n).journal = s.journal := rfl
@[simp] theorem State.putSerial_freeCount (s : State) (n : Nat) : (s.putSerial n).freeCount = s.freeCount := rfl

@[simp] theorem State.putClock_pending (s : State) (c : Clock) : (s.putClock c).pending = s.pending := rfl
@[simp] theorem State.putClock_powered (s : State) (c : Clock) : (s.putClock c).powered = s.powered := rfl
@[simp] theorem State.putClock_ready (s : State) (c : Clock) : (s.putClock c).ready = s.ready := rfl
@[simp] theorem State.putClock_latch (s : State) (c : Clock) : (s.putClock c).latch = s.latch := rfl
@[simp] theorem State.putClock_cause (s : State) (c : Clock) : (s.putClock c).cause = s.cause := rfl
@[simp] theorem State.putClock_mask (s : State) (c : Clock) : (s.putClock c).mask = s.mask := rfl
@[simp] theorem State.putClock_startFlags (s : State) (c : Clock) : (s.putClock c).startFlags = s.startFlags := rfl
@[simp] theorem State.putClock_selfTest (s : State) (c : Clock) : (s.putClock c).selfTest = s.selfTest := rfl
@[simp] theorem State.putClock_roomCounts (s : State) (c : Clock) : (s.putClock c).roomCounts = s.roomCounts := rfl
@[simp] theorem State.putClock_held (s : State) (c : Clock) : (s.putClock c).held = s.held := rfl
@[simp] theorem State.putClock_engine (s : State) (c : Clock) : (s.putClock c).engine = s.engine := rfl
@[simp] theorem State.putClock_intakeNext (s : State) (c : Clock) : (s.putClock c).intakeNext = s.intakeNext := rfl
@[simp] theorem State.putClock_site (s : State) (c : Clock) : (s.putClock c).site = s.site := rfl
@[simp] theorem State.putClock_crystalRuns (s : State) (c : Clock) : (s.putClock c).crystalRuns = s.crystalRuns := rfl
@[simp] theorem State.putClock_crystalFault (s : State) (c : Clock) : (s.putClock c).crystalFault = s.crystalFault := rfl
@[simp] theorem State.putClock_mirrorsStand (s : State) (c : Clock) : (s.putClock c).mirrorsStand = s.mirrorsStand := rfl
@[simp] theorem State.putClock_tableCheck (s : State) (c : Clock) : (s.putClock c).tableCheck = s.tableCheck := rfl
@[simp] theorem State.putClock_zones (s : State) (c : Clock) : (s.putClock c).zones = s.zones := rfl
@[simp] theorem State.putClock_rooms (s : State) (c : Clock) : (s.putClock c).rooms = s.rooms := rfl
@[simp] theorem State.putClock_serial (s : State) (c : Clock) : (s.putClock c).serial = s.serial := rfl
@[simp] theorem State.putClock_revs (s : State) (c : Clock) : (s.putClock c).revs = s.revs := rfl
@[simp] theorem State.putClock_lastDeny (s : State) (c : Clock) : (s.putClock c).lastDeny = s.lastDeny := rfl
@[simp] theorem State.putClock_minibars (s : State) (c : Clock) : (s.putClock c).minibars = s.minibars := rfl
@[simp] theorem State.putClock_encoder (s : State) (c : Clock) : (s.putClock c).encoder = s.encoder := rfl
@[simp] theorem State.putClock_lines (s : State) (c : Clock) : (s.putClock c).lines = s.lines := rfl
@[simp] theorem State.putClock_journal (s : State) (c : Clock) : (s.putClock c).journal = s.journal := rfl
@[simp] theorem State.putClock_freeCount (s : State) (c : Clock) : (s.putClock c).freeCount = s.freeCount := rfl

@[simp] theorem State.withCommand_powered (s : State) (c : Instr) : (s.withCommand c).powered = s.powered := rfl
@[simp] theorem State.withCommand_ready (s : State) (c : Instr) : (s.withCommand c).ready = s.ready := rfl
@[simp] theorem State.withCommand_latch (s : State) (c : Instr) : (s.withCommand c).latch = s.latch := rfl
@[simp] theorem State.withCommand_cause (s : State) (c : Instr) : (s.withCommand c).cause = s.cause := rfl
@[simp] theorem State.withCommand_mask (s : State) (c : Instr) : (s.withCommand c).mask = s.mask := rfl
@[simp] theorem State.withCommand_startFlags (s : State) (c : Instr) : (s.withCommand c).startFlags = s.startFlags := rfl
@[simp] theorem State.withCommand_selfTest (s : State) (c : Instr) : (s.withCommand c).selfTest = s.selfTest := rfl
@[simp] theorem State.withCommand_ram (s : State) (c : Instr) : (s.withCommand c).ram = s.ram := rfl
@[simp] theorem State.withCommand_siteCount (s : State) (c : Instr) : (s.withCommand c).siteCount = s.siteCount := rfl
@[simp] theorem State.withCommand_roomCounts (s : State) (c : Instr) : (s.withCommand c).roomCounts = s.roomCounts := rfl
@[simp] theorem State.withCommand_held (s : State) (c : Instr) : (s.withCommand c).held = s.held := rfl
@[simp] theorem State.withCommand_engine (s : State) (c : Instr) : (s.withCommand c).engine = s.engine := rfl
@[simp] theorem State.withCommand_intakeNext (s : State) (c : Instr) : (s.withCommand c).intakeNext = s.intakeNext := rfl
@[simp] theorem State.withCommand_site (s : State) (c : Instr) : (s.withCommand c).site = s.site := rfl
@[simp] theorem State.withCommand_clock (s : State) (c : Instr) : (s.withCommand c).clock = s.clock := rfl
@[simp] theorem State.withCommand_crystalRuns (s : State) (c : Instr) : (s.withCommand c).crystalRuns = s.crystalRuns := rfl
@[simp] theorem State.withCommand_crystalFault (s : State) (c : Instr) : (s.withCommand c).crystalFault = s.crystalFault := rfl
@[simp] theorem State.withCommand_mirrorsStand (s : State) (c : Instr) : (s.withCommand c).mirrorsStand = s.mirrorsStand := rfl
@[simp] theorem State.withCommand_tableCheck (s : State) (c : Instr) : (s.withCommand c).tableCheck = s.tableCheck := rfl
@[simp] theorem State.withCommand_zones (s : State) (c : Instr) : (s.withCommand c).zones = s.zones := rfl
@[simp] theorem State.withCommand_rooms (s : State) (c : Instr) : (s.withCommand c).rooms = s.rooms := rfl
@[simp] theorem State.withCommand_serial (s : State) (c : Instr) : (s.withCommand c).serial = s.serial := rfl
@[simp] theorem State.withCommand_revs (s : State) (c : Instr) : (s.withCommand c).revs = s.revs := rfl
@[simp] theorem State.withCommand_lastDeny (s : State) (c : Instr) : (s.withCommand c).lastDeny = s.lastDeny := rfl
@[simp] theorem State.withCommand_minibars (s : State) (c : Instr) : (s.withCommand c).minibars = s.minibars := rfl
@[simp] theorem State.withCommand_encoder (s : State) (c : Instr) : (s.withCommand c).encoder = s.encoder := rfl
@[simp] theorem State.withCommand_lines (s : State) (c : Instr) : (s.withCommand c).lines = s.lines := rfl
@[simp] theorem State.withCommand_journal (s : State) (c : Instr) : (s.withCommand c).journal = s.journal := rfl
@[simp] theorem State.withCommand_freeCount (s : State) (c : Instr) : (s.withCommand c).freeCount = s.freeCount := rfl

/-! ## The fields an update writes -/

@[simp] theorem State.store_ram (s : State) (a : Nat) (bs : List Byte) : (s.store a bs).ram = s.ram.write a bs := rfl
@[simp] theorem State.setCause_cause (s : State) (c : Half) : (s.setCause c).cause = s.cause ||| c := rfl
@[simp] theorem State.setLine_lines (s : State) (l : Fin 2) (x : Line) : (s.setLine l x).lines = s.lines.set l x := rfl
@[simp] theorem State.complete_held (s : State) (b : Fin 16) (res : Result) (data : List Byte) :
    (s.complete b res data).held = s.held.filter fun h => decide (h.block ≠ b) := rfl
@[simp] theorem State.complete_cause (s : State) (b : Fin 16) (res : Result) (data : List Byte) :
    (s.complete b res data).cause = s.cause ||| causeOrderDone := rfl
@[simp] theorem State.setEncoder_encoder (s : State) (e : Encoder) : (s.setEncoder e).encoder = e := rfl
@[simp] theorem State.chooseOrder_engine (s : State) : s.chooseOrder.engine = s.engineChoice.map Held.block := rfl
@[simp] theorem State.spendFree_freeCount (s : State) (n : Nat) : (s.spendFree n).freeCount = s.freeCount + n := rfl
@[simp] theorem State.putSerial_serial (s : State) (n : Nat) : (s.putSerial n).serial = n := rfl
@[simp] theorem State.putClock_clock (s : State) (c : Clock) : (s.putClock c).clock = c := rfl
@[simp] theorem State.setRunning_encoder (s : State) (o : EncOrder) :
    (s.setRunning o).encoder = { s.encoder with running := some o } := rfl
@[simp] theorem State.withCommand_pending (s : State) (c : Instr) : (s.withCommand c).pending = c :: s.pending := rfl

/-! ## A line and a drop read after a write -/

@[simp] theorem State.setLine_same (s : State) (l : Fin 2) (x : Line) : (s.setLine l x).lines[l] = x := by
  show (s.lines.set l x)[l] = x
  simp

theorem State.setLine_other (s : State) (l k : Fin 2) (x : Line) (h : l ≠ k) : (s.setLine l x).lines[k] = s.lines[k] := by
  show (s.lines.set l x)[k.val] = s.lines[k.val]
  exact Vector.getElem_set_ne _ _ (by omega)

@[simp] theorem State.setDrop_same (s : State) (l : Fin 2) (a : Fin 64) (d : Drop) : (s.setDrop l a d).drop l a = d := by
  simp [State.drop, State.setDrop]

end Sys2Proof.Machine
end

