-- ==== Sys2Proof/Laws/Ops.lean ====
section
/-! SUPPORT. What each shared operation can change: one lemma for an operation, cited in place of unfolding it. -/

namespace Sys2Proof.Machine

open Sys2Proof

/-! ## The Journal Writer -/

/-- A look at one descriptor writes shared RAM, the causes and the journal. -/
theorem State.searchAt_changes (s : State) (d : Fin 4) :
    ∃ r c j, s.searchAt d = { s with ram := r, cause := c, journal := j } ∧ j.queue = s.journal.queue ∧ j.gap = s.journal.gap ∧
      j.sequence = s.journal.sequence := by
  unfold State.searchAt
  dsimp only
  split
  · exact ⟨_, _, _, rfl, rfl, rfl, rfl⟩
  · split
    · exact ⟨_, _, _, rfl, rfl, rfl, rfl⟩
    · split
      · exact ⟨_, _, _, rfl, rfl, rfl, rfl⟩
      · exact ⟨_, _, _, rfl, rfl, rfl, rfl⟩

/-- A search writes shared RAM, the causes and the journal's cursor and FILLING copy. -/
theorem State.search_changes (s : State) :
    ∃ r c j, s.search = { s with ram := r, cause := c, journal := j } ∧ j.queue = s.journal.queue ∧ j.gap = s.journal.gap ∧
      j.sequence = s.journal.sequence := by
  unfold State.search
  split
  · exact ⟨_, _, _, rfl, rfl, rfl, rfl⟩
  · obtain ⟨r1, c1, j1, e1, q1, g1, n1⟩ := s.searchAt_changes (s.journal.cursor + 1)
    obtain ⟨r2, c2, j2, e2, q2, g2, n2⟩ := (s.searchAt (s.journal.cursor + 1)).searchAt_changes (s.journal.cursor + 2)
    obtain ⟨r3, c3, j3, e3, q3, g3, n3⟩ :=
      ((s.searchAt (s.journal.cursor + 1)).searchAt (s.journal.cursor + 2)).searchAt_changes (s.journal.cursor + 3)
    obtain ⟨r4, c4, j4, e4, q4, g4, n4⟩ :=
      (((s.searchAt (s.journal.cursor + 1)).searchAt (s.journal.cursor + 2)).searchAt (s.journal.cursor + 3)).searchAt_changes
        s.journal.cursor
    refine ⟨r4, c4, j4, ?_, ?_, ?_, ?_⟩
    · show State.searchAt _ _ = _
      rw [e4, e3, e2, e1]
    · rw [q4, e3]; show j3.queue = _; rw [q3, e2]; show j2.queue = _; rw [q2, e1]; exact q1
    · rw [g4, e3]; show j3.gap = _; rw [g3, e2]; show j2.gap = _; rw [g2, e1]; exact g1
    · rw [n4, e3]; show j3.sequence = _; rw [n3, e2]; show j2.sequence = _; rw [n2, e1]; exact n1

/-- One admission adds its entry at the end, moves the sequence counter, and writes shared RAM and the causes. -/
theorem State.admitOne_changes (s : State) (q : Request) :
    ∃ r c j, s.admitOne q = { s with ram := r, cause := c, journal := j } ∧ j.queue = s.journal.queue ++ [s.entryOf q] ∧
      j.gap = s.journal.gap ∧ j.sequence = (s.journal.sequence + 1) % 65536 := by
  unfold State.admitOne
  dsimp only
  generalize hj : ({ s.journal with queue := s.journal.queue ++ [s.entryOf q], sequence := (s.journal.sequence + 1) % 65536 } : Journal) = j0
  have hq : j0.queue = s.journal.queue ++ [s.entryOf q] := by rw [← hj]
  have hg : j0.gap = s.journal.gap := by rw [← hj]
  have hn : j0.sequence = (s.journal.sequence + 1) % 65536 := by rw [← hj]
  by_cases ha : q.kind.isAlarm = true
  · rw [if_pos ha]
    obtain ⟨r, c, j, e, q1, g1, n1⟩ := (State.setCause { s with journal := j0 } causeAlarm).search_changes
    rw [e]
    split
    · exact ⟨_, _, j, rfl, q1.trans hq, g1.trans hg, n1.trans hn⟩
    · exact ⟨_, _, j, rfl, q1.trans hq, g1.trans hg, n1.trans hn⟩
  · rw [if_neg ha]
    obtain ⟨r, c, j, e, q1, g1, n1⟩ := State.search_changes { s with journal := j0 }
    rw [e]
    split
    · exact ⟨_, _, j, rfl, q1.trans hq, g1.trans hg, n1.trans hn⟩
    · exact ⟨_, _, j, rfl, q1.trans hq, g1.trans hg, n1.trans hn⟩

/-- The GAP entry, due or not, writes shared RAM, the causes and the journal. -/
theorem State.admitGap_changes (s : State) : ∃ r c j, s.admitGap = { s with ram := r, cause := c, journal := j } := by
  unfold State.admitGap
  dsimp only
  split
  · obtain ⟨r, c, j, e, -, -, -⟩ :=
      State.admitOne_changes { s with journal := { s.journal with gap := 0 } } { kind := .gap, value := s.journal.gap }
    exact ⟨r, c, j, e⟩
  · exact ⟨_, _, _, rfl⟩

/-- The steps of R155 write shared RAM, the causes and the journal. -/
theorem State.takeRequest_changes (s : State) (q : Request) :
    ∃ r c j, s.takeRequest q = { s with ram := r, cause := c, journal := j } := by
  unfold State.takeRequest
  dsimp only
  obtain ⟨r, c, j, e⟩ := s.admitGap_changes
  rw [e]
  split
  · obtain ⟨r', c', j', e', -, -, -⟩ := State.admitOne_changes { s with ram := r, cause := c, journal := j } q
    exact ⟨r', c', j', e'⟩
  · exact ⟨_, _, _, rfl⟩

/-- A request writes shared RAM, the causes, the site mirror's count and the journal. -/
theorem State.admitRequest_changes (s : State) (q : Request) :
    ∃ r c n j, s.admitRequest q = { s with ram := r, cause := c, siteCount := n, journal := j } := by
  unfold State.admitRequest
  dsimp only
  obtain ⟨r, c, j, e⟩ := s.takeRequest_changes q
  rw [e]
  split <;> exact ⟨_, _, _, _, rfl⟩

/-- The end of a descriptor writes shared RAM, the causes and the journal, and keeps its queue. -/
theorem State.endDescriptor_changes (s : State) (f : Filling) (st : EndStatus) :
    ∃ r c j, s.endDescriptor f st = { s with ram := r, cause := c, journal := j } ∧ j.queue = s.journal.queue ∧
      j.gap = s.journal.gap ∧ j.sequence = s.journal.sequence := by
  unfold State.endDescriptor
  dsimp only
  obtain ⟨r, c, j, e, h1, h2, h3⟩ := State.search_changes (State.setCause { (((s.store (descriptorAddr f.index + 12) [st.code]).store
    (descriptorAddr f.index + 13) (leBytes 3 s.clock.minute)).store (descriptorAddr f.index) [DescriptorState.ended.code]) with
      journal := { s.journal with filling := none } } causeJournal)
  exact ⟨r, c, j, e, h1, h2, h3⟩

/-! ## Records and their mirrors -/

/-- The rewriting of the room mirror that shows a drop writes shared RAM and the counts. -/
theorem State.rewriteRoomOf_changes (s : State) (b : Option Binding) :
    ∃ r k, s.rewriteRoomOf b = { s with ram := r, roomCounts := k } := by
  unfold State.rewriteRoomOf
  split <;> exact ⟨_, _, rfl⟩

/-- A room record written. -/
theorem State.putRoom_changes (s : State) (r : Fin 48) (x : Room) :
    ∃ m k, s.putRoom r x = { s with rooms := s.rooms.set r x, ram := m, roomCounts := k } := by
  unfold State.putRoom
  dsimp only
  split <;> exact ⟨_, _, rfl⟩

/-- A minibar record written. -/
theorem State.putMinibar_changes (s : State) (r : Fin 48) (x : Minibar) :
    ∃ m k, s.putMinibar r x = { s with minibars := s.minibars.set r x, ram := m, roomCounts := k } := by
  unfold State.putMinibar
  dsimp only
  split <;> exact ⟨_, _, rfl⟩

/-- A door-side record written. -/
theorem State.putDoor_changes (s : State) (l : Fin 2) (a : Fin 64) (x : Option DoorSide) :
    ∃ m k, s.putDoor l a x = { s.setDrop l a { s.drop l a with door := x } with ram := m, roomCounts := k } := by
  unfold State.putDoor
  dsimp only
  split
  · exact ⟨_, _, rfl⟩
  · exact State.rewriteRoomOf_changes _ _

/-- A last deny pair written. -/
theorem State.putDeny_changes (s : State) (r : Fin 48) (reason : Deny) :
    ∃ m k, s.putDeny r reason =
      { s with lastDeny := s.lastDeny.set r (some { reason := reason, minute := s.now }), ram := m, roomCounts := k } := by
  unfold State.putDeny
  dsimp only
  split <;> exact ⟨_, _, rfl⟩

/-- A step of the Encoder Controller is its work, and at most one rewriting of the site mirror. -/
theorem State.encoderStep_changes (s : State) (f : State → State) :
    ∃ m n, s.encoderStep f = { f s with ram := m, siteCount := n } := by
  unfold State.encoderStep
  dsimp only
  split <;> exact ⟨_, _, rfl⟩

/-- A line's rate written alone. -/
theorem State.putRate_changes (s : State) (l : Fin 2) (rate divisor : Nat) :
    ∃ m n, s.putRate l rate divisor = { s.setRate l rate divisor with ram := m, siteCount := n } := by
  unfold State.putRate
  dsimp only
  split <;> exact ⟨_, _, rfl⟩

/-! ## Orders -/

/-- The answer to an owner's order writes shared RAM, the held list and the causes. -/
theorem State.completeFor_changes (s : State) (o : Owner) (res : Result) (data : List Byte) :
    ∃ r h c, s.completeFor o res data = { s with ram := r, held := h, cause := c } := by
  unfold State.completeFor
  split <;> exact ⟨_, _, _, rfl⟩

/-- The order found in a block is held, and in that block. -/
theorem State.heldIn_some (s : State) (b : Fin 16) (h : Held) (e : s.heldIn b = some h) : h ∈ s.held ∧ h.block = b := by
  unfold State.heldIn at e
  exact ⟨List.mem_of_find?_eq_some e, by simpa using List.find?_some e⟩

/-- The table engine's service of an order leaves the state, or is the order's own effect, the engine's next choice and what goes on
elsewhere. -/
theorem State.serve_cases (s : State) (b : Fin 16) (k : OrderKind) (body : Held → State → State) (goOn : State → State) :
    s.serve b k body goOn = s ∨ ∃ h, s.ready = true ∧ s.engine = some b ∧ s.heldIn b = some h ∧ h.kind = k ∧
      s.serve b k body goOn = goOn (body h s).chooseOrder := by
  unfold State.serve
  split
  · exact .inl rfl
  · rename_i h hc
    split
    · rename_i hs; exact .inr ⟨h, hs.1, hs.2.1, hc, hs.2.2, rfl⟩
    · exact .inl rfl

/-- The order the engine chooses waits for the engine. -/
theorem firstServed_mem (hs : List Held) (h : Held) (e : firstServed hs = some h) : h ∈ hs := by
  induction hs generalizing h with
  | nil => simp [firstServed] at e
  | cons x xs ih =>
    unfold firstServed at e
    split at e
    · cases e; simp
    · rename_i g hg
      split at e
      · cases e; exact List.mem_cons_of_mem _ (ih _ hg)
      · cases e; simp

/-! ## A second before READY -/

/-- It moves the clock, and rewrites the site mirror once the start has written it (R4, log 50). -/
theorem State.tickUnready_changes (s : State) :
    (s.mirrorsStand = false → s.tickUnready = { s with clock := s.clock.addSeconds 1 }) ∧
    (s.mirrorsStand = true → ∃ r, s.tickUnready =
      { s with clock := s.clock.addSeconds 1, siteCount := s.siteCount + 2, ram := r }) := by
  constructor <;> intro h
  · simp [State.tickUnready, h]
  · exact ⟨_, by simp only [State.tickUnready, h, if_true, State.putClock, State.rewriteSite, State.store]; rfl⟩

/-! ## The directed queue -/

/-- What a lost OPEN of a door can change. -/
theorem State.doorGrantLost_changes (s : State) (l : Fin 2) (a : Fin 64) (cause : Nat) :
    ∃ r c n k x j, s.doorGrantLost l a cause =
      { s with ram := r, cause := c, siteCount := n, roomCounts := k, lines := x, journal := j } := by
  unfold State.doorGrantLost
  split
  · exact ⟨_, _, _, _, _, _, rfl⟩
  · split
    · exact ⟨_, _, _, _, _, _, rfl⟩
    · rename_i d _ _ g _
      dsimp only
      obtain ⟨r, c, n, j, e⟩ := s.admitRequest_changes (undeliveredRequest (placeOf l a) g cause)
      rw [e]
      obtain ⟨m, k, e'⟩ := State.putDoor_changes { s with ram := r, cause := c, siteCount := n, journal := j } l a
        (some { d with pending := none, latch := if d.latch = .granted ∧ d.deadline.isNone then Latch.latched else d.latch })
      exact ⟨_, _, _, _, _, _, e'⟩

/-- What a lost OPEN of a minibar can change. -/
theorem State.minibarGrantLost_changes (s : State) (r : Fin 48) (place cause : Nat) :
    ∃ m c n k x j, s.minibarGrantLost r place cause =
      { s with ram := m, cause := c, siteCount := n, roomCounts := k, minibars := x, journal := j } := by
  unfold State.minibarGrantLost
  dsimp only
  split
  · exact ⟨_, _, _, _, _, _, rfl⟩
  · rename_i g _
    obtain ⟨m, c, n, j, e⟩ := s.admitRequest_changes (undeliveredRequest place g cause)
    rw [e]
    obtain ⟨m', k, e'⟩ := State.putMinibar_changes { s with ram := m, cause := c, siteCount := n, journal := j } r
      (if ({ s.minibars[r] with pending := none } : Minibar).state = .granted ∧
          ({ s.minibars[r] with pending := none } : Minibar).deadline.isNone then
        (({ s.minibars[r] with pending := none } : Minibar).rest .locked).applyMark
       else { s.minibars[r] with pending := none })
    exact ⟨_, _, _, _, _, _, e'⟩

/-- What the directed queue's work can change. -/
def State.QueueWork (s t : State) : Prop :=
  ∃ r c n k m x j, t = { s with ram := r, cause := c, siteCount := n, roomCounts := k, minibars := m, lines := x, journal := j }

theorem State.queueWork_refl (s : State) : s.QueueWork s := ⟨_, _, _, _, _, _, _, rfl⟩

theorem State.queueWork_trans {s t u : State} (h : s.QueueWork t) (h' : t.QueueWork u) : s.QueueWork u := by
  obtain ⟨r, c, n, k, m, x, j, rfl⟩ := h
  obtain ⟨r', c', n', k', m', x', j', rfl⟩ := h'
  exact ⟨_, _, _, _, _, _, _, rfl⟩

theorem State.queueWork_setLine (s : State) (l : Fin 2) (x : Line) : s.QueueWork (s.setLine l x) := ⟨_, _, _, _, _, _, _, rfl⟩

theorem State.queueWork_setOwed (s : State) (l : Fin 2) (a : Fin 64) (o : Option Owed) : s.QueueWork (s.setOwed l a o) :=
  ⟨_, _, _, _, _, _, _, rfl⟩

theorem State.queueWork_setQueue (s : State) (l : Fin 2) (q : List QMsg) : s.QueueWork (s.setQueue l q) :=
  ⟨_, _, _, _, _, _, _, rfl⟩

theorem State.queueWork_openLost (s : State) (l : Fin 2) (a : Fin 64) (asker : Asker) (cause : Nat) :
    s.QueueWork (s.openLost l a asker cause) := by
  unfold State.openLost
  split
  · obtain ⟨r, c, n, k, x, j, e⟩ := s.doorGrantLost_changes l a cause
    exact ⟨_, _, _, _, _, _, _, e⟩
  · split
    · exact s.queueWork_refl
    · rename_i r _
      obtain ⟨m, c, n, k, x, j, e⟩ := s.minibarGrantLost_changes r (placeOf l a) cause
      exact ⟨_, _, _, _, _, _, _, e⟩
  · exact s.queueWork_refl

theorem State.queueWork_owe (s : State) (l : Fin 2) (m : QMsg) : s.QueueWork (s.owe l m).1 := by
  unfold State.owe
  split
  · exact s.queueWork_refl
  · exact s.queueWork_setOwed _ _ _

/-- A request for a directed message (R139). -/
theorem State.queueWork_request (s : State) (l : Fin 2) (m : QMsg) : s.QueueWork (s.request l m).1 := by
  unfold State.request
  dsimp only
  split
  · exact s.queueWork_owe _ _
  · split
    · exact s.queueWork_refl
    · split
      · have h := State.queueWork_trans
          (s.queueWork_setQueue l (s.lines[l].queue.map fun q => if q.addr = m.addr then m else q))
          (State.queueWork_setOwed _ l m.addr none)
        split
        · exact State.queueWork_trans h (State.queueWork_openLost _ _ _ _ _)
        · exact h
      · split
        · exact State.queueWork_trans (s.queueWork_setQueue _ _) (State.queueWork_setOwed _ _ _ _)
        · exact s.queueWork_owe _ _

theorem State.queueWork_ask (s : State) (l : Fin 2) (a : Fin 64) (msg : Directed) (asker : Asker) :
    s.QueueWork (s.ask l a msg asker) := s.queueWork_request _ _

/-- A lost OPEN changes no line but for the door-side record of its drop (R63, R110). -/
theorem State.openLost_lines (s : State) (l : Fin 2) (a : Fin 64) (asker : Asker) (cause : Nat) :
    (s.openLost l a asker cause).lines = s.lines ∨
      ∃ d, (s.openLost l a asker cause).lines = (s.setDrop l a { s.drop l a with door := d }).lines := by
  unfold State.openLost
  split
  · unfold State.doorGrantLost
    split
    · exact .inl rfl
    · split
      · exact .inl rfl
      · rename_i d _ _ g _
        dsimp only
        obtain ⟨r, c, n, j, e⟩ := s.admitRequest_changes (undeliveredRequest (placeOf l a) g cause)
        rw [e]
        obtain ⟨m, k, e'⟩ := State.putDoor_changes { s with ram := r, cause := c, siteCount := n, journal := j } l a
          (some { d with pending := none, latch := if d.latch = .granted ∧ d.deadline.isNone then Latch.latched else d.latch })
        rw [e']
        exact .inr ⟨_, rfl⟩
  · split
    · exact .inl rfl
    · rename_i r _
      obtain ⟨m, c, n, k, x, j, e⟩ := s.minibarGrantLost_changes r (placeOf l a) cause
      rw [e]; exact .inl rfl
  · exact .inl rfl

/-- So the messages that wait on the line stay as they are. -/
theorem State.openLost_queue (s : State) (l : Fin 2) (a : Fin 64) (asker : Asker) (cause : Nat) :
    (s.openLost l a asker cause).lines[l].queue = s.lines[l].queue := by
  obtain e | ⟨d, e⟩ := s.openLost_lines l a asker cause <;> rw [e]
  simp [State.setDrop]

/-- What a request for HOLD, LATCH, SCAN_TRAYS or STOP_SCAN comes to (R139): the message waits in the queue, or the drop owes it. -/
theorem State.ask_stands (s : State) (l : Fin 2) (a : Fin 64) (msg : Directed) (asker : Asker) (h : msg.isOpenOrDeny = false) :
    { addr := a, msg := msg, asker := asker } ∈ (s.ask l a msg asker).lines[l].queue ∨
      ((s.ask l a msg asker).drop l a).owed = some { msg := msg, asker := asker } := by
  have owes : ((s.owe l { addr := a, msg := msg, asker := asker }).1.drop l a).owed = some { msg := msg, asker := asker } := by
    simp [State.owe, h, State.setOwed, State.setDrop, State.drop]
  have queued (q : List QMsg) : ((s.setQueue l q).setOwed l a none).lines[l].queue = q := by
    simp [State.setQueue, State.setOwed, State.setDrop]
  unfold State.ask State.request
  dsimp only
  split
  · exact .inr owes
  · simp only [h, Bool.false_eq_true, false_and, if_false]
    split
    · rename_i old ho
      have mem := List.mem_of_find?_eq_some ho
      have haddr : old.addr = a := by simpa using List.find?_some ho
      left
      split
      · rw [State.openLost_queue, queued]
        exact List.mem_map.2 ⟨old, mem, by simp [haddr]⟩
      · rw [queued]
        exact List.mem_map.2 ⟨old, mem, by simp [haddr]⟩
    · split
      · left; rw [queued]; simp
      · exact .inr owes

/-- Work repeated over a list. -/
theorem State.queueWork_foldl {α : Type} (f : State → α → State) (h : ∀ (s : State) (a : α), s.QueueWork (f s a)) (xs : List α) (s : State) :
    s.QueueWork (xs.foldl f s) := by
  induction xs generalizing s with
  | nil => exact s.queueWork_refl
  | cons x xs ih => exact State.queueWork_trans (h s x) (ih _)

/-- Owed marks placed (R140). -/
theorem State.queueWork_placeOwed (s : State) (l : Fin 2) : s.QueueWork (s.placeOwed l) := by
  refine State.queueWork_foldl _ (fun t a => ?_) _ _
  unfold State.placeOwedAt
  dsimp only
  split
  · exact t.queueWork_refl
  · split
    · exact State.queueWork_trans (t.queueWork_setQueue _ _) (State.queueWork_setOwed _ _ _ _)
    · exact t.queueWork_refl

/-- One message disposed of (R142). -/
theorem State.queueWork_disposeOne (l : Fin 2) (keep : Bool) (s : State) (m : QMsg) : s.QueueWork (State.disposeOne l keep s m) := by
  unfold State.disposeOne
  split
  · exact s.queueWork_openLost _ _ _ _
  all_goals first
    | exact s.queueWork_refl
    | (split
       · exact s.queueWork_refl
       · exact s.queueWork_setOwed _ _ _)

/-- The queue emptied (R142). -/
theorem State.queueWork_dispose (s : State) (l : Fin 2) : s.QueueWork (s.dispose l) := by
  unfold State.dispose
  dsimp only
  refine State.queueWork_trans ?_ (State.queueWork_foldl _ (fun t m => State.queueWork_disposeOne l false t m) _ _)
  split
  · exact s.queueWork_setLine _ _
  · exact State.queueWork_trans (s.queueWork_setLine _ _) (State.queueWork_disposeOne _ _ _ _)

/-! ## Free values -/

@[simp] theorem State.freeBytes_length (s : State) (n : Nat) : (s.freeBytes n).length = n := by simp [State.freeBytes]

/-! ## JOURNAL_CUT (R163) -/

/-- What JOURNAL_CUT reports of the sequences: the descriptor's own bytes before its first write, the numbers written there after it. -/
theorem State.cutSequences_cases (s : State) (f : Filling) :
    (f.written = 0 ∧ s.cutSequences f = (s.field (descriptorAddr f.index + 8) 2, s.field (descriptorAddr f.index + 10) 2)) ∨
    (f.written ≠ 0 ∧ s.cutSequences f = (f.firstSeq, f.lastSeq)) := by
  by_cases h : f.written = 0 <;> simp [State.cutSequences, h]

/-- A search at one descriptor leaves the sequences of every descriptor (R160). -/
theorem State.searchAt_sequences (s : State) (d e : Fin 4) (i : Nat) (h8 : 8 ≤ i) (h12 : i < 12) :
    (s.searchAt d).byte (descriptorAddr e + i) = s.byte (descriptorAddr e + i) := by
  have out (t : State) (j : Nat) (bs : List Byte) (hj : j + bs.length ≤ 8 ∨ 12 ≤ j ∧ j + bs.length ≤ 16) :
      (t.store (descriptorAddr d + j) bs).byte (descriptorAddr e + i) = t.byte (descriptorAddr e + i) := by
    refine t.byte_store_out _ _ _ ?_
    simp only [descriptorAddr]
    omega
  have head (t : State) (b : Byte) : (t.store (descriptorAddr d) [b]).byte (descriptorAddr e + i) = t.byte (descriptorAddr e + i) :=
    out t 0 [b] (.inl (by simp))
  unfold State.searchAt
  dsimp only
  split
  · rfl
  · split
    · rfl
    · split
      · exact head s _
      · exact (out _ 12 _ (.inr (by simp))).trans ((out _ 6 _ (.inl (by simp))).trans (head s _))

/-- A search leaves the sequences of every descriptor (R160). -/
theorem State.search_sequences (s : State) (e : Fin 4) (i : Nat) (h8 : 8 ≤ i) (h12 : i < 12) :
    s.search.byte (descriptorAddr e + i) = s.byte (descriptorAddr e + i) := by
  unfold State.search
  split_ifs
  · rfl
  · simp [State.searchAt_sequences, h8, h12]

/-- A descriptor returned to ARMED keeps its sequences as the host last wrote them (R163). -/
theorem State.returnDescriptor_sequences (s : State) (f : Filling) (e : Fin 4) (i : Nat) (h8 : 8 ≤ i) (h12 : i < 12) :
    (s.returnDescriptor f).byte (descriptorAddr e + i) = s.byte (descriptorAddr e + i) := by
  refine (State.search_sequences _ e i h8 h12).trans (s.byte_store_out _ _ _ ?_)
  simp only [descriptorAddr, List.length_singleton]
  omega

/-! ## Replies -/

/-- What a complete reply is (R129): the characters up to the sum byte its length byte places. -/
theorem completeReply_some {received reply : List LineChar} (h : completeReply received = some reply) :
    ∃ c, received[2]? = some c ∧ replyLength c.data ≤ received.length ∧ reply = received.take (replyLength c.data) := by
  unfold completeReply at h
  split at h
  · cases h
  · rename_i c hc
    split at h
    · exact ⟨c, hc, ‹_›, by simpa using h.symm⟩
    · cases h

/-- An incomplete reply has no length byte yet, or not all that it announces (R129). -/
theorem completeReply_none {received : List LineChar} (h : completeReply received = none) (c : LineChar) (hc : received[2]? = some c) :
    received.length < replyLength c.data := by
  simp only [completeReply, hc] at h
  split at h
  · cases h
  · omega

@[simp] theorem ReplyKind.withPayload_kind (k : ReplyKind) (p : List Byte) : (k.withPayload p).kind = k := by cases k <;> rfl

@[simp] theorem EncReply.withPayload_kind (k : EncReply) (p : List Byte) : (k.withPayload p).kind = k := by cases k <;> rfl

/-- An answer keeps the payload it was made of, where that fits its kind (R83). -/
theorem EncReply.withPayload_payload (k : EncReply) (p : List Byte) (h : k.payloadFits p = true) : (k.withPayload p).payload = p := by
  cases k
  · simp only [EncReply.payloadFits, Bool.or_eq_true, beq_iff_eq] at h
    obtain rfl | rfl := h <;> rfl
  · rfl
  all_goals exact (List.length_eq_zero_iff.mp (beq_iff_eq.mp h)).symm

/-- A good reply is of a kind the message accepts, without a character in error (R127). -/
theorem Exchange.goodReply_some {x : Exchange} {charError : Bool} {bytes : List Byte} {r : Reply} (h : x.goodReply charError bytes = some r) :
    charError = false ∧ x.msg.accepts r.kind = true := by
  unfold Exchange.goodReply at h
  split at h
  · cases h
  · split at h
    · cases h
    · split at h
      · rename_i hc
        simp only [Bool.and_eq_true, Bool.not_eq_true'] at hc
        cases h
        exact ⟨hc.1.1.1.1, by simpa using hc.1.2⟩
      · cases h

/-- A good answer is of a kind the message accepts (R83). -/
theorem EncExchange.goodReply_some {x : EncExchange} {bytes : List Byte} {a : EncAnswer} (h : x.goodReply bytes = some a) :
    x.msg.accepts a.kind = true := by
  unfold EncExchange.goodReply at h
  split at h
  · cases h
  · split at h
    · cases h
    · split at h
      · rename_i hc
        simp only [Bool.and_eq_true] at hc
        cases h
        simpa using hc.1.2
      · cases h

/-- Characters that reach an open exchange are kept, or they make its reply complete and it is judged (R129). -/
theorem State.receive_cases (s : State) (l : Fin 2) (x : Exchange) (chars : List LineChar) :
    (completeReply (x.received ++ chars) = none ∧
      s.receive l x chars = s.setActivity l (.exchange { x with received := x.received ++ chars })) ∨
    ∃ reply, completeReply (x.received ++ chars) = some reply ∧
      s.receive l x chars = s.judgeReply l x (x.goodReply (s.lines[l].setup.anyInError reply) (reply.map LineChar.data)) := by
  unfold State.receive
  dsimp only
  split
  · exact .inl ⟨‹_›, rfl⟩
  · exact .inr ⟨_, ‹_›, rfl⟩

/-- A complete reply is taken, or it fails the attempt (R127, R129). -/
theorem State.judgeReply_cases (s : State) (l : Fin 2) (x : Exchange) (good : Option Reply) :
    (∃ r, good = some r ∧ s.judgeReply l x good = (s.takeReply l x r).settle) ∨
    (good = none ∧ s.judgeReply l x good = (s.attemptFailed l x).settle) := by
  cases good with
  | none => exact .inr ⟨rfl, rfl⟩
  | some r => exact .inl ⟨r, rfl, rfl⟩

end Sys2Proof.Machine
end

