-- ==== Sys2Proof/Tests/Slice0.lean ====
section
/-! SUPPORT. The tests: ill-formed commands, one or two small steps for each command with the values the manual gives, and for
each statement with hypotheses a state that meets them. -/

set_option Elab.async false

namespace Sys2Proof.Tests

open Sys2Proof Sys2Proof.Machine

/-- A character whose parity bit makes its ones even, its stop bits marking. -/
def plain (b : Byte) : LineChar := soundChar .even b

/-! ## Ill-formed commands, each refused by its own check -/

theorem test_wellFormed_params : WellFormed (.issue 0 0 (List.replicate 41 0)) = false := by decide
theorem test_wellFormed_lineGo : WellFormed (.lineGo 0 0 (List.replicate 41 0)) = false := by decide
theorem test_wellFormed_write : WellFormed (.attentionLatchSet [(0x8000, 1)] 1) = false := by decide
theorem test_wellFormed_address : WellFormed (.grantDeadlineExpiry 0 0) = false := by decide
theorem test_wellFormed_card : WellFormed (.cardRead 0 [1, 2, 3]) = false := by decide
theorem test_wellFormed_image : WellFormed (.image []) = false := by decide
theorem test_wellFormed_readings : WellFormed (.trayData 0 0 8 (List.replicate 12 0)) = false := by decide
theorem test_wellFormed_message : WellFormed (.badReply 0 (plain 0) (List.replicate 41 (plain 0))) = false := by decide +kernel
theorem test_wellFormed_encoderMessage : WellFormed (.encoderBadReply (plain 0) (List.replicate 350 (plain 0))) = false := by
  decide +kernel
theorem test_wellFormed_break : WellFormed (.wakeRequest 0 100) = false := by decide
theorem test_wellFormed_largest : WellFormed (.issue 15 7 (List.replicate 40 255)) = true := by decide

/-- The table gives no row any bits: no word spells a command. -/
theorem test_decode_none : decodeTableWord 16 0 = none := by decide

/-! ## Small states -/

/-- What a command leaves. -/
def after (c : Instr) (s : State) : State :=
  match exec c s with
  | .next t => t
  | .fault _ | .refused _ => s

/-- An order of priority 3 that waits in block 2. -/
def heldOrder (kind : OrderKind) (p : List Byte) : Held :=
  { block := 2, kind := kind, priority := 3, intake := 0, owner := .engine, params := p }

/-- The table engine has one order. -/
def order (s : State) (kind : OrderKind) (p : List Byte) : State :=
  { s with held := [heldOrder kind p], engine := some 2 }

/-- The site of 3.6. -/
def site36 : Site :=
  { state := .configured, code := 519, keyM := 40503, keyN := 1234, earlyGrace := 60, checkoutGrace := 30, heldLimit := 60 }

/-- The card of 3.6: GUEST, room 12, generation 5, copy 1. -/
def card36 : List Byte :=
  [0x02, 0x07, 0x01, 0x0C, 0x05, 0x01, 0, 0, 0x01, 0x31, 0x01, 0x86, 0xA0, 0x01, 0x97, 0x80, 0x05, 0x01, 0x27, 0x9A]

/-- The site of 3.6, the clock running at a minute. -/
def at_ (minute second : Nat) : State :=
  { State.reset with site := site36, clock := { state := .running, minute := minute, second := second } }

/-- Room 12 of 3.7: OCCUPIED, generation 5, copies 1 and 2. -/
def room12 : Room := { Room.cold with label := 214, state := .occupied, generation := 5, issued := 3, stayUntil := 104320 }

/-- A room's record put into a state. -/
def withRoom (s : State) (r : Fin 48) (x : Room) : State := { s with rooms := s.rooms.set r x }

/-- A minibar's record put into a state. -/
def withMinibar (s : State) (r : Fin 48) (x : Minibar) : State := { s with minibars := s.minibars.set r x }

/-- Room 12 of 3.7 at minute 100,640. -/
def stay12 : State := withRoom (at_ 100640 0) 12 room12

/-- A PRESENT drop with a binding; a door or gate is CLOSED, FREE, LATCHED. -/
def presentDrop (b : Binding) : Drop :=
  { Drop.cold with
    binding := some b, presence := .present, reported := some b.kindCode
    door := if b.hasDoor then some { DoorSide.unknown with leaf := .closed, bolt := .free, latch := .latched } else none }

/-- Line 0 in a state, doing something, with one drop at address 12. -/
def lineWith (s : State) (d : Drop) (st : LineState) (act : Activity) (mark : Option GoMark) : State :=
  s.setLine 0 { s.lines[0] with state := st, activity := act, mark := mark, drops := s.lines[0].drops.set 12 d }

/-- Line 0 in RUN asks the drop at 12. -/
def asking (s : State) (d : Drop) (msg : LineMsg) (retries : Nat) : State :=
  lineWith s d .run (.exchange { addr := 12, msg := msg, retries := retries }) none

/-- Its exchange is open, and nothing of a reply has come. -/
theorem asking_exchanging (s : State) (d : Drop) (msg : LineMsg) (n : Nat) :
    (asking s d msg n).Exchanging 0 { addr := 12, msg := msg, retries := n } := by
  simp [State.Exchanging, asking, lineWith, State.setLine]

/-- Room 12's door, polled. -/
def atDoor : State := asking stay12 (presentDrop (.door 12)) .poll 2

/-- The door's record. -/
def doorOf (s : State) : DoorSide := ((s.drop 0 12).door).getD DoorSide.unknown

/-- The entries of the holding queue past the first. -/
def entries (s : State) : List (EntryKind × Nat × Nat × Nat × Nat × Nat) :=
  (s.journal.queue.drop 1).map fun e => (e.kind, e.place, e.room, e.reason, e.subject, e.value)

/-! ## Cards, rates, readings -/

/-- 3.6. -/
theorem test_checkWord : checkWord 40503 1234 card36 = 10138 := by decide +kernel

/-- 3.6: the copy byte changed to 2. -/
theorem test_checkWord_altered : checkWord 40503 1234 (card36.set 5 2) = 56593 := by decide +kernel

/-- 3.7, cases A to D. -/
theorem test_evaluate_window :
    evaluate site36 { state := .running, minute := 99950, second := 0 } [] card36 = none ∧
    evaluate site36 { state := .running, minute := 99930, second := 0 } [] card36 = some .notYet ∧
    evaluate site36 { state := .running, minute := 104320, second := 0 } [] card36 = some .expired ∧
    evaluate site36 { state := .notSet, minute := 0, second := 0 } [] card36 = some .clockNotSet := by decide +kernel

/-- 3.7, cases E to H. -/
theorem test_evaluate_list_and_site :
    evaluate site36 { state := .running, minute := 100640, second := 0 } [.guest 12 5 1] card36 = some .revoked ∧
    evaluate site36 { state := .running, minute := 100640, second := 0 } [.guest 12 5 2] card36 = none ∧
    evaluate { site36 with keyM := 40504 } { state := .running, minute := 100640, second := 0 } [] card36 = some .badCheck ∧
    evaluate Site.cold { state := .running, minute := 100640, second := 0 } [] card36 = some .notConfigured := by decide +kernel

/-- R125: the divisors of 9,600, 300 and 230,400, and the actual rate of the first. -/
theorem test_rates : divisorOf 9600 = 95 ∧ divisorOf 300 = 3071 ∧ divisorOf 230400 = 3 ∧ actualRate 95 = 9600 := by decide

/-- R12: a zone across midnight, open at 1,400 and at 10, closed at 600. -/
theorem test_zone_midnight :
    let z : Zone := { mode := .scheduled, openFrom := 1320, openTo := 60 }
    z.isOpen { state := .running, minute := 1400, second := 0 } = true ∧
    z.isOpen { state := .running, minute := 1450, second := 0 } = true ∧
    z.isOpen { state := .running, minute := 600, second := 0 } = false := by decide

/-- R126: a POLL to address 12 sums to 0. -/
theorem test_frame : ({ addr := 12, msg := .poll, retries := 2 } : Exchange).bytes = [0x0C, 0x01, 0x00, 0xF3] := by decide

/-! ## Orders the table engine serves -/

/-- R2, R3: the graces above 240 are taken as 240, a held-open limit below 10 as 10. -/
theorem test_siteSetup :
    (after (.siteSetup 2) (order State.reset .siteSetup [7, 2, 0x37, 0x9E, 0xD2, 4, 60, 0, 255, 255, 5, 0])).site =
      { site36 with checkoutGrace := 240, heldLimit := 10 } := by decide +kernel

/-- R9: 90 minutes back is taken, 91 is CLOCK_BACKWARD (19). -/
theorem test_setClock :
    (after (.setClock 2) (order (at_ 1000 5) .setClock [0x8E, 3, 0])).clock =
      { state := .running, minute := 910, second := 0 } ∧
    (after (.setClock 2) (order (at_ 1000 5) .setClock [0x8D, 3, 0])).byte 129 = 19 := by decide +kernel

/-- R13, R139: HOLD to a gate of the zone is owed while its line does not run. -/
theorem test_zoneSet :
    ((after (.zoneSet 2) (order (lineWith State.reset (presentDrop (.gate 3)) .ready .idle none) .zoneSet
      [3, 1, 0, 0, 0, 0])).drop 0 12).owed = some { msg := .hold, asker := .zoneTable } := by decide +kernel

/-- R18: ASSIGN, and the label in the room mirror. -/
theorem test_roomSet :
    let t := after (.roomSet 2) (order State.reset .roomSet [12, 0, 214, 0])
    t.rooms[12] = { Room.cold with label := 214, state := .vacant } ∧ t.field 0x602 2 = 214 := by decide +kernel

/-- R27, R30: with the minibar OFFLINE the room is VACANT at once, unscanned, its generation advanced. -/
theorem test_checkout :
    (after (.checkout 2) (order stay12 .checkout [12])).rooms[12] =
      { room12 with state := .vacant, generation := 6, issued := 0, unscanned := true } := by decide +kernel

/-- 2.9: the entries of such a checkout. -/
theorem test_checkout_entries :
    (entries (after (.checkout 2) (order stay12 .checkout [12]))).map Prod.fst = [.roomState, .finalCharge, .roomState] := by
  decide +kernel

/-- R74: of copies 2 and 3, the issued one is revoked. -/
theorem test_revoke :
    (after (.revoke 2) (order stay12 .revoke [0, 12, 255, 255, 6])).revs = [.guest 12 5 2] := by decide +kernel

/-- R75: a STAFF entry lasts until a later minute. -/
theorem test_revoke_staff :
    (after (.revoke 2) (order { stay12 with revs := [.staff 77 200000] } .revoke
      [1, 0, 0, 0, 0, 0, 0, 0, 77, 0, 0, 0, 0x41, 0x0D, 3, 0])).revs = [.staff 77 200001] := by decide +kernel

/-- R77: the last copy restored removes the entry. -/
theorem test_unrevoke :
    (after (.unrevoke 2) (order { stay12 with revs := [.staff 77 200000, .guest 12 5 2] } .unrevoke
      [0, 12, 255, 255, 2])).revs = [.staff 77 200000] := by decide +kernel

/-- 7.10: the three trays. -/
def trays710 : List Byte :=
  [3, 3, 0x20, 0x4E, 0, 0, 3, 0, 120, 0, 0xC2, 1, 6, 75, 0, 0x2C, 1, 4, 200, 0, 0xB0, 4, 2]

theorem test_minibarSet :
    let m := (after (.minibarSet 2) (order State.reset .minibarSet trays710)).minibars[3]
    m.trayCount = 3 ∧ m.limit = 20000 ∧ m.trays[2] = { Tray.cold with unit := 200, price := 1200, stock := 2 } := by
  decide +kernel

/-- The minibar of 7.10, its trays based. -/
def minibar710 : Minibar :=
  { Minibar.cold with
    trayCount := 3, limit := 20000, state := .locked
    trays := #v[{ Tray.cold with unit := 120, price := 450, stock := 6, baseline := 3000, last := some 3000 },
      { Tray.cold with unit := 75, price := 300, stock := 4, baseline := 2100, last := some 2100 },
      { Tray.cold with unit := 200, price := 1200, stock := 2, baseline := 2600, last := some 2600 },
      Tray.cold, Tray.cold, Tray.cold, Tray.cold, Tray.cold] }

/-- R118: one tray is asked for. -/
theorem test_minibarScan :
    let m := (after (.minibarScan 2) (order (withMinibar State.reset 3 minibar710) .minibarScan [3, 1, 2])).minibars[3]
    m.state = .scanning ∧ m.requested = 4 ∧ m.scanCount = 10 := by decide +kernel

/-- R135: an open time above 25 is taken as 25. -/
theorem test_dropSet :
    let d := (after (.dropSet 2) (order State.reset .dropSet [0, 12, 0, 1, 12, 40])).drop 0 12
    d.binding = some (.door 12) ∧ d.openTime = 25 ∧ d.door = some DoorSide.unknown := by decide +kernel

/-- R137, R125: 115,200 baud has divisor 7. -/
theorem test_lineSetup :
    let x := (after (.lineSetup 2) (order State.reset .lineSetup [0, 0, 2, 3, 1, 2, 0, 0xC2, 1, 0, 0, 2, 12, 13])).lines[0]
    x.setup = { parity := .none, stopBits := 2, retryLimit := 3, wakeFlag := true, rate := 115200, divisor := 7,
                table := [12, 13] } ∧ x.rate = 9600 := by decide +kernel

/-- R163: a descriptor with entries written ends CUT_BY_ORDER. -/
theorem test_journalCut :
    let f : Filling := { index := 1, cutOnAlarm := false, capacity := 8, offset := 0x1000, written := 2, firstSeq := 0, lastSeq := 1 }
    let s := { State.reset with journal := { State.reset.journal with filling := some f } }
    let t := after (.journalCut 2) (order s .journalCut [255])
    t.byte 0x410 = 3 ∧ t.byte 0x41C = 3 ∧ t.journal.filling = none := by decide +kernel

/-- R163: with nothing written the descriptor's sequences are reported as they stand in it, the first 0x0201 and the last 0x0403 (12.3). -/
theorem test_journalCut_nothingWritten :
    let f : Filling := { index := 0, cutOnAlarm := false, capacity := 8, offset := 0x1000, written := 0, firstSeq := 0, lastSeq := 0 }
    let s := { State.reset with journal := { State.reset.journal with filling := some f } }
    let t := after (.journalCut 2) (order (s.store 0x408 [1, 2, 3, 4]) .journalCut [0])
    t.resultAt 2 2 2 = 0 ∧ t.resultAt 2 4 2 = 0x0201 ∧ t.resultAt 2 6 2 = 0x0403 ∧ t.byte 0x400 = 4 := by decide +kernel

/-- R163: a descriptor out of range is BAD_PARAM (2), and the result data shows the queue length 1 and that none is FILLING. -/
theorem test_journalCut_badParam :
    let t := after (.journalCut 2) (order State.reset .journalCut [4])
    t.byte 129 = 2 ∧ t.resultAt 2 0 1 = 255 ∧ t.resultAt 2 1 1 = 1 := by decide +kernel

/-- R173: an order that waits ends CANCELLED (15). -/
theorem test_cancel :
    let waiting : Held := { heldOrder .roomSet [] with block := 5, priority := 0 }
    let t := after (.cancel 2) { State.reset with held := [heldOrder .cancel [5], waiting], engine := some 2 }
    t.byte 320 = 4 ∧ t.byte 321 = 15 ∧ t.byte 129 = 0 ∧ t.held = [] ∧ t.engine = none := by decide +kernel

/-! ## Orders judged at intake, and the registers -/

/-- The parameters of 6.8: NEW_STAY for room 12, count 3, wait 60. -/
def issue68 : List Byte :=
  [0, 12, 3, 0, 0xA0, 0x86, 1, 0, 0x80, 0x97, 1, 0, 5, 1, 60, 0] ++ List.replicate 24 0

/-- 6.8, step 1: the order runs at once, and SENSE is sent. -/
theorem test_issue :
    let t := after (.issue 4 2 issue68) (at_ 99990 0)
    t.byte 256 = 2 ∧ t.encoder.state = .sensing ∧ t.encoder.exchange = some { msg := .sense, retries := 2 } := by
  decide +kernel

/-- R36, R97: of the rights 0xFF a GUEST card keeps MINIBAR_OPEN; the other two rights are cleared, and five bits name none. -/
theorem test_issue_rights :
    (after (.issue 4 2 (issue68.set 13 255)) (at_ 99990 0)).encoder.running.map (fun o => (o.rights, o.rightsCleared)) =
      some (1, 6) := by decide +kernel

/-- R98: a card wait of 0 is taken as 1. -/
theorem test_readCard :
    (after (.readCard 4 9 (List.replicate 40 0)) State.reset).encoder.running.map (fun o => (o.cardWait, o.priority)) =
      some (1, 7) := by decide +kernel

/-- R99: FORCE is bit 0, NO_RETRY bit 1. -/
theorem test_eraseCard :
    (after (.eraseCard 4 2 ([60, 2] ++ List.replicate 38 0)) State.reset).encoder.running.map (fun o => (o.force, o.noRetry)) =
      some (false, true) := by decide +kernel

/-- R146: OFF to READY at once. -/
theorem test_lineGo :
    let t := after (.lineGo 4 2 ([1, 1] ++ List.replicate 38 0)) State.reset
    t.lines[1].state = .ready ∧ t.byte 256 = 4 ∧ t.byte 257 = 0 := by decide +kernel

/-- R144: SURVEY is not taken in OFF: LINE_STATE (22); target 5 is none: BAD_PARAM (2), with the line's rate. -/
theorem test_lineGo_refused :
    (after (.lineGo 4 2 ([1, 2] ++ List.replicate 38 0)) State.reset).byte 257 = 22 ∧
    (let t := after (.lineGo 4 2 ([1, 5] ++ List.replicate 38 0)) State.reset
     t.byte 257 = 2 ∧ t.field 304 4 = 9600) := by decide +kernel

/-- R170: kind 99 is unknown: UNKNOWN_ORDER (18). -/
theorem test_attention :
    (after (.attentionLatchSet [(66, 99), (64, 1)] 1) State.reset).byte 65 = 18 := by decide +kernel

/-- R171: the order of block 2 stays taken though one of higher priority comes in block 1. -/
theorem test_attention_engine :
    let t := after (.attentionLatchSet [(66, 4), (67, 7), (64, 1)] 1) (order State.reset .setClock [])
    t.engine = some 2 ∧ t.held.length = 2 ∧ (after (.roomSet 1) t).held.length = 2 ∧ (after (.setClock 2) t).engine = some 1 := by
  decide +kernel

/-- R168: a one clears START, and only it. -/
theorem test_causeClear : (after (.causeClear 0x0010) { State.reset with cause := 0x0013 }).cause = 0x0003 := by decide +kernel

/-- 11.2: bits above 4 are not taken. -/
theorem test_maskWrite : (after (.maskWrite 0xFFFF) State.reset).mask = 0x001F := by decide +kernel

/-- R168: a one clears that flag alone. -/
theorem test_startFlagsClear : (after (.startFlagsClear 0x0001) { State.reset with startFlags := 3 }).startFlags = 2 := by
  decide +kernel

/-! ## Starts and the supply -/

/-- R33: a room found DEPARTING is VACANT, unscanned; the flag SOFT joins the others. -/
theorem test_softReset :
    Room.restarted { room12 with state := .departing, wait := 0 } = { room12 with state := .vacant, unscanned := true } ∧
    StartKind.flags .soft 1 = 9 := by decide

/-- R176, R32: COLD alone in the flags; the serial counter is 1 again. -/
theorem test_coldStart :
    StartKind.flags .cold 6 = 1 ∧ ({ at_ 5 5 with serial := 900 } : State).batteryCold.serial = 1 := by decide +kernel

/-- R8: 61 seconds pass while the supply is absent. -/
theorem test_supplyStart :
    ({ state := .running, minute := 100, second := 30 } : Clock).addSeconds 61 = { state := .running, minute := 101, second := 31 } := by
  decide

/-- R7: a crystal that does not run leaves the clock NOT_SET, its minute as it was. -/
theorem test_pinStart :
    ((at_ 100 30).testCrystal false).clock = { state := .notSet, minute := 100, second := 30 } ∧
    codeOf false false = .crystalFault := by decide +kernel

/-- R176, R33: a start cut after its self-test leaves a DEPARTING room to the next. -/
theorem test_pinStart_cut :
    let t := after (.pinStart true true { seconds := 0, reach := .tested }) (withRoom (at_ 5 5) 12 { room12 with state := .departing })
    t.rooms[12].state = .departing ∧ t.ready = false ∧ t.startFlags = 5 := by decide +kernel

/-- R175: the tables outlast the supply. -/
theorem test_mainSupplyFail :
    let t := after .mainSupplyFail stay12
    t.powered = false ∧ t.ready = false ∧ t.rooms[12] = room12 ∧ t.site = site36 := by decide +kernel

/-! ## Time -/

/-- R25 and its example: the tick that carries 104,349 leaves the room OCCUPIED, the one that carries 104,350 does not. -/
theorem test_secondsTick :
    (at_ 104349 59).clock.addSeconds 1 = { state := .running, minute := 104350, second := 0 } ∧
    ((withRoom (at_ 104349 0) 12 room12).minuteTick 104349).rooms[12].state = .occupied ∧
    ((withRoom (at_ 104350 0) 12 room12).minuteTick 104350).rooms[12].state = .overstay := by decide +kernel

/-- R4, R177: a start cut after its step 2 has written the mirrors with count 2; a second then rewrites the site mirror, and no tick is
delivered. -/
theorem test_secondsTick_unready :
    let s : State := { at_ 5 59 with ready := false, siteCount := 2 }
    let t := after .secondsTick s
    t.clock = { state := .running, minute := 6, second := 0 } ∧ t.siteCount = 4 ∧ t.byte 0x444 = 6 ∧ t.byte 0x447 = 0 ∧
    t.journal = s.journal := by decide +kernel

/-- R5. -/
theorem test_clockEnd :
    (at_ 16777214 59).clock.addSeconds 1 = { state := .ended, minute := 16777215, second := 0 } := by decide +kernel

/-- R28: the thirtieth second closes the room. -/
theorem test_departingWaitExpiry :
    (after (.departingWaitExpiry 12) (withRoom (at_ 5 5) 12 { room12 with state := .departing, wait := 1 })).rooms[12] =
      { room12 with state := .vacant, unscanned := true } := by decide +kernel

/-- The door at 0:12 with another record. -/
def doorAs (d : DoorSide) : State := lineWith stay12 { presentDrop (.door 12) with door := some d } .run .idle none

/-- R64: the window ends, and the latch is LATCHED again. -/
theorem test_grantDeadlineExpiry :
    doorOf (after (.grantDeadlineExpiry 0 12) (doorAs { DoorSide.unknown with latch := .granted, deadline := some 1 })) =
      { DoorSide.unknown with latch := .latched } := by decide +kernel

/-- R67: the alarm is raised at the limit of 60 seconds. -/
theorem test_doorHeld :
    let t := after (.doorHeld 0 12) (doorAs { DoorSide.unknown with leaf := .opened, timer := true, heldCount := 59 })
    (doorOf t).alarm = true ∧ entries t = [(.doorHeld, 12, 12, 0, 0, 60)] := by decide +kernel

/-- R110: the window of a cabinet ends LOCKED. -/
theorem test_minibarDeadlineExpiry :
    (after (.minibarDeadlineExpiry 3) (withMinibar State.reset 3
      { minibar710 with state := .granted, opener := some .guest, deadline := some 1 })).minibars[3] = minibar710 := by
  decide +kernel

/-- R114: an abandoned scan names the trays that gave no reading: reason 2, trays 0 and 2. -/
theorem test_scanExpiry :
    let m := { minibar710 with
      state := .scanning, purpose := some .afterClose, requested := 7, scanCount := 1
      collected := #v[none, some 2150, none, none, none, none, none, none] }
    let t := after (.scanExpiry 3) (withMinibar State.reset 3 m)
    t.minibars[3] = minibar710 ∧ entries t = [(.minibarFault, 255, 3, 2, 0, 5)] := by decide +kernel

/-- The encoder with a running order in block 4 (6.8), a message open. -/
def encOrder : EncOrder :=
  { EncOrder.fresh { heldOrder .issue [] with block := 4, owner := .encoder } (.issue .newStay) 60 with
    room := some 12, count := 3, validFrom := 100000, validUntil := 104320, zoneMask := 5, rights := 1, copy := 1
    waitCount := 60 }

/-- A part whose encoder sends a message. -/
def encoding (s : State) (o : EncOrder) (st : EncState) (msg : EncMsg) (g : Stage) (retries : Nat) : State :=
  { s with
    held := [{ heldOrder .issue [] with block := o.block, owner := .encoder }]
    encoder := { s.encoder with
      state := st, running := some o, exchange := some { msg := msg, retries := retries }, stage := g } }

/-- Room 12 before 6.8: VACANT, generation 4; the counter holds 305. -/
def before68 : State :=
  { withRoom (at_ 99990 0) 12 { Room.cold with label := 214, state := .vacant, generation := 4 } with serial := 305 }

/-- R89: no card in time: NO_CARD (9). -/
theorem test_cardWaitExpiry :
    let t := after .cardWaitExpiry (encoding before68 { encOrder with waitCount := 1 } .sensing .sense .sensing 2)
    t.byte 257 = 9 ∧ t.encoder.state = .idle := by decide +kernel

/-! ## The journal -/

/-- R161: the START entry is written at the buffer, sequence 0, kind 1 in its place. -/
theorem test_journalWrite :
    let f : Filling := { index := 0, cutOnAlarm := false, capacity := 1, offset := 0x1000, written := 0, firstSeq := 0, lastSeq := 0 }
    let t := after .journalWrite { State.reset with journal := { State.reset.journal with filling := some f } }
    t.journal.queue = [] ∧ t.byte 0x1006 = 1 ∧ t.byte 0x100F = 1 ∧ t.byte 0x400 = 3 ∧ t.byte 0x40C = 1 := by decide +kernel

/-- R155: with 28 waiting and the gap count at its end, a lost request leaves no trace. -/
theorem test_gap_full :
    let s : State := { State.reset with journal := { State.reset.journal with queue := List.replicate 28 Entry.coldStart, gap := 65535 } }
    let t := s.admitRequest { kind := .deny }
    t.siteCount = s.siteCount ∧ t.journal = s.journal := by decide +kernel

/-! ## A door line -/

/-- R131: a drop that was ABSENT is owed an IDENTIFY. -/
theorem test_nil :
    (after (.nil 0) (asking stay12 { presentDrop (.door 12) with presence := .absent } .poll 2)).lines[0].activity =
      .exchange { addr := 12, msg := .identify, retries := 2 } := by decide +kernel

/-- R52, R60, R24: the card of 3.6 at its own door. -/
theorem test_cardRead :
    let t := after (.cardRead 0 card36) atDoor
    entries t = [(.grant, 12, 12, 1, 305, 5)] ∧ (doorOf t).latch = .granted ∧ t.rooms[12].lastGrant = some 100640 := by
  decide +kernel

/-- 2.9, step 2: a card of the stay before. DENY with GENERATION_OLD (11) and class 1, sent. -/
theorem test_cardRead_refused :
    let t := after (.cardRead 0 card36) (withRoom atDoor 12 { room12 with generation := 6 })
    entries t = [(.deny, 12, 12, 11, 305, 256)] ∧
    t.lastDeny[12] = some { reason := .generationOld, minute := 100640 } := by decide +kernel

/-- R66: a door that opens against its latch. -/
theorem test_doorState :
    let t := after (.doorState 0 1 1 0) atDoor
    entries t = [(.doorForced, 12, 12, 0, 0, 0)] ∧ (doorOf t).timer = true ∧ (doorOf t).bolt = .engaged := by decide +kernel

/-- 7.10: the last readings of the scan. -/
theorem test_trayData :
    let m := { minibar710 with
      state := .scanning, purpose := some .afterClose, requested := 7, scanCount := 9
      collected := #v[some 2770, some 2150, none, none, none, none, none, none] }
    let t := after (.trayData 0 1 2 [2140, 1950]) (asking (withMinibar (at_ 5 5) 3 m) (presentDrop (.minibar 3)) .poll 2)
    t.minibars[3].charge = 3300 ∧ t.minibars[3].overStock = true ∧ entries t = [(.minibarCharge, 12, 3, 1, 3300, 1792)] := by
  decide +kernel

/-- 7.11: the RESTOCK scan reads 4,095, 2,110 and 2,610. -/
theorem test_trayData_restock :
    let m := { minibar710 with
      state := .scanning, purpose := some .restock, requested := 7, scanCount := 9, charge := 3300
      trays := (minibar710.trays.set 0 { minibar710.trays[0] with taken := 2 }).set 2 { minibar710.trays[2] with taken := 2 } }
    let t := after (.trayData 0 0 3 [4095, 2110, 2610]) (asking (withMinibar (at_ 5 5) 3 m) (presentDrop (.minibar 3)) .poll 2)
    t.minibars[3].charge = 3300 ∧ t.minibars[3].carried = 2400 ∧
    entries t = [(.minibarFault, 12, 3, 1, 3300, 1), (.minibarRestocked, 12, 3, 0, 2400, 6)] := by decide +kernel

/-- R131: an IDENT that names another kind. -/
theorem test_ident :
    let s := asking stay12 { presentDrop (.door 12) with presence := .silent } .identify 2
    let t := after (.ident 0 3 0) s
    (t.drop 0 12).presence = .mismatch ∧ entries t = [(.dropMismatch, 12, 12, 0, 0, 515)] := by decide +kernel

/-- R62: the open window of 5 seconds runs from the ACK. -/
theorem test_ack :
    let g : Grant := { cls := .guest, serial := 305, seconds := 5, room := 12 }
    let d : DoorSide := { DoorSide.unknown with latch := .granted, pending := some g }
    let m : QMsg := { addr := 12, msg := .openLock 5, asker := .doorUnit }
    doorOf (after (.ack 0) (asking stay12 { presentDrop (.door 12) with door := some d } (.directed m) 2)) =
      { d with pending := none, deadline := some 5 } := by decide +kernel

/-- R129: the POLL is sent again; a NIL with a wrong sum is no good reply. -/
theorem test_badReply :
    (after (.badReply 0 (plain 0x8C) [plain 0x40, plain 0, plain 0x35]) atDoor).lines[0].activity =
      .exchange { addr := 12, msg := .poll, retries := 1 } := by decide +kernel

/-- R129: a part of a reply is kept; with its sum byte it is complete, a NIL that answers the POLL, and a later character is discarded. -/
theorem test_badReply_run :
    let part := after (.badReply 0 (plain 0x8C) [plain 0x40]) atDoor
    part.lines[0].activity = .exchange { addr := 12, msg := .poll, retries := 2, received := [plain 0x8C, plain 0x40] } ∧
    (after (.badReply 0 (plain 0) [plain 0x34, plain 0x99]) part).lines[0].activity = .idle := by decide +kernel

/-- R130: the third final failure makes a PRESENT drop SILENT. -/
theorem test_replyWindowExpiry :
    let t := after (.replyWindowExpiry 0) (asking stay12 { presentDrop (.door 12) with miss := 2 } .poll 0)
    (t.drop 0 12).presence = .silent ∧ entries t = [(.dropSilent, 12, 12, 0, 0, 256)] ∧ (doorOf t).latch = .unknown := by
  decide +kernel

/-- R147: the survey moves the line to 9,600 and probes address 1. -/
theorem test_broadcastWindowEnd :
    let t := after (.broadcastWindowEnd 0) (lineWith State.reset Drop.cold .survey (.rateWindow 9600 95 false) none)
    t.lines[0].rate = 9600 ∧ t.lines[0].activity = .exchange { addr := 1, msg := .identify, retries := 1 } := by decide +kernel

/-- R153, R143: FAULT, and LINE_FAULT with FAULT (6) from RUN (3). -/
theorem test_longBreak :
    let t := after (.longBreak 0) atDoor
    t.lines[0].state = .fault ∧ (t.drop 0 12).presence = .silent ∧ t.cause = 0x001C ∧
    entries t = [(.lineFault, 0, 255, 3, 9600, 1539)] := by decide +kernel

/-- R151: with the wake flag clear the line stays in HUSH; a break below 1 ms is noise. -/
theorem test_wakeRequest :
    let s := lineWith State.reset Drop.cold .hush .idle none
    entries (after (.wakeRequest 0 99) s) = [(.wakeRequest, 0, 255, 0, 99, 0)] ∧
    (after (.wakeRequest 0 99) s).lines[0].state = .hush ∧ entries (after (.wakeRequest 0 0) s) = [] := by decide +kernel

/-- A LINE_GO in progress in block 5. -/
def going (target : Target) : Option GoMark := some { block := 5, target := target }

/-- R146: a clean watch. -/
theorem test_faultWatchEnd :
    let t := after (.faultWatchEnd 0) (lineWith State.reset Drop.cold .fault .watch (going .ready))
    t.lines[0].state = .ready ∧ t.byte 320 = 4 ∧ entries t = [(.lineState, 0, 255, 1, 9600, 262)] := by decide +kernel

/-- R146: a break in the watch: LINE_FAULT (23). -/
theorem test_faultWatchBreak :
    let t := after (.faultWatchBreak 0) (lineWith State.reset Drop.cold .fault .watch (going .ready))
    t.lines[0].state = .fault ∧ t.byte 321 = 23 := by decide +kernel

/-- R152. -/
theorem test_wakeBreakEnd :
    (after (.wakeBreakEnd 0) (lineWith State.reset Drop.cold .wake .wakeBreak none)).lines[0].activity = .wakeSettle := by
  decide +kernel

/-- R152: a wake of the line's own carries cause 4. -/
theorem test_wakeSettleEnd :
    let t := after (.wakeSettleEnd 0) (lineWith State.reset Drop.cold .wake .wakeSettle none)
    t.lines[0].state = .run ∧ entries t = [(.lineState, 0, 255, 4, 9600, 773)] := by decide +kernel

/-! ## The encoder port -/

/-- R89: a card is present; it is read. -/
theorem test_cardState :
    (after (.cardState 1) (encoding before68 encOrder .sensing .sense .sensing 2)).encoder.exchange =
      some { msg := .read, retries := 2 } := by decide +kernel

/-- R89: the pace runs out with the SENSE still open. -/
theorem test_sensePace :
    (after .sensePace (encoding before68 encOrder .sensing .sense .sensing 2)).encoder.paceDue = true := by decide +kernel

/-- 6.8, step 1: a blank card; the room advances to generation 5, and the card takes serial 305. -/
theorem test_image :
    let t := after (.image blankImage) (encoding before68 encOrder .working .read .reading 2)
    t.rooms[12].generation = 5 ∧ t.serial = 306 ∧ t.encoder.exchange = some { msg := .write card36, retries := 2 } := by
  decide +kernel

/-- 6.8, step 1: the read-back matches; the stay starts. -/
theorem test_image_verified :
    let o := { encOrder with generation := some 5, advanced := true, unfinished := some 305, image := card36 }
    let t := after (.image card36) (encoding (withRoom before68 12 { before68.rooms[12] with generation := 5 }) o .working .read
      (.verifying 1) 2)
    t.rooms[12] = { room12 with issued := 1 } ∧
    entries t = [(.roomState, 255, 12, 0, 5, 513), (.cardIssued, 255, 12, 1, 305, 1281)] := by decide +kernel

/-- R90: an unreadable card is not taken for a REWRITE: it is ejected. -/
theorem test_readFail :
    (after .readFail (encoding stay12 { encOrder with job := .issue .rewrite } .working .read .reading 2)).encoder.stage =
      .ejectEnd .wrongCard := by decide +kernel

/-- R93: after DONE the card is read back. -/
theorem test_done :
    (after .done (encoding before68 { encOrder with image := card36 } .working (.write card36) (.writing 1) 2)).encoder.stage =
      .verifying 1 := by decide +kernel

/-- R93, R94: after the third attempt twenty bytes of 0xEE are written. -/
theorem test_writeFail :
    (after .writeFail (encoding before68 { encOrder with image := card36 } .working (.write card36) (.writing 3) 2)).encoder.exchange =
      some { msg := .write (List.replicate 20 0xEE), retries := 2 } := by decide +kernel

/-- R83, R124: the bytes of a good CARD_STATE, one of them with its parity bit wrong, use an attempt. -/
theorem test_encoderBadReply :
    let s := encoding before68 encOrder .sensing .sense .sensing 2
    (after (.encoderBadReply { plain 0x81 with parity := true } [plain 0x50, plain 1, plain 1, plain 0x2D]) s).encoder.exchange =
      some { msg := .sense, retries := 1 } := by decide +kernel

/-- R83: in good characters a part of them is kept, and the whole is the CARD_STATE it spells: the card is read. -/
theorem test_encoderBadReply_run :
    let s := encoding before68 encOrder .sensing .sense .sensing 2
    let part := after (.encoderBadReply (plain 0x81) [plain 0x50]) s
    part.encoder.exchange = some { msg := .sense, retries := 2, received := [plain 0x81, plain 0x50] } ∧
    (after (.encoderBadReply (plain 1) [plain 1, plain 0x2D]) part).encoder.exchange = some { msg := .read, retries := 2 } := by
  decide +kernel

/-- R84, R94: the third failure: ENCODER_SILENT (12). -/
theorem test_encoderReplyTimeout :
    let t := after .encoderReplyTimeout (encoding before68 encOrder .sensing .sense .sensing 0)
    t.encoder.presence = .silent ∧ t.byte 257 = 12 := by decide +kernel

/-- R7. -/
theorem test_clockCrystalStop : (after .secondsTick (after .clockCrystalStop (at_ 5 5))).clock.second = 5 := by decide +kernel

/-! ## Witnesses: for each statement with hypotheses, states and operands that meet them -/

/-- The engine serves the order of block 2. -/
theorem order_serves (s : State) (kind : OrderKind) (p : List Byte) (h : s.ready = true) :
    (order s kind p).ServesNow 2 kind (heldOrder kind p) := ⟨h, rfl, rfl, rfl⟩

/-- A check of the laws of a line whose drops owe nothing. -/
def lawful (x : Line) : Bool :=
  (decide (x.state = .run) || x.queue.isEmpty) && decide (x.places ≤ 16) && decide (x.queue.map QMsg.addr).Nodup &&
  decide (∀ a : Fin 64, x.drops[a].owed = none) &&
  (match x.activity with
    | .idle => true
    | .exchange e => decide (x.state = .run ∨ x.state = .survey ∧ e.msg = .identify)
    | .rateWindow _ _ _ => decide (x.state = .survey)
    | .quietWindow => decide (x.state = .run)
    | .wakeBreak | .wakeSettle => decide (x.state = .wake)
    | .watch => decide (x.state = .fault)) &&
  (match x.mark with
    | none => true
    | some m => decide (x.state = .run → x.activity ≠ .idle ∧ (m.target = .off ∨ m.target = .hush)))

theorem lineInv_of_lawful (s : State) (h : ∀ l : Fin 2, lawful s.lines[l] = true) : s.LineInv := by
  intro l
  have hl := h l
  generalize s.lines[l] = x at hl
  simp only [lawful, Bool.and_eq_true, decide_eq_true_eq] at hl
  obtain ⟨⟨⟨⟨⟨h1, h2⟩, h3⟩, h4⟩, h5⟩, h6⟩ := hl
  refine ⟨⟨?_, h2, h3, fun m _ => h4 m.addr, ?_⟩, ?_, ?_⟩
  · intro hs; simp [hs] at h1; exact h1
  · intro a o ho; rw [h4 a] at ho; cases ho
  · unfold Line.ActivityLaw
    split <;> simp_all
  · intro m hs hm; rw [hm] at h6; simpa [hs] using h6

/-- The drop at 0:12 may owe a SCAN_TRAYS, a HOLD or a LATCH while nothing waits. -/
theorem lineInv_of_owing (s : State) (h : s.LineInv) (hq : s.lines[(0 : Fin 2)].queue = []) (o : Owed)
    (ho : o.msg.isOpenOrDeny = false) : (s.setOwed 0 12 (some o)).LineInv := by
  intro l
  by_cases hl : l = 0
  · subst hl
    obtain ⟨⟨-, h2, -, -, h5⟩, ha, hg⟩ := h 0
    have e : (s.setOwed 0 12 (some o)).lines[(0 : Fin 2)] =
        { s.lines[(0 : Fin 2)] with drops := s.lines[(0 : Fin 2)].drops.set 12 { s.drop 0 12 with owed := some o } } := by
      simp [State.setOwed, State.setDrop, State.setLine]
    rw [e]
    have waits : ∀ m, m ∉ s.lines[(0 : Fin 2)].queue := by rw [hq]; intro m; exact List.not_mem_nil
    refine ⟨⟨fun _ => hq, h2, ?_, fun m hm => absurd hm (waits m), ?_⟩, ha, hg⟩
    · show (s.lines[(0 : Fin 2)].queue.map QMsg.addr).Nodup
      rw [hq]; exact List.nodup_nil
    intro a p hp
    by_cases h12 : a = 12
    · subst h12
      have : o = p := by simpa using hp
      subst this
      constructor <;> (intro n hn; rw [hn] at ho; cases ho)
    · refine h5 a p ?_
      rw [← hp]
      have hne : (12 : Nat) ≠ a.val := by
        intro h; exact h12 (Fin.ext (by simpa using h.symm))
      simp [Vector.getElem_set_ne, hne]
  · have e : (s.setOwed 0 12 (some o)).lines[l] = s.lines[l] := by
      obtain rfl : l = 1 := by omega
      simp [State.setOwed, State.setDrop, State.setLine]
    rw [e]; exact h l

/-- The binding laws of a state with drops bound at 0:12 alone. -/
theorem bindingInv_of_one (s : State) (b : Binding) (hb : (s.drop 0 12).binding = some b)
    (hd : (s.drop 0 12).door.isSome = b.hasDoor)
    (h : ∀ (l : Fin 2) (a : Fin 64), (l, a) ≠ (0, 12) → (s.drop l a).binding = none ∧ (s.drop l a).door = none) :
    s.BindingInv := by
  have bound (l : Fin 2) (a : Fin 64) (c : Binding) (hc : (s.drop l a).binding = some c) : (l, a) = (0, 12) := by
    by_contra hne; rw [(h l a hne).1] at hc; cases hc
  refine ⟨?_, ?_, ?_⟩
  · intro l
    exact (h l 0 (by simp)).1
  · intro l k a c g _ h1 h2
    have e1 := bound l a g h1
    have e2 := bound k c g h2
    simp only [Prod.mk.injEq] at e1 e2
    exact ⟨e1.1.trans e2.1.symm, e1.2.trans e2.2.symm⟩
  · intro l a
    by_cases he : (l, a) = (0, 12)
    · simp only [Prod.mk.injEq] at he
      obtain ⟨rfl, rfl⟩ := he
      rw [hd, hb]
      constructor
      · intro hh; exact ⟨b, rfl, hh⟩
      · rintro ⟨c, hc, hh⟩; cases hc; exact hh
    · rw [(h l a he).1, (h l a he).2]; simp

theorem reachInv_of_offline (s : State) (h : ∀ r : Fin 48, s.minibars[r].state = .offline) : s.ReachInv :=
  fun r hr => absurd (h r) hr

/-- A minibar within reach at 0:12, and no other. -/
theorem reachInv_of_one (s : State) (r : Fin 48) (hb : (s.drop 0 12).binding = some (.minibar r))
    (hp : (s.drop 0 12).presence = .present) (hr : s.lines[(0 : Fin 2)].state = .run)
    (h : ∀ k : Fin 48, k ≠ r → s.minibars[k].state = .offline) : s.ReachInv := by
  intro k hk
  by_cases e : k = r
  · subst e; exact ⟨0, 12, hb, hp, hr⟩
  · exact absurd (h k e) hk

/-- One order held, for a block that is neither the table engine nor the encoder. -/
theorem ownerInv_of_one (s : State) (h : Held) (hh : s.held = [h]) (ho : h.owner ≠ .engine) (he : s.engine = none)
    (hn : s.encoder.running.toList ++ s.encoder.waiting = [])
    (hm : ∀ (l : Fin 2) (m : GoMark), s.lines[l].mark = some m → h.block = m.block ∧ h.owner = .line l) : s.OwnerInv := by
  refine ⟨by simp [State.HeldInv, hh], ?_, by simp [he], by simp [hn], by simp [hn], ?_⟩
  · intro g hg e
    obtain rfl : g = h := by simpa [hh] using hg
    exact absurd e ho
  · intro l m e
    exact ⟨h, by simp [hh], (hm l m e).1, (hm l m e).2⟩

/-- A part that runs: room 12 in a stay with a revoked copy, its door PRESENT on a polled line, an order waiting, a command to
execute. -/
def lively : State :=
  { atDoor with
    pending := [.cardRead 0 card36], held := [heldOrder .roomSet [12, 1, 0, 0]], engine := some 2, revs := [.guest 12 5 2, .staff 77 200000] }

theorem lively_lines : lively.LineInv := lineInv_of_lawful _ (by decide +kernel)

theorem lively_bindings : lively.BindingInv := bindingInv_of_one _ (.door 12) rfl rfl (by decide +kernel)

theorem lively_revs : lively.RevInv := by
  refine ⟨by decide, by simp [lively, RevEntry.Differ], ?_⟩
  intro e he
  have : e = .guest 12 5 2 ∨ e = .staff 77 200000 := by simpa [lively] using he
  obtain rfl | rfl := this
  · exact ⟨rfl, by decide, by decide +kernel, rfl⟩
  · exact ⟨by decide, by decide, by decide⟩

theorem witness_StepTakesTheFrontCommand :
    lively.pending = .cardRead 0 card36 :: [] ∧ State.reset.pending = [] := ⟨rfl, rfl⟩

theorem witness_RegisterWrites : State.reset.powered = true ∧ { State.reset with powered := false }.powered = false := by decide

/-- The premises of what every step keeps. -/
theorem witness_MemoryJournalAndClockKept :
    lively.MemoryInv ∧ lively.JournalInv ∧ lively.ClockInv ∧ lively.StartInv ∧ ∃ t, step lively = .next t := by
  refine ⟨⟨by decide +kernel, ?_⟩, ⟨by decide, by decide, by decide, by decide, ?_⟩,
    ⟨by decide, by decide, by decide, by decide⟩, ⟨fun _ => rfl, fun _ => rfl⟩, _, rfl⟩ <;> (intro f hf; cases hf)

theorem witness_RoomsAndMinibarsKept : lively.RoomInv ∧ lively.MinibarInv ∧ ∃ t, step lively = .next t := by
  refine ⟨⟨by decide +kernel, by decide +kernel⟩, ?_, _, rfl⟩
  unfold State.MinibarInv Minibar.Bounded
  decide +kernel

theorem witness_RevocationsKept : lively.RevInv ∧ ∃ t, step lively = .next t := ⟨lively_revs, _, rfl⟩

theorem witness_BindingsKept : lively.BindingInv ∧ lively.LineInv ∧ lively.ReachInv ∧ ∃ t, step lively = .next t :=
  ⟨lively_bindings, lively_lines, reachInv_of_offline _ (by decide +kernel), _, rfl⟩

theorem witness_LinesKept : lively.LineInv ∧ ∃ t, step lively = .next t := ⟨lively_lines, _, rfl⟩

theorem lively_owners : lively.OwnerInv := by
  refine ⟨by unfold State.HeldInv; decide, fun _ _ _ => rfl, ?_, ?_, List.nodup_nil, ?_⟩
  · intro b hb
    obtain rfl : b = 2 := by simpa [lively, eq_comm] using hb
    exact ⟨_, List.mem_cons_self, rfl, rfl⟩
  · intro o ho; cases ho
  · intro l m hm
    rw [(by decide +kernel : ∀ k : Fin 2, lively.lines[k].mark = none) l] at hm; cases hm

theorem witness_OrdersKept : lively.HeldInv ∧ lively.OwnerInv ∧ lively.EncoderInv ∧ ∃ t, step lively = .next t := by
  refine ⟨lively_owners.1, lively_owners, ⟨?_, ?_⟩, _, rfl⟩
  · intro o ho; cases ho
  · exact List.Pairwise.nil

theorem witness_CountersRise : startsPart (.cardRead 0 card36) = false ∧ ∃ t, exec (.cardRead 0 card36) lively = .next t :=
  ⟨rfl, _, rfl⟩

theorem witness_HostScratchUntouched :
    WellFormed (.roomSet 2) = true ∧ reachesScratch (.roomSet 2) = false ∧ lively.MemoryInv ∧
    ∃ t, exec (.roomSet 2) lively = .next t :=
  ⟨rfl, rfl, witness_MemoryJournalAndClockKept.1, _, rfl⟩

theorem witness_EventsFrame :
    ofDoorLine (.cardRead 0 card36) = true ∧ ofEncoder (.cardState 1) = true ∧
    (∃ t, exec (.cardRead 0 card36) lively = .next t) ∧ ∃ t, exec (.cardState 1) lively = .next t :=
  ⟨rfl, rfl, ⟨_, rfl⟩, _, rfl⟩

theorem witness_Starts :
    lively.tableCheck = true ∧ lively.powered = true ∧ (1 : Half).getLsbD 0 = true ∧ (lively.tableCheck && false) = false := by
  decide

/-- Every room DEPARTING as a start finds it: 49 entries; and none: one. -/
theorem witness_Starts_departing :
    let s : State := { stay12 with rooms := Vector.replicate 48 { room12 with state := .departing, wait := 9 } }
    s.tableCheck = true ∧ s.powered = true ∧ s.rooms[47].state = .departing ∧ (s.startEntries 3 0).length = 49 ∧
    (stay12.startEntries 3 0).length = 1 := by
  decide +kernel

/-- A start cut after its step 2, and one cut before it. -/
theorem witness_SecondMovesTheClock_unready :
    let s (mirrors : Bool) : State := { lively with ready := false, mirrorsStand := mirrors }
    ∀ mirrors, (s mirrors).ready = false ∧ (s mirrors).counting = true ∧ (s mirrors).ClockInv ∧ (s mirrors).mirrorsStand = mirrors :=
  fun _ => ⟨rfl, rfl, (⟨by decide, by decide, by decide, by decide⟩ : lively.ClockInv), rfl⟩

theorem witness_SecondMovesTheClock :
    lively.ready = true ∧ lively.counting = true ∧ lively.ClockInv ∧
    (let s := { lively with clock := { state := .running, minute := 16777214, second := 59 } }
     s.ready = true ∧ s.counting = true ∧ s.ClockInv ∧ s.RevInv) ∧
    ({ lively with crystalRuns := false } : State).crystalFault = false := by
  refine ⟨rfl, rfl, ⟨by decide, by decide, by decide, by decide⟩,
    ⟨rfl, rfl, ⟨by decide, by decide, by decide, by decide⟩, lively_revs⟩, rfl⟩

/-- Every count at work: a deadline and a timer at the door, a scanning minibar, a departing room, a sensing encoder with time left and with
its last second, the last second of a minute. -/
theorem witness_SecondMovesTheCounts :
    let s : State := withMinibar (withRoom (doorAs { DoorSide.unknown with latch := .granted, deadline := some 1, timer := true }) 4
      { room12 with label := 7, state := .departing, wait := 30 }) 3 { minibar710 with state := .scanning, requested := 7, scanCount := 10 }
    let t : State := { s with clock := { s.clock with second := 59 } }
    let senses (n : Nat) : State := encoding t { encOrder with waitCount := n } .sensing .sense .sensing 2
    ∀ n, (senses n).ready = true ∧ (senses n).counting = true ∧ (senses n).ClockInv ∧ (senses n).BindingInv ∧ (senses n).LineInv ∧
      (senses n).encoder.state = .sensing ∧ (senses n).encoder.running = some { encOrder with waitCount := n } ∧
      (senses n).encoder.waiting = [] := by
  have bindings : (doorAs { DoorSide.unknown with latch := .granted, deadline := some 1, timer := true }).BindingInv :=
    bindingInv_of_one _ (.door 12) rfl rfl (by decide +kernel)
  have lines : (doorAs { DoorSide.unknown with latch := .granted, deadline := some 1, timer := true }).LineInv :=
    lineInv_of_lawful _ (by decide +kernel)
  exact fun _ => ⟨rfl, rfl, ⟨(by decide : 59 < 60), (by decide : 100640 ≤ 16777215), fun _ => (by decide : 100640 < 16777215), nofun⟩,
    bindings, lines, rfl, rfl, rfl⟩

/-- A DEPARTING room whose final scan expires, one whose empty cabinet's window ends, and one of neither, with its wait at its last second
and before; nothing FILLING with an entry queued, and a FILLING descriptor. -/
theorem witness_SecondMovesTheCounts_closes :
    let s (m : Minibar) (wait : Nat) : State := withMinibar (withRoom lively 3 { room12 with label := 7, state := .departing, wait := wait }) 3 m
    let expiring := { minibar710 with state := .scanning, purpose := some .final, requested := 7, scanCount := 1 }
    let empty := { minibar710 with state := .granted, finalMark := true, deadline := some 1, trayCount := 0 }
    (∀ m n, (s m n).ready = true ∧ (s m n).counting = true ∧ (s m n).ClockInv ∧ (s m n).BindingInv ∧ (s m n).LineInv ∧
      (s m n).rooms[3].state = .departing ∧ (s m n).rooms[3].wait = n ∧ (s m n).minibars[3] = m ∧ (s m n).journal.filling = none) ∧
    expiring.scanCount ≤ 1 ∧ expiring.purpose = some .final ∧ empty.finalMark = true ∧ empty.deadline = some 1 ∧ empty.trayCount = 0 ∧
    minibar710.state = .locked ∧ lively.journal.queue ≠ [] ∧
    ({ lively with journal := { lively.journal with filling := some ⟨0, true, 2, 0x1000, 1, 5, 5⟩ } } : State).journal.filling ≠ none :=
  ⟨fun _ _ => ⟨rfl, rfl, witness_SecondMovesTheClock.2.2.1, lively_bindings, lively_lines, rfl, rfl, rfl, rfl⟩, by decide, rfl,
    rfl, rfl, rfl, rfl, by decide, nofun⟩

theorem witness_DoorAndRoomCountsEnd :
    (∃ d, ((doorAs { DoorSide.unknown with latch := .granted, deadline := some 1 }).drop 0 12).door = some d ∧ d.deadline = some 1) ∧
    (∃ d, ((doorAs { DoorSide.unknown with timer := true, heldCount := 59 }).drop 0 12).door = some d ∧ d.timer = true ∧
      d.alarm = false ∧ stay12.site.heldLimit ≤ min (d.heldCount + 1) 65535) ∧
    let s := { withRoom stay12 12 { room12 with state := .departing, wait := 1 } with
      held := [{ heldOrder .checkout [12] with owner := .roomTable 12 }] }
    s.ready = true ∧ s.counting = true ∧ s.rooms[12].state = .departing ∧ s.heldBy (.roomTable 12) = some { heldOrder .checkout [12] with owner := .roomTable 12 } ∧
    s.HasRoom 2 :=
  ⟨⟨_, rfl, rfl⟩, ⟨_, rfl, rfl, rfl, by decide⟩, rfl, rfl, rfl, rfl, rfl, by decide⟩

/-- A window at its last second with the FINAL mark clear and set, and a HOST scan at its last second. -/
theorem witness_MinibarCountsEnd :
    let open_ := { minibar710 with state := .granted, deadline := some 1 }
    let s := withMinibar lively 3
    (s open_).counting = true ∧ (s open_).LineInv ∧ (s { open_ with finalMark := true }).minibars[3].finalMark = true ∧
    (s { minibar710 with state := .scanning, purpose := some .host, scanCount := 1 }).HasRoom 2 ∧
    1 ≤ minibar710.trayCount ∧ minibar710.trayCount ≤ 8 ∧
    ({ s { minibar710 with state := .scanning, purpose := some .host, scanCount := 1 } with
        held := [{ heldOrder .minibarScan [3] with owner := .minibarUnit 3 }] } : State).heldBy (.minibarUnit 3) =
      some { heldOrder .minibarScan [3] with owner := .minibarUnit 3 } :=
  ⟨rfl, lineInv_of_lawful _ (by decide +kernel), rfl, ⟨rfl, by decide⟩, by decide, by decide, rfl⟩

/-- With the stay-start mark set; a HOST scan and the final scan of a DEPARTING room at their last second, their orders held. -/
theorem witness_MinibarCountsEnd_marked :
    let m := { minibar710 with state := .scanning, requested := 7, scanCount := 1, stayMark := true }
    let s (m : Minibar) (h : Held) : State :=
      { withMinibar (withRoom atDoor 3 { room12 with label := 7, state := .departing, wait := 9 }) 3 m with held := [h] }
    let host := s { m with purpose := some .host } { heldOrder .minibarScan [3] with owner := .minibarUnit 3 }
    let final := s { m with purpose := some .final } { heldOrder .checkout [3] with owner := .roomTable 3 }
    host.OwnerInv ∧ host.LineInv ∧ host.heldBy (.minibarUnit 3) = some { heldOrder .minibarScan [3] with owner := .minibarUnit 3 } ∧
    final.OwnerInv ∧ final.LineInv ∧ final.heldBy (.roomTable 3) = some { heldOrder .checkout [3] with owner := .roomTable 3 } ∧
    final.rooms[3].state = .departing ∧ final.HasRoom 4 ∧ final.minibars[3].stayMark = true ∧ atDoor.rooms[3].state ≠ .departing := by
  have noMark : ∀ (l : Fin 2) (m : GoMark), atDoor.lines[l].mark = some m → False := by
    intro l m e; rw [(by decide +kernel : ∀ k : Fin 2, atDoor.lines[k].mark = none) l] at e; cases e
  exact ⟨ownerInv_of_one _ _ rfl nofun rfl rfl fun l m e => (noMark l m e).elim, (lively_lines : atDoor.LineInv), rfl,
    ownerInv_of_one _ _ rfl nofun rfl rfl fun l m e => (noMark l m e).elim, (lively_lines : atDoor.LineInv), rfl, rfl, ⟨rfl, by decide⟩,
    rfl, nofun⟩

/-- Two orders posted in block 1: of a table kind, and of no kind. -/
theorem witness_IntakeTakesPostedOrders :
    let u (kind : Byte) := State.reset.hostWrites [(66, kind), (64, 1)]
    State.reset.powered = true ∧ (u 4).byte 64 = 1 ∧ (u 4).byte 66 = 4 ∧ (u 18).byte 66 = 18 ∧ State.reset.heldIn 1 = none ∧
    ∀ k : Fin 16, k ≠ 1 → (u 4).byte (64 * k.val) ≠ 1 := by
  decide +kernel

/-- Two blocks posted together, 1 with ROOM_SET and 5 of no kind, with the engine free and with it serving block 2. -/
theorem witness_IntakeTakesPostedOrders_several :
    let ws : List HostWrite := [(66, 4), (64, 1), (322, 18), (320, 1)]
    let posted (s : State) := (List.finRange 16).filter fun k => decide ((s.hostWrites ws).byte (64 * k.val) = 1) && (s.heldIn k).isNone
    posted lively = [1, 5] ∧ posted State.reset = [1, 5] ∧ lively.engine = some 2 ∧ State.reset.engine = none ∧
    (State.reset.hostWrites ws).byte 66 = BitVec.ofNat 8 OrderKind.roomSet.code ∧ (State.reset.hostWrites ws).byte 322 = 18 ∧
    State.reset.journal.filling = none ∧ State.reset.journal.queue ≠ [] := by
  decide +kernel

theorem witness_EngineServesByPriority :
    lively.engineChoice = some (heldOrder .roomSet [12, 1, 0, 0]) ∧ lively.HeldInv ∧ State.reset.engineChoice = none ∧
    lively.engine = some 2 ∧ lively.engine ≠ some 3 ∧ lively.LineInv ∧ State.reset.engine = none ∧ (1 : Half).getLsbD 0 = true ∧
    lively.ServesNow 2 .roomSet (heldOrder .roomSet [12, 1, 0, 0]) :=
  ⟨rfl, witness_OrdersKept.1, rfl, rfl, by decide, lively_lines, rfl, by decide, rfl, rfl, rfl, rfl⟩

/-- Code 0; another key with room 12 in its stay; the same keys with it. -/
theorem witness_SiteSetupWritesTheSite :
    (∀ p, (order stay12 .siteSetup p).ServesNow 2 .siteSetup (heldOrder .siteSetup p)) ∧ leAt [0, 0] 0 2 = 0 ∧
    stay12.rooms[12].state = .occupied ∧ stay12.site = site36 ∧
    (leAt [7, 2, 0x38, 0x9E, 0xD2, 4] 2 2 = 40504) ∧ siteOf [7, 2, 0x37, 0x9E, 0xD2, 4, 60, 0, 30, 0, 60, 0] = site36 :=
  ⟨fun _ => order_serves _ _ _ rfl, by decide, rfl, rfl, by decide, by decide⟩

/-- 16,777,215; 910 and 909 at minute 1,000; a crystal fault. -/
theorem witness_SetClockSetsTheClock :
    (∀ p, (order (at_ 1000 5) .setClock p).ServesNow 2 .setClock (heldOrder .setClock p)) ∧ (at_ 1000 5).ClockInv ∧
    leAt [255, 255, 255] 0 3 = 16777215 ∧ leAt [254, 255, 255] 0 3 = 16777214 ∧ leAt [0x8E, 3, 0] 0 3 + 90 = 1000 ∧
    leAt [0x8D, 3, 0] 0 3 + 90 < 1000 ∧ (at_ 1000 5).crystalFault = false ∧
    ({ at_ 1000 5 with crystalFault := true } : State).crystalFault = true :=
  ⟨fun _ => order_serves _ _ _ rfl, ⟨by decide, by decide, by decide, by decide⟩, by decide, by decide, by decide, by decide,
    rfl, rfl⟩

/-- A gate of zone 3 in RUN; zone 7 and 8, minutes 1,439 and 1,440. -/
def atGate : State := asking stay12 (presentDrop (.gate 3)) .poll 2

theorem atGate_laws : atGate.LineInv ∧ atGate.BindingInv :=
  ⟨lineInv_of_lawful _ (by decide +kernel), bindingInv_of_one _ (.gate 3) rfl rfl (by decide +kernel)⟩

theorem witness_ZoneSetWritesTheZone :
    (∀ p, (order atGate .zoneSet p).ServesNow 2 .zoneSet (heldOrder .zoneSet p)) ∧
    (∀ p, (order atGate .zoneSet p).LineInv ∧ (order atGate .zoneSet p).BindingInv) ∧
    leAt [8, 0, 0, 0, 0, 0] 0 1 = 8 ∧ leAt [3, 1, 0x9F, 5, 0x9F, 5] 2 2 = 1439 ∧ leAt [3, 1, 0xA0, 5, 0, 0] 2 2 = 1440 ∧
    (atGate.drop 0 12).binding = some (.gate 3) ∧ (doorOf atGate).latch = .latched ∧ atGate.zones[3].mode ≠ .heldOpen :=
  ⟨fun _ => order_serves _ _ _ rfl, fun _ => atGate_laws, by decide, by decide, by decide, rfl, rfl, by decide⟩

/-- The gate GRANTED, its OPEN waiting. -/
def gateLost : State :=
  (asking stay12 { presentDrop (.gate 3) with
    door := some { DoorSide.unknown with latch := .granted, pending := some { cls := .service, serial := 8, seconds := 5, room := 255 } } }
    .poll 2).setQueue 0 [{ addr := 12, msg := .openLock 5, asker := .doorUnit }]

theorem gateLost_laws : gateLost.LineInv ∧ gateLost.BindingInv ∧ gateLost.HasRoom 2 :=
  ⟨lineInv_of_lawful _ (by decide +kernel), bindingInv_of_one _ (.gate 3) rfl rfl (by decide +kernel), rfl, by decide⟩

theorem witness_ZoneSetWritesTheZone_lost (p : List Byte) :
    let s := order gateLost .zoneSet p
    s.ServesNow 2 .zoneSet (heldOrder .zoneSet p) ∧ s.LineInv ∧ s.BindingInv ∧ s.HasRoom 2 ∧ (doorOf s).pending.isSome = true :=
  ⟨order_serves _ _ _ rfl, gateLost_laws.1, gateLost_laws.2.1, gateLost_laws.2.2, rfl⟩

/-- A gate whose held alarm stands as its zone becomes HELD_OPEN. -/
theorem witness_ZoneSetWritesTheZone_alarm :
    let d := { DoorSide.unknown with leaf := Leaf.opened, bolt := .free, latch := .latched, timer := true, heldCount := 75, alarm := true }
    let s := order (asking stay12 { presentDrop (.gate 3) with door := some d } .poll 2) .zoneSet [3, 1, 0, 0, 0, 0]
    s.ServesNow 2 .zoneSet (heldOrder .zoneSet [3, 1, 0, 0, 0, 0]) ∧ s.LineInv ∧ s.BindingInv ∧ s.HasRoom 2 ∧
    leAt [3, 1, 0, 0, 0, 0] 1 1 = ZoneMode.heldOpen.code ∧ s.zones[3].mode ≠ .heldOpen ∧ (doorOf s).alarm = true ∧
    (doorOf s).latch = .latched :=
  ⟨order_serves _ _ _ rfl, lineInv_of_lawful _ (by decide +kernel), bindingInv_of_one _ (.gate 3) rfl rfl (by decide +kernel),
    ⟨rfl, by decide⟩, rfl, by decide, rfl, rfl⟩

/-- Rooms 47 and 48; each action in the state that takes it and in another; a label held by room 12. -/
theorem witness_RoomSetMovesTheRoom :
    (∀ s p, s.ready = true → (order s .roomSet p).ServesNow 2 .roomSet (heldOrder .roomSet p)) ∧
    leAt [48, 0, 1, 0] 0 1 = 48 ∧ leAt [47, 4] 1 1 = 4 ∧ leAt [47, 0, 214, 0] 2 2 = stay12.rooms[12].label ∧
    stay12.rooms[47].state = .unused ∧ stay12.rooms[12].state ≠ .unused ∧ leAt [47, 0, 0x0F, 0x27] 2 2 = 9999 ∧
    (withRoom stay12 12 { room12 with state := .vacant }).rooms[12].state = .vacant ∧
    (withRoom stay12 12 { room12 with state := .outOfService }).rooms[12].state = .outOfService :=
  ⟨fun _ _ h => order_serves _ _ _ h, by decide, by decide, rfl, rfl, by decide, by decide, rfl, rfl⟩

/-- Rooms 48, 47 (UNUSED) and 12, whose minibar stands in each state. -/
theorem witness_CheckoutEndsTheStay :
    (∀ s p, s.ready = true → (order s .checkout p).ServesNow 2 .checkout (heldOrder .checkout p)) ∧
    (∀ p x, (order (withMinibar atDoor 12 x) .checkout p).LineInv) ∧ leAt [48] 0 1 = 48 ∧ atDoor.rooms[47].state = .unused ∧
    atDoor.rooms[12].state = .occupied ∧ (order atDoor .checkout [12]).heldBy (.roomTable 12) = none ∧
    atDoor.minibars[12].state = .offline ∧ atDoor.HasRoom 3 ∧ minibar710.state = .locked ∧ 1 ≤ minibar710.trayCount :=
  ⟨fun _ _ h => order_serves _ _ _ h, fun _ _ => (lively_lines : atDoor.LineInv), by decide, rfl, rfl, rfl, rfl,
    ⟨rfl, by decide⟩, rfl, by decide⟩

/-- Room 12 with copy 2 revoked: copy 3 of no card, copy 2 again, copies 1 and 2. -/
theorem witness_RevokeGuestStopsCopies :
    (∀ s p, s.ready = true → (order s .revoke p).ServesNow 2 .revoke (heldOrder .revoke p)) ∧ lively.RevInv ∧
    leAt [0, 12, 255, 255, 3] 2 2 = 0xFFFF ∧ leAt [0, 12, 5, 0, 3] 2 2 = lively.rooms[12].generation ∧
    lively.rooms[12].state = .occupied ∧ revokedMask lively.revs 12 = 2 ∧ (4 : Byte) &&& lively.rooms[12].issued = 0 ∧
    (3 : Byte) &&& lively.rooms[12].issued &&& ~~~2 ≠ 0 ∧ lively.rooms[11].state = .unused ∧ lively.revs.length < 64 :=
  ⟨fun _ _ h => order_serves _ _ _ h, lively_revs, by decide, rfl, rfl, by decide, by decide, by decide, rfl, by decide⟩

/-- Serials 0, 77 (listed until 200,000) and 78; untils 16,777,216, 200,000, 200,001 and one reached. -/
theorem witness_RevokeStaffStopsSerials :
    (∀ p, (order lively .revoke p).ServesNow 2 .revoke (heldOrder .revoke p)) ∧ lively.RevInv ∧
    RevEntry.staff 77 200000 ∈ lively.revs ∧ (∀ v, RevEntry.staff 78 v ∉ lively.revs) ∧ lively.clock.minute = 100640 ∧
    (let p : List Byte := [1, 0, 0, 0, 0, 0, 0, 0, 77, 0, 0, 0, 0x41, 0x0D, 3, 0]
     leAt p 8 4 = 77 ∧ leAt p 12 4 = 200001) ∧ leAt [0, 0, 0, 1] 0 4 = 16777216 :=
  ⟨fun _ => order_serves _ _ _ rfl, lively_revs, by decide, by simp [lively], rfl, by decide, by decide⟩

theorem witness_UnrevokeRestores :
    (∀ p, (order lively .unrevoke p).ServesNow 2 .unrevoke (heldOrder .unrevoke p)) ∧ lively.RevInv ∧
    RevEntry.guest 12 5 2 ∈ lively.revs ∧ (∀ g m, RevEntry.guest 11 g m ∉ lively.revs) ∧
    (2 : Byte) &&& 1 = 0 ∧ (2 : Byte) &&& 2 ≠ 0 ∧ RevEntry.staff 77 200000 ∈ lively.revs ∧
    leAt [0, 12, 255, 255, 2] 2 2 = 0xFFFF ∧ leAt [0, 12, 6, 0, 2] 2 2 = 6 ∧ leAt [0, 12, 0, 1, 2] 2 2 = 256 ∧ leAt [2] 0 1 = 2 ∧
    (let both : State := { lively with revs := [.staff 77 200000, .guest 12 5 3] }
     both.RevInv ∧ both.revs[1]? = some (.guest 12 5 3) ∧ (3 : Byte) &&& ~~~2 ≠ 0 ∧ (3 : Byte) &&& 2 ≠ 0) := by
  refine ⟨fun _ => order_serves _ _ _ rfl, lively_revs, by decide, by simp [lively], by decide, by decide, by decide, by decide,
    by decide, by decide, by decide, ⟨by decide, by simp [RevEntry.Differ], ?_⟩, rfl, by decide, by decide⟩
  intro e he
  have : e = .staff 77 200000 ∨ e = .guest 12 5 3 := by simpa using he
  obtain rfl | rfl := this
  · exact ⟨by decide, by decide, by decide⟩
  · exact ⟨rfl, by decide, by decide +kernel, rfl⟩

/-- 3.6: the order of the card and its serial. -/
theorem witness_BuiltCardIsGood :
    let o := { encOrder with generation := some 5 }
    stay12.site.state = .configured ∧ stay12.site.code < 65536 ∧ 305 < 4294967296 ∧ o.validFrom < o.validUntil ∧
    o.validUntil ≤ 16777215 ∧ stay12.clock.state ≠ .notSet ∧ o.validFrom ≤ stay12.clock.minute + stay12.site.earlyGrace ∧
    stay12.clock.minute < o.validUntil ∧ stay12.revs = [] ∧ o.room.isSome = true ∧ o.generation.any (· < 256) = true ∧
    o.copy < 256 := by
  decide +kernel

/-! ### The encoder -/

/-- 6.8, and one ISSUE for each check of R97: mode 4, room 48, count 9, class GUEST in STAFF mode, an until of the past, no site, no serial
left, and nine copies of a room that has given two. -/
theorem witness_EncoderOrdersArePosted :
    let s := at_ 99990 0
    s.CanPost 4 ∧ issue68.length = 40 ∧ s.encoder.running = none ∧ s.encoder.waiting = [] ∧
    (∀ c ∈ [(issue68, none), (issue68.set 0 4, some .badParam), (issue68.set 1 48, some .badParam), (issue68.set 2 9, some .badParam),
        ((issue68.set 0 3).set 3 1, some .badParam), ((issue68.set 0 3).set 3 4, none), (issue68.set 10 0, some Result.badParam)],
      s.issueRefusal c.1 = c.2) ∧
    (∀ c ∈ [(State.reset, issue68, some .notConfigured), ({ s with serial := 0xFFFFFFFF }, issue68, some .serialsExhausted),
        (withRoom s 12 room12, (issue68.set 0 1).set 2 7, some .noCopy), (withRoom s 12 room12, (issue68.set 0 1).set 2 6, none)],
      c.1.issueRefusal c.2.1 = (c.2.2 : Option Result)) ∧
    ({ encoding before68 { encOrder with block := 5 } .sensing .sense .sensing 2 with held := [] } : State).encoder.running.isSome =
      true :=
  ⟨⟨rfl, rfl, rfl, by decide +kernel⟩, by decide, rfl, rfl, by decide +kernel, by decide +kernel, rfl⟩

/-- An exchange of the encoder for the order of 6.8. -/
theorem encoding_meets (s : State) (o : EncOrder) (st : EncState) (msg : EncMsg) (g : Stage) (n : Nat) :
    (encoding s o st msg g n).Encoding { msg := msg, retries := n } g o := ⟨rfl, rfl, rfl, rfl⟩

theorem witness_EncoderSenses :
    let s := encoding before68 encOrder .sensing .sense .sensing 2
    s.Encoding { msg := .sense, retries := 2 } .sensing encOrder ∧ s.encoder.paceDue = false ∧ s.encoder.state = .sensing ∧
    s.encoder.exchange.isSome = true ∧
    ({ s with encoder := { s.encoder with exchange := none } } : State).encoder.running = some encOrder :=
  ⟨encoding_meets _ _ _ _ _ _, rfl, rfl, rfl, rfl⟩

/-- A card is read for each kind of order: 6.8 with a blank card and later in its stay; ADD_COPY with its copy free and given; REWRITE with
the card of 3.6; STAFF; ERASE_CARD without FORCE; READ_CARD. -/
theorem witness_CardArrives :
    let s (o : EncOrder) := encoding before68 o .working .read .reading 2
    let t (o : EncOrder) := encoding stay12 o .working .read .reading 2
    let later := { encOrder with generation := some 5, advanced := true, cardsDone := 1 }
    (∀ o, (s o).Encoding { msg := .read, retries := 2 } .reading o ∧ (t o).Encoding { msg := .read, retries := 2 } .reading o) ∧
    (s encOrder).rooms[12].state = .vacant ∧ encOrder.advanced = false ∧ encOrder.job = .issue .newStay ∧ encOrder.room = some 12 ∧
    ¬(encOrder.validUntil ≤ (s encOrder).clock.minute) ∧ (s encOrder).serial < 0xFFFFFFFF ∧ blankImage.length = 20 ∧
    evaluate site36 (s encOrder).clock [] blankImage ≠ none ∧ (t encOrder).rooms[12].generation = 5 ∧
    later.generation = some (t later).rooms[12].generation ∧ (t later).rooms[12].state = .occupied ∧ 1 ≤ later.cardsDone ∧
    copyIn (t later).rooms[12].issued 3 = false ∧ copyIn (t later).rooms[12].issued 1 = true ∧
    copyIn (t later).rooms[12].issued 2 = true ∧ evaluate site36 stay12.clock [] card36 = none ∧ cardClass card36 = 1 ∧
    cardRoom card36 = 12 ∧ cardGeneration card36 = 5 ∧ cardCopy card36 = 1 ∧
    { encOrder with job := .eraseCard }.force = false ∧ { encOrder with job := .readCard }.job = .readCard ∧
    { encOrder with job := .issue .staff, room := none }.job = .issue .staff :=
  ⟨fun _ => ⟨encoding_meets _ _ _ _ _ _, encoding_meets _ _ _ _ _ _⟩, rfl, rfl, rfl, rfl, by decide, by decide, by decide,
    by decide +kernel, rfl, rfl, rfl, by decide, by decide, by decide, by decide, by decide +kernel, by decide,
    by decide, by decide, by decide, rfl, rfl, rfl⟩

/-- The tests of a card in use: a good STAFF card; the card of 3.6 with its room OCCUPIED, VACANT, of another generation, and with its copy
not issued. -/
theorem witness_CardArrives_in_use :
    let c : List Byte := (card36.take 18).set 2 2
    let staff := c ++ beBytes 2 (checkWord 40503 1234 c)
    staff.length = 20 ∧ evaluate site36 stay12.clock [] staff = none ∧ cardClass staff = 2 ∧
    (∀ x ∈ [({ room12 with state := .vacant } : Room), { room12 with generation := 6 }, { room12 with issued := 2 }],
      ¬((x.state = .occupied ∨ x.state = .overstay) ∧ cardGeneration card36 = x.generation ∧ copyIn x.issued (cardCopy card36) = true)) ∧
    room12.state = .occupied ∧ cardGeneration card36 = room12.generation ∧ copyIn room12.issued (cardCopy card36) = true := by
  decide +kernel

/-- As a card arrives: a NEW_STAY that has advanced and recorded none, its room VACANT or no longer so; the until reached; no serial left; an
ADD_COPY whose copy has been given, with every copy given; a REWRITE whose room has gone on to another stay. -/
theorem witness_CardArrives_turned_away :
    let spoiled := { encOrder with generation := some 4, advanced := true }
    let add := { encOrder with job := .issue .addCopy, copy := 3 }
    let again := { encOrder with job := .issue .rewrite, generation := some 4 }
    before68.roomMeets spoiled ∧ ¬ stay12.roomMeets spoiled ∧ { encOrder with validUntil := 100640 }.validUntil ≤ stay12.clock.minute ∧
    0xFFFFFFFF ≤ ({ before68 with serial := 0xFFFFFFFF } : State).serial ∧ stay12.roomMeets add ∧ ¬ before68.roomMeets add ∧
    (∀ k, 1 ≤ k → k ≤ 8 → copyIn (withRoom stay12 12 { room12 with issued := 255 }).rooms[12].issued k = true) ∧ ¬ stay12.roomMeets again := by
  refine ⟨?_, fun h => ?_, by decide, by decide, ?_, fun h => ?_, ?_, fun h => ?_⟩
  · rintro _ _ ⟨⟩ ⟨⟩; exact fun _ => ⟨rfl, fun _ => rfl, fun h => absurd rfl h⟩
  · exact absurd (h .newStay 12 rfl rfl rfl).1 (by decide)
  · rintro _ _ ⟨⟩ ⟨⟩; exact ⟨.inl rfl, .inl rfl⟩
  · exact absurd (h .addCopy 12 rfl rfl).1 (by decide)
  · intro k h1 h8; interval_cases k <;> rfl
  · exact absurd (h .rewrite 12 rfl rfl).2 (by decide)

/-- The order of 6.8 with its first card written. -/
def writtenOrder : EncOrder :=
  { encOrder with generation := some 5, advanced := true, unfinished := some 305, image := card36 }

/-- Room 12 VACANT, OCCUPIED, in OVERSTAY with the stay ahead and behind, and DEPARTING, when the read-back comes. -/
theorem witness_VerifiedCardIsRecorded :
    (∀ s, (encoding s writtenOrder .working .read (.verifying 1) 2).Encoding { msg := .read, retries := 2 } (.verifying 1) writtenOrder) ∧
    (∀ s, (encoding s writtenOrder .working (.write card36) (.writing 3) 2).Encoding { msg := .write card36, retries := 2 }
      (.writing 3) writtenOrder) ∧
    writtenOrder.generation = some room12.generation ∧ writtenOrder.image.length = 20 ∧ room12.state = .occupied ∧
    stay12.clock.minute < max room12.stayUntil writtenOrder.validUntil + stay12.site.checkoutGrace ∧
    ¬((at_ 104350 0).clock.minute < max room12.stayUntil writtenOrder.validUntil + (at_ 104350 0).site.checkoutGrace) ∧ stay12.HasRoom 2 ∧
    (∀ o msg g, (encoding before68 o .working msg g 2).Encoding { msg := msg, retries := 2 } g o) ∧
    { writtenOrder with job := .issue .staff, room := none }.image.length = 20 ∧ blankImage.length = 20 ∧
    { writtenOrder with job := .eraseCard, found := some card36, image := blankImage }.found.map cardSerial = some 305 ∧
    before68.encoder.waiting = [] ∧ before68.rooms[12].state = .vacant ∧ before68.minibars[12].state = .offline ∧
    (withMinibar before68 12 { minibar710 with state := .opened }).minibars[12].state = .opened :=
  ⟨fun _ => encoding_meets _ _ _ _ _ _, fun _ => encoding_meets _ _ _ _ _ _, rfl, by decide, rfl, by decide, by decide,
    ⟨rfl, by decide⟩, fun _ _ _ => encoding_meets _ _ _ _ _ _, by decide, by decide, by decide, rfl, rfl, rfl, rfl⟩

theorem witness_AttemptsAndSpoils :
    (∀ g msg o, (encoding stay12 o .working msg g 2).Encoding { msg := msg, retries := 2 } g o) ∧
    writtenOrder.noRetry = false ∧ { writtenOrder with spoilCount := 3 }.spoilCount = 3 ∧
    (encoding stay12 writtenOrder .working (.eject true) (.spoilEject 1) 2).encoder.waiting = [] ∧
    { writtenOrder with cardsDone := 3 }.count ≤ { writtenOrder with cardsDone := 3 }.cardsDone ∧
    { writtenOrder with noRetry := true }.noRetry = true ∧ blankImage.length = 20 ∧ blankImage ≠ writtenOrder.image :=
  ⟨fun _ _ _ => encoding_meets _ _ _ _ _ _, rfl, rfl, rfl, by decide, rfl, by decide, by decide⟩

/-- A spoiled erase, and a card whose record was refused, while a READ_CARD waits. -/
theorem witness_AttemptsAndSpoils_ends :
    let erase := { writtenOrder with job := EncJob.eraseCard, room := none, image := blankImage, spoilCount := 1 }
    let waiting := { EncOrder.fresh { heldOrder .readCard [] with block := 7, owner := .encoder } .readCard 60 with intake := 9 }
    let s (o : EncOrder) (g : Stage) : State :=
      let t := encoding stay12 o .working (.eject true) g 2
      { t with encoder := { t.encoder with waiting := [waiting] } }
    (∀ o g, (s o g).Encoding { msg := .eject true, retries := 2 } g o) ∧ erase.job = .eraseCard ∧ erase.room = none ∧
    writtenOrder.job = .issue .newStay ∧
    (erase.block :: (s erase (.spoilEject 1)).encoder.waiting.map EncOrder.block).Nodup ∧
    (writtenOrder.block :: (s writtenOrder (.spoilEject 2)).encoder.waiting.map EncOrder.block).Nodup :=
  ⟨fun _ _ => ⟨rfl, rfl, rfl, rfl⟩, rfl, rfl, rfl, by decide +kernel, by decide +kernel⟩

/-- 6.8, step 2: two cards left, and a READ_CARD of priority 6 waits with a paused STAFF order of priority 1 and a newer one; a spoil instead; the
room in its stay, VACANT, or with every copy of an ADD_COPY given; a paused order alone. -/
theorem witness_CardBoundary :
    let o := { writtenOrder with cardsDone := 1, priority := 2 }
    let w : EncOrder := { EncOrder.fresh (heldOrder .readCard []) .readCard 60 with block := 9, priority := 6 }
    let p : EncOrder := { EncOrder.fresh (heldOrder .issue []) (.issue .staff) 60 with block := 10, priority := 1, paused := true }
    let q : EncOrder := { p with block := 11, paused := false, intake := 0 }
    let full := withRoom stay12 12 { room12 with issued := 255 }
    (∀ s g, (encoding s o .working (.eject false) g 2).Encoding { msg := .eject false, retries := 2 } g o) ∧
    o.cardsDone < o.count ∧ o.spoilCount < 3 ∧ (o.block :: [q, p, w].map EncOrder.block).Nodup ∧ o.cancelMark = false ∧
    ({ o with cancelMark := true } : EncOrder).cancelMark = true ∧ o.priority < w.priority ∧
    (w ∈ [q, p, w] ∧ ∀ v ∈ [q, p, w], v.block ≠ w.block → w.Outranks v) ∧
    (p ∈ [q, p] ∧ ∀ v ∈ [q, p], v.block ≠ p.block → p.Outranks v) ∧
    stay12.roomMeets w ∧ stay12.roomMeets p ∧ stay12.roomMeets o ∧ ¬ before68.roomMeets o ∧
    full.roomMeets { o with job := .issue .addCopy } ∧ ¬ before68.roomMeets { o with job := .issue .addCopy } ∧
    (∀ k, 1 ≤ k → k ≤ 8 → copyIn full.rooms[12].issued k ≠ false) ∧ (∀ v ∈ [q, p], v.priority ≤ o.priority) := by
  refine ⟨fun _ _ => encoding_meets _ _ _ _ _ _, by decide, by decide, by decide, rfl, rfl, by decide, ⟨by simp, ?_⟩, ⟨by simp, ?_⟩,
    nofun, nofun, ?_, fun h => ?_, ?_, fun h => ?_, ?_, by decide⟩
  · intro v hv _; left; revert v; decide
  · intro v hv hne; right
    obtain rfl | rfl : v = _ ∨ v = _ := by simpa using hv
    · exact ⟨rfl, .inl ⟨rfl, rfl⟩⟩
    · exact absurd rfl hne
  · rintro _ _ ⟨⟩ ⟨⟩; exact fun _ => ⟨rfl, nofun, fun _ => .inl rfl⟩
  · exact absurd (h .newStay 12 rfl rfl rfl).1 (by decide)
  · rintro _ _ ⟨⟩ ⟨⟩; exact ⟨.inl rfl, .inr rfl⟩
  · exact absurd (h .addCopy 12 rfl rfl).1 (by decide)
  · intro k h1 h8; interval_cases k <;> decide

theorem witness_EncoderOrderEndsEarly :
    (encoding before68 encOrder .sensing .sense .sensing 0).encoder.exchange = some { msg := .sense, retries := 0 } ∧
    (let run : List LineChar := [plain 0x81, plain 0x50, plain 1, plain 1, plain 0x2D]
     let bytes := run.map LineChar.data
     run.length = 4 + (bytes.getD 2 0).toNat ∧ ([plain 0x81, plain 0x50] : List LineChar).length < 4 ∧
     (∀ c ∈ run, c.parity = decide (((List.range 8).filter fun i => c.data.getLsbD i).length % 2 = 1) ∧ c.stop1 = true ∧
       c.overrun = false) ∧ (bytes.map BitVec.toNat).sum % 256 = 0 ∧ bytes[1]? = some EncReply.cardState.code ∧
     EncMsg.sense.accepts .cardState = true ∧ EncMsg.read.accepts .cardState = false ∧ (bytes.drop 3).take 1 = [1] ∧
     (EncAnswer.cardState 1).bytes.map (soundChar .even) = run) ∧
    (let c := { plain 0x81 with parity := true }
     c.parity ≠ decide (((List.range 8).filter fun i => c.data.getLsbD i).length % 2 = 1)) ∧
    (encoding before68 encOrder .sensing .sense .sensing 2).counting = true ∧
    (encoding before68 { encOrder with waitCount := 1 } .sensing .sense .sensing 2).ready = true ∧
    { encOrder with waitCount := 1 }.waitCount ≤ 1 ∧ before68.encoder.waiting = [] := by
  decide +kernel

/-! ### Minibars -/

/-- The trays of 7.10; seven settings; the minibar OPEN. -/
theorem witness_MinibarSetConfigures :
    (∀ s p, s.ready = true → (order s .minibarSet p).ServesNow 2 .minibarSet (heldOrder .minibarSet p)) ∧
    leAt trays710 0 1 = 3 ∧ leAt (trays710.set 0 48) 0 1 = 48 ∧ leAt trays710 1 1 = 3 ∧ leAt trays710 6 1 = 3 ∧ leAt (trays710.set 6 7) 6 1 = 7 ∧
    leAt trays710 8 2 = 120 ∧ leAt trays710 18 2 = 200 ∧ leAt trays710 22 1 = 2 ∧ minibar710.state = .locked ∧
    ({ minibar710 with state := .opened } : Minibar).state ≠ .locked :=
  ⟨fun _ _ h => order_serves _ _ _ h, rfl, rfl, rfl, rfl, rfl, rfl, rfl, rfl, rfl, nofun⟩

/-- Mode 2; tray 3 of three; ALL and tray 2 in each state; ALL of no trays. -/
theorem witness_MinibarScanStarts :
    (∀ s p, s.ready = true → (order s .minibarScan p).ServesNow 2 .minibarScan (heldOrder .minibarScan p)) ∧
    (∀ p x, (order (withMinibar atDoor 3 x) .minibarScan p).LineInv) ∧ leAt [3, 2, 0] 1 1 = 2 ∧ leAt [48, 0, 0] 0 1 = 48 ∧
    leAt [3, 1, 3] 2 1 = minibar710.trayCount ∧ leAt [3, 1, 2] 2 1 < minibar710.trayCount ∧ minibar710.state = .locked ∧
    ({ minibar710 with trayCount := 0 } : Minibar).trayCount = 0 ∧ (order atDoor .minibarScan [3, 0, 0]).heldBy (.minibarUnit 3) = none :=
  ⟨fun _ _ h => order_serves _ _ _ h, fun _ _ => (lively_lines : atDoor.LineInv), by decide, rfl, by decide, by decide, rfl, rfl, rfl⟩

/-- Room 3's minibar PRESENT at 0:12, polled. -/
def atMinibar (m : Minibar) : State := asking (withMinibar stay12 3 m) (presentDrop (.minibar 3)) .poll 2

theorem atMinibar_lines (m : Minibar) : (atMinibar m).LineInv := lineInv_of_lawful _ (by
  intro l; fin_cases l <;> exact (by decide +kernel : ∀ k : Fin 2, lawful (atMinibar Minibar.cold).lines[k] = true) _)

theorem atMinibar_exchanging (m : Minibar) : (atMinibar m).Exchanging 0 { addr := 12, msg := .poll, retries := 2 } :=
  ⟨rfl, rfl, rfl, rfl⟩

/-- The scans that end with readings of 7.10: for the host, for a departing room, of a restock, and with tray 2 at 4,095. -/
theorem witness_TrayReadings_ends :
    let m := { minibar710 with
      state := .scanning, requested := 7, scanCount := 9
      collected := #v[some 2770, some 2150, none, none, none, none, none, none] }
    let host : State := { atMinibar { m with purpose := some .host } with
      held := [{ heldOrder .minibarScan [3] with owner := .minibarUnit 3 }] }
    let leaving : State := { withRoom (atMinibar { m with purpose := some .final }) 3 { room12 with label := 9, state := .departing, wait := 20 } with
      held := [{ heldOrder .checkout [3] with owner := .roomTable 3 }] }
    (∀ x, (atMinibar x).LineInv) ∧ (∀ x, (atMinibar x).Exchanging 0 { addr := 12, msg := .poll, retries := 2 }) ∧
    host.heldBy (.minibarUnit 3) = some { heldOrder .minibarScan [3] with owner := .minibarUnit 3 } ∧
    host.minibars[3].purpose = some .host ∧ m.finalMark = false ∧ { m with finalMark := true, stayMark := true }.stayMark = true ∧
    leaving.heldBy (.roomTable 3) = some { heldOrder .checkout [3] with owner := .roomTable 3 } ∧
    leaving.rooms[3].state = .departing ∧ leaving.HasRoom 4 ∧ leaving.minibars[3].purpose = some .final ∧
    (atMinibar { m with purpose := some .restock }).minibars[3].purpose = some .restock ∧
    m.requested.getLsbD 2 = true ∧ m.trays[2].fault = false ∧ m.trays[2].baseline ≠ 0 :=
  ⟨atMinibar_lines, atMinibar_exchanging, rfl, rfl, rfl, rfl, rfl, rfl, ⟨rfl, by decide⟩, rfl, rfl, by decide, rfl, by decide⟩

/-- 7.10: two of three readings, then the last. -/
theorem witness_TrayReadings :
    let m := { minibar710 with state := .scanning, purpose := some .afterClose, requested := 7, scanCount := 9 }
    let n := { m with collected := #v[some 2770, some 2150, none, none, none, none, none, none] }
    (atMinibar m).LineInv ∧ (atMinibar m).Exchanging 0 { addr := 12, msg := .poll, retries := 2 } ∧
    ((atMinibar m).drop 0 12).presence = .present ∧ ((atMinibar m).drop 0 12).binding = some (.minibar 3) ∧
    (atMinibar n).minibars[3].state = .scanning ∧ m.requested.getLsbD 2 = true ∧ n.collected[1] = some 2150 ∧
    m.finalMark = false ∧ (2 : Byte).toNat = 2 :=
  ⟨atMinibar_lines _, atMinibar_exchanging _, rfl, rfl, rfl, by decide, rfl, rfl, by decide⟩

/-- A HOST scan with the FINAL and the stay-start mark of a DEPARTING room, both orders held. -/
theorem witness_TrayReadings_both :
    let m := { minibar710 with
      state := .scanning, purpose := some .host, finalMark := true, stayMark := true, requested := 7, scanCount := 9
      collected := #v[some 2770, some 2150, none, none, none, none, none, none] }
    let s : State := { withRoom (atMinibar m) 3 { room12 with label := 9, state := .departing, wait := 20 } with
      held := [{ heldOrder .minibarScan [3] with owner := .minibarUnit 3 }, { heldOrder .checkout [3] with block := 5, owner := .roomTable 3 }] }
    s.LineInv ∧ s.HeldInv ∧ s.rooms[3].state = .departing ∧ s.minibars[3] = m ∧
    s.heldBy (.minibarUnit 3) = some { heldOrder .minibarScan [3] with owner := .minibarUnit 3 } ∧
    s.heldBy (.roomTable 3) = some { heldOrder .checkout [3] with block := 5, owner := .roomTable 3 } ∧ s.HasRoom 4 := by
  refine ⟨atMinibar_lines _, ?_, rfl, rfl, rfl, rfl, rfl, by decide⟩
  simp only [State.HeldInv, List.map_cons, List.map_nil, heldOrder]; decide

/-- The minibar of room 3 at 0:12, polled, with messages waiting. -/
def cabinetWith (m : Minibar) (q : List QMsg) : State := (atMinibar m).setQueue 0 q

/-- An OPEN of the minibar, waiting at 0:12. -/
def openWaiting : QMsg := { addr := 12, msg := .openLock 8, asker := .minibarUnit }

/-- The grant that OPEN carries. -/
def grant3 : Grant := { cls := .guest, serial := 305, seconds := 8, room := 3 }

/-- A DENY of the minibar, waiting there. -/
def denyWaiting : QMsg := { addr := 12, msg := .deny 1, asker := .minibarUnit }

theorem cabinetWith_bindings (m : Minibar) (q : List QMsg) : (cabinetWith m q).BindingInv :=
  bindingInv_of_one _ (.minibar 3) rfl rfl fun l a h => by
    have e : (cabinetWith m q).drop l a = (cabinetWith Minibar.cold []).drop l a := by fin_cases l <;> rfl
    rw [e]
    exact (by decide +kernel : ∀ (l : Fin 2) (a : Fin 64), (l, a) ≠ (0, 12) →
      ((cabinetWith Minibar.cold []).drop l a).binding = none ∧ ((cabinetWith Minibar.cold []).drop l a).door = none) l a h

theorem cabinetWith_lines (m : Minibar) : (cabinetWith m [openWaiting]).LineInv ∧ (cabinetWith m [denyWaiting]).LineInv := by
  constructor <;> apply lineInv_of_lawful <;> intro l <;> fin_cases l
  · exact (by decide +kernel : ∀ k : Fin 2, lawful (cabinetWith Minibar.cold [openWaiting]).lines[k] = true) 0
  · exact (by decide +kernel : ∀ k : Fin 2, lawful (cabinetWith Minibar.cold [openWaiting]).lines[k] = true) 1
  · exact (by decide +kernel : ∀ k : Fin 2, lawful (cabinetWith Minibar.cold [denyWaiting]).lines[k] = true) 0
  · exact (by decide +kernel : ∀ k : Fin 2, lawful (cabinetWith Minibar.cold [denyWaiting]).lines[k] = true) 1

theorem cabinetWith_others (m : Minibar) (q : List QMsg) (k : Fin 48) (hk : k ≠ 3) : (cabinetWith m q).minibars[k].state = .offline := by
  have e : (cabinetWith m q).minibars[k] = stay12.minibars[k] := by
    have : (3 : Nat) ≠ k.val := fun h => hk (Fin.ext h.symm)
    simp [cabinetWith, atMinibar, asking, lineWith, withMinibar, State.setLine, State.setQueue, Vector.getElem_set_ne, this]
  rw [e]; exact (by decide +kernel : ∀ k : Fin 48, stay12.minibars[k].state = .offline) k

theorem cabinetWith_reach (m : Minibar) (q : List QMsg) : (cabinetWith m q).ReachInv :=
  reachInv_of_one _ 3 rfl rfl rfl (cabinetWith_others m q)

/-- A scan of the minibar bound at 0:12 in its last second. -/
theorem witness_MinibarCountsEnd_bound :
    let s := atMinibar { minibar710 with state := .scanning, purpose := some .restock, requested := 7, scanCount := 1 }
    s.ready = true ∧ s.counting = true ∧ s.LineInv ∧ s.minibars[3].state = .scanning ∧ s.minibars[3].scanCount ≤ 1 ∧
    s.minibarDropOf 3 = some (0, 12) :=
  ⟨rfl, rfl, atMinibar_lines _, rfl, by decide, by decide +kernel⟩

/-- The stay of room 3 ends with its minibar GRANTED, the OPEN waiting. -/
theorem witness_CheckoutEndsTheStay_granted :
    let m := { minibar710 with state := .granted, opener := some .guest, pending := some grant3 }
    let s := order (withRoom (cabinetWith m [openWaiting]) 3 { room12 with label := 105 }) .checkout [3]
    s.ServesNow 2 .checkout (heldOrder .checkout [3]) ∧ s.LineInv ∧ s.BindingInv ∧ leAt (heldOrder .checkout [3]).params 0 1 = 3 ∧
    s.rooms[3].state = .occupied ∧ s.minibars[3].state = .granted ∧ s.minibarDropOf 3 = some (0, 12) ∧
    s.heldBy (.roomTable 3) = none :=
  ⟨order_serves _ _ _ rfl, (cabinetWith_lines _).1, cabinetWith_bindings _ _, rfl, rfl, rfl, by decide +kernel, rfl⟩

/-- 7.10: the guest's card at a LOCKED minibar, at one whose limit is reached, at a drop that owes a SCAN_TRAYS, and at one in MISMATCH; a minibar
that scans for the host, and is opened. -/
theorem witness_MinibarsAreOpened :
    let c : List Byte := [0x02, 0x07, 0x01, 0x03, 0x05, 0x01, 0, 0, 0x01, 0x31, 0x01, 0x86, 0xA0, 0x01, 0x97, 0x80, 0x05, 0x01]
    let card := c ++ beBytes 2 (checkWord 40503 1234 c)
    let s := withRoom (atMinibar minibar710) 3 { room12 with label := 105 }
    let full := withRoom (atMinibar { minibar710 with charge := 20000 }) 3 { room12 with label := 105 }
    s.LineInv ∧ s.Exchanging 0 { addr := 12, msg := .poll, retries := 2 } ∧ (s.drop 0 12).binding = some (.minibar 3) ∧
    card.length = 20 ∧ s.minibarDecides 3 card = none ∧ full.minibarDecides 3 card = some .limitReached ∧ s.takesMessage 0 12 ∧
    minibar710.pending = none ∧
    (let owing := s.setOwed 0 12 (some { msg := .scanAll, asker := .minibarUnit })
     owing.refusesMessage 0 12 ∧ owing.LineInv ∧ owing.Exchanging 0 { addr := 12, msg := .poll, retries := 2 }) ∧
    (let other := asking (withMinibar stay12 3 minibar710) { presentDrop (.minibar 3) with presence := .mismatch } .poll 2
     other.LineInv ∧ other.Exchanging 0 { addr := 12, msg := .poll, retries := 2 } ∧ other.takesMessage 0 12 ∧
     (other.drop 0 12).binding = some (.minibar 3) ∧ (other.drop 0 12).presence = .mismatch) ∧
    (let scans : State := { atMinibar { minibar710 with state := .scanning, purpose := some .host, requested := 7 } with
       held := [{ heldOrder .minibarScan [3] with owner := .minibarUnit 3 }] }
     scans.LineInv ∧ scans.minibars[3].state = .scanning ∧
     scans.heldBy (.minibarUnit 3) = some { heldOrder .minibarScan [3] with owner := .minibarUnit 3 } ∧
     (∀ q ∈ scans.lines[0].queue, q.addr ≠ 12) ∧ scans.HasRoom 2) :=
  ⟨atMinibar_lines _, atMinibar_exchanging _, rfl, by decide, by decide +kernel, by decide +kernel, ⟨by decide, rfl, by decide⟩, rfl,
    ⟨.inr (.inl rfl), lineInv_of_owing _ (atMinibar_lines _) rfl _ rfl, rfl, rfl, rfl, rfl⟩,
    ⟨lineInv_of_lawful _ (by decide +kernel), asking_exchanging _ _ _ _, ⟨by decide, rfl, by decide⟩, rfl, rfl⟩,
    atMinibar_lines _, rfl, rfl, by decide, ⟨rfl, by decide⟩⟩

/-- An OPEN, then a DENY, waiting at a LOCKED minibar: each takes the place of the other. An OPEN with its grant pending as the door closes on
an OPEN minibar, and as it opens on a scan. -/
theorem witness_MinibarsAreOpened_replaced :
    let opened := cabinetWith { minibar710 with state := .opened, onClose := some .afterClose, pending := some grant3 } [openWaiting]
    let scans := cabinetWith { minibar710 with state := .scanning, purpose := some .restock, requested := 7, pending := some grant3 } [openWaiting]
    (∀ m, ((cabinetWith m [openWaiting]).LineInv ∧ (cabinetWith m [denyWaiting]).LineInv) ∧ ∀ q, (cabinetWith m q).BindingInv) ∧
    (cabinetWith minibar710 [denyWaiting]).takesMessage 0 12 ∧ (cabinetWith minibar710 [openWaiting]).takesMessage 0 12 ∧
    (∀ m q, (cabinetWith m q).Exchanging 0 { addr := 12, msg := .poll, retries := 2 }) ∧
    opened.minibars[3].state = .opened ∧ opened.HasRoom 1 ∧ scans.minibars[3].state = .scanning ∧ scans.HasRoom 3 ∧
    scans.lines[0].queue = [openWaiting] ∧ scans.minibars[3].pending = some grant3 :=
  ⟨fun _ => ⟨cabinetWith_lines _, cabinetWith_bindings _⟩, ⟨by decide, rfl, .inl ⟨_, List.mem_cons_self, rfl⟩⟩, ⟨by decide, rfl, .inl ⟨_, List.mem_cons_self, rfl⟩⟩,
    fun _ _ => ⟨rfl, rfl, rfl, rfl⟩, rfl, ⟨rfl, by decide⟩, rfl, ⟨rfl, by decide⟩, rfl, rfl⟩

/-! ### Door lines -/

/-- A PRESENT drop that IDENT named a door, unbound. -/
def unboundDoor : State := lineWith State.reset { Drop.cold with presence := .present, reported := some 1 } .run .idle none

theorem reset_unbound (s : State) (h : ∀ (l : Fin 2) (a : Fin 64), (s.drop l a).binding = none ∧ (s.drop l a).door = none) :
    s.BindingInv := by
  refine ⟨fun l => (h l 0).1, fun l k a c b _ h1 _ => ?_, fun l a => ?_⟩
  · rw [(h l a).1] at h1; cases h1
  · rw [(h l a).1, (h l a).2]; simp

theorem unboundDoor_laws : unboundDoor.LineInv ∧ unboundDoor.BindingInv ∧ unboundDoor.ReachInv :=
  ⟨lineInv_of_lawful _ (by decide +kernel), reset_unbound _ (by decide +kernel), reachInv_of_offline _ (by decide +kernel)⟩

theorem atDoor_laws : atDoor.LineInv ∧ atDoor.BindingInv ∧ atDoor.ReachInv :=
  ⟨lively_lines, lively_bindings, reachInv_of_offline _ (by decide +kernel)⟩

/-- Address 0 and 64; a bound address; a PRESENT one bound to its kind and to another; one that is not bound. -/
theorem witness_DropSetBinds :
    (∀ s p, s.ready = true → (order s .dropSet p).ServesNow 2 .dropSet (heldOrder .dropSet p)) ∧
    (∀ p, (order unboundDoor .dropSet p).LineInv ∧ (order unboundDoor .dropSet p).BindingInv ∧ (order unboundDoor .dropSet p).ReachInv) ∧
    (∀ p, (order atDoor .dropSet p).LineInv ∧ (order atDoor .dropSet p).BindingInv ∧ (order atDoor .dropSet p).ReachInv) ∧
    leAt [0, 64] 1 1 = 64 ∧ (unboundDoor.drop 0 12).reported = some (Binding.door 12).kindCode ∧
    (unboundDoor.drop 0 12).reported ≠ some (Binding.gate 3).kindCode ∧ (unboundDoor.drop 0 13).presence = .absent ∧
    (atDoor.drop 0 12).binding.isSome = true ∧ (atDoor.drop 0 12).presence ≠ .mismatch ∧
    (let gate := lineWith State.reset { Drop.cold with presence := .present, reported := some 2 } .run .idle none
     let open_ : State := { gate with zones := gate.zones.set 3 { mode := .heldOpen, openFrom := 0, openTo := 0 } }
     open_.LineInv ∧ open_.BindingInv ∧ open_.ReachInv ∧ (open_.drop 0 12).reported = some (Binding.gate 3).kindCode ∧
     open_.gateHeld (some (.gate 3)) = true) ∧
    (let other := lineWith stay12 { presentDrop (.door 12) with presence := .mismatch } .run .idle none
     other.LineInv ∧ other.BindingInv ∧ other.ReachInv ∧ (other.drop 0 12).presence = .mismatch ∧ leAt [0, 12, 1] 2 1 = 1) :=
  ⟨fun _ _ h => order_serves _ _ _ h,
    fun _ => unboundDoor_laws, fun _ => atDoor_laws, by decide, rfl, by decide, rfl, rfl, by decide,
    ⟨lineInv_of_lawful _ (by decide +kernel), reset_unbound _ (by decide +kernel), reachInv_of_offline _ (by decide +kernel), rfl, rfl⟩,
    lineInv_of_lawful _ (by decide +kernel), bindingInv_of_one _ (.door 12) rfl rfl (by decide +kernel), reachInv_of_offline _ (by decide +kernel),
    rfl, rfl⟩

/-- A minibar with its stay-start mark set and no drop, beside a PRESENT drop that reported its kind. -/
def unboundMinibar : State :=
  lineWith (withMinibar State.reset 3 { Minibar.cold with stayMark := true }) { Drop.cold with presence := .present, reported := some 3 }
    .run .idle none

theorem unboundMinibar_laws : unboundMinibar.LineInv ∧ unboundMinibar.BindingInv ∧ unboundMinibar.ReachInv :=
  ⟨lineInv_of_lawful _ (by decide +kernel), reset_unbound _ (by decide +kernel), reachInv_of_offline _ (by decide +kernel)⟩

/-- A GRANTED minibar with its OPEN waiting, to be unbound; and the one to be bound. -/
theorem witness_DropSetBinds_minibar (p : List Byte) :
    let s := order (cabinetWith { minibar710 with state := .granted, pending := some grant3 } [openWaiting]) .dropSet p
    let free := order unboundMinibar .dropSet p
    s.ServesNow 2 .dropSet (heldOrder .dropSet p) ∧ s.LineInv ∧ s.BindingInv ∧ s.ReachInv ∧ s.minibars[3].state ≠ .offline ∧ s.HasRoom 1 ∧
    (s.lossEntries 3 s.minibars[3] 12).length = 1 ∧ (s.drop 0 12).presence ≠ .mismatch ∧ free.LineInv ∧ free.BindingInv ∧ free.ReachInv ∧
    free.minibars[3].state = .offline :=
  ⟨order_serves _ _ _ rfl, (cabinetWith_lines _).1, cabinetWith_bindings _ _, cabinetWith_reach _ _, nofun, ⟨rfl, (by decide : 1 + 1 ≤ 28)⟩,
    rfl, nofun, unboundMinibar_laws.1, unboundMinibar_laws.2.1, unboundMinibar_laws.2.2, rfl⟩

/-- Rates 299 and 115,200; 201,000, more than 2% off; a table of length 2 given whole. -/
theorem witness_LineSetupWritesTheSetup :
    (∀ s p, s.ready = true → (order s .lineSetup p).ServesNow 2 .lineSetup (heldOrder .lineSetup p)) ∧
    (let p : List Byte := [0, 0, 2, 3, 1, 2, 0, 0xC2, 1, 0, 0, 2, 12, 13]
     leAt p 6 4 = 115200 ∧ leAt p 5 1 = 2 ∧ leAt p 11 1 = 2 ∧ leAt p 13 1 = 13) ∧
    rateTooFar 115200 = false ∧ rateTooFar 201000 = true ∧ leAt [0x2B, 1, 0, 0] 0 4 = 299 ∧
    State.reset.lines[0].state = .off ∧ atDoor.lines[0].state = .run :=
  ⟨fun _ _ h => order_serves _ _ _ h, by decide, by decide, by decide, by decide, rfl, rfl⟩

/-- The queue at 27 with a gap to tell, at 28 and at 31, and at 28 with the gap count at its end. -/
theorem witness_RequestsAreAdmittedOrCounted :
    let s (n gap : Nat) : State := { lively with journal := { lively.journal with queue := List.replicate n Entry.coldStart, gap := gap } }
    (s 15 0).journal.queue.length = 15 ∧ (s 15 0).journal.filling = none ∧ (s 27 1).journal.queue.length = 27 ∧ 0 < (s 27 1).journal.gap ∧ (s 28 0).journal.queue.length = 28 ∧
    (s 31 0).journal.queue.length = 31 ∧ (s 28 0).JournalInv ∧
    ((s 28 65535).takeRequest { kind := .deny }).journal.gap = (s 28 65535).journal.gap ∧
    ((s 28 65535).takeRequest { kind := .deny }).journal.queue.length = 28 := by
  refine ⟨rfl, rfl, rfl, by decide, rfl, rfl, ⟨by decide, by decide, by decide, by decide, ?_⟩, by decide +kernel, by decide +kernel⟩
  intro f hf; cases hf

/-- A descriptor with one place left. -/
def lastPlace : Filling :=
  { index := 0, cutOnAlarm := true, capacity := 2, offset := 0x1000, written := 1, firstSeq := 65535, lastSeq := 65535 }

/-- A part that fills it. -/
def filling : State := { lively with journal := { lively.journal with filling := some lastPlace } }

theorem filling_memory : filling.MemoryInv := by
  refine ⟨by decide +kernel, ?_⟩
  intro f hf
  have : f = lastPlace := by simpa [filling] using hf.symm
  subst this
  exact ⟨by decide, by decide, by decide, by decide⟩

theorem filling_clock : filling.ClockInv := ⟨by decide, by decide, by decide, by decide⟩

theorem witness_JournalWritesTheOldestEntry :
    filling.MemoryInv ∧ filling.ClockInv ∧ filling.journal.filling = some lastPlace ∧ filling.journal.queue = [Entry.coldStart] ∧
    lastPlace.capacity = lastPlace.written + 1 ∧ lively.journal.filling = none ∧
    (let two : State := { filling with journal := { filling.journal with queue := [Entry.coldStart, Entry.coldStart] } }
     two.MemoryInv ∧ two.ClockInv ∧ two.journal.queue.tail ≠ []) :=
  ⟨filling_memory, filling_clock, rfl, rfl, rfl, rfl, filling_memory, filling_clock, nofun⟩

/-- Descriptor 0 with nothing written, its place in shared RAM good, and descriptor 1 ARMED with no room: the cursor stands at 3. -/
def nothingWritten : State :=
  let s : State := { lively with journal := { lively.journal with filling := some { lastPlace with written := 0 } } }
  (s.store 0x400 [2, 1, 2, 0, 0, 0x10]).store 0x410 [1, 0, 0, 0, 0, 0x10]

theorem filling_journal : filling.JournalInv := ⟨by decide, by decide, by decide, by decide, fun _ _ _ => by decide⟩

theorem nothingWritten_journal : nothingWritten.JournalInv := ⟨by decide, by decide, by decide, by decide, fun _ _ _ => by decide⟩

/-- Descriptors 4, 3, 0 and ANY. -/
theorem witness_JournalCutEndsTheDescriptor :
    (∀ s p, s.ready = true → (order s .journalCut p).ServesNow 2 .journalCut (heldOrder .journalCut p)) ∧
    (∀ p, (order filling .journalCut p).ClockInv) ∧ leAt [4] 0 1 = 4 ∧ leAt [3] 0 1 = 3 ∧ leAt [255] 0 1 = 255 ∧
    filling.journal.filling = some lastPlace ∧ lastPlace.written ≠ 0 ∧ lively.journal.filling = none ∧
    (∀ p, (order filling .journalCut p).JournalInv) ∧ (∀ p, (order lively .journalCut p).JournalInv) ∧
    (∀ p, (order nothingWritten .journalCut p).JournalInv ∧ (order nothingWritten .journalCut p).ClockInv) ∧
    nothingWritten.journal.filling = some { lastPlace with written := 0 } ∧ nothingWritten.journal.cursor + 1 = 0 ∧
    nothingWritten.field 0x402 2 = 2 ∧ nothingWritten.field 0x404 2 = 0x1000 ∧ nothingWritten.byte 0x410 = 1 ∧
    nothingWritten.field 0x412 2 = 0 ∧ filling.journal.queue ≠ [] ∧
    ({ filling with journal := { filling.journal with queue := [] } } : State).JournalInv := by
  refine ⟨fun _ _ h => order_serves _ _ _ h, fun _ => filling_clock, by decide, by decide, by decide, rfl,
    by decide, rfl, fun _ => filling_journal, fun _ => witness_MemoryJournalAndClockKept.2.1,
    fun _ => ⟨nothingWritten_journal, filling_clock⟩, rfl, by decide, by decide +kernel, by decide +kernel,
    by decide +kernel, by decide +kernel, by decide, ⟨by decide, by decide, by decide, by decide, ?_⟩⟩
  intro f hf hw
  obtain rfl : lastPlace = f := by simpa [filling] using hf
  cases hw

/-- Block 16; its own block; one with no order; one in the engine's list, at the encoder (waiting and running), and handed on. -/
theorem witness_CancelWithdrawsOrders :
    let s (o : Owner) (e : Encoder) : State := { lively with
      held := [heldOrder .cancel [5], { heldOrder .issue [] with block := 5, priority := 0, owner := o }], encoder := e }
    let waiting : Encoder := { Encoder.cold with waiting := [{ encOrder with block := 5 }] }
    let running : Encoder := { Encoder.cold with running := some { encOrder with block := 5 } }
    (∀ e, (s .engine e).ServesNow 2 .cancel (heldOrder .cancel [5])) ∧ (∀ o e, (s o e).HeldInv) ∧
    (s .encoder waiting).ServesNow 2 .cancel (heldOrder .cancel [5]) ∧ (s (.line 0) running).ServesNow 2 .cancel (heldOrder .cancel [5]) ∧
    (s .encoder running).heldIn 5 = some { heldOrder .issue [] with block := 5, priority := 0, owner := .encoder } ∧
    leAt [16] 0 1 = 16 ∧ leAt [5] 0 1 = 5 ∧ (order lively .cancel [15]).heldIn 15 = none := by
  refine ⟨fun _ => ⟨rfl, rfl, rfl, rfl⟩, fun _ _ => ?_, ⟨rfl, rfl, rfl, rfl⟩, ⟨rfl, rfl, rfl, rfl⟩, rfl, by decide, by decide, rfl⟩
  simp only [State.HeldInv, List.map_cons, List.map_nil, heldOrder]; decide

/-- A part whose line 0 stands in a state, doing something, with the door of room 12. -/
def lineAt (st : LineState) (act : Activity) (mark : Option GoMark) : State := lineWith stay12 (presentDrop (.door 12)) st act mark

/-- Every LINE_GO can be posted in block 4 while line 0 stands so, and the laws hold. -/
theorem lineAt_canPost (st : LineState) (act : Activity) (mark : Option GoMark) : (lineAt st act mark).CanPost 4 :=
  ⟨rfl, rfl, rfl, (by decide +kernel : ∀ k : Fin 16, k ≠ 4 → State.reset.byte (64 * k.val) ≠ 1)⟩

/-- Line 2; target 5; SURVEY and WAKE; a target not taken; OFF in OFF. -/
theorem witness_LineGoIsJudged :
    (lineAt .survey .idle none).CanPost 4 ∧ (lineAt .wake .wakeBreak none).CanPost 4 ∧ (lineAt .off .idle none).CanPost 4 ∧
    (lineAt .run .idle (going .off)).lines[0].mark.isSome = true ∧ leAt [2, 5] 0 1 = 2 ∧ leAt [0, 5] 0 1 = 0 ∧ leAt [0, 5] 1 1 = 5 ∧
    (lineAt .off .idle none).lines[0].state = .off :=
  ⟨lineAt_canPost _ _ _, lineAt_canPost _ _ _, lineAt_canPost _ _ _, rfl, by decide, by decide, by decide, rfl⟩

/-- Line 0 in each state a target is taken in, with an exchange open and with none. -/
theorem witness_LineGoFollowsItsCourse :
    (∀ st ∈ [LineState.off, .ready, .run, .hush, .fault],
      (lineAt st .idle none).CanPost 4 ∧ (lineAt st .idle none).LineInv ∧ (lineAt st .idle none).lines[0].state = st ∧
      (lineAt st .idle none).lines[0].mark = none) ∧
    atDoor.CanPost 4 ∧ atDoor.LineInv ∧ atDoor.lines[0].activity ≠ .idle ∧ (lineAt .ready .idle none).lines[0].returning = none ∧
    (∀ c, ((lineAt .ready .idle none).drop 0 c).owed = none) := by
  refine ⟨?_, lineAt_canPost .run _ none, lively_lines, by decide, rfl, by decide +kernel⟩
  intro st hst
  refine ⟨lineAt_canPost _ _ _, lineInv_of_lawful _ ?_, rfl, rfl⟩
  fin_cases hst <;> decide +kernel

/-- Line 0, about to leave RUN with a GRANTED minibar and its OPEN waiting: with no LINE_GO and nothing open, in the silent window after
QUIET, with a POLL open and a LINE_GO to OFF or to HUSH. -/
def leaving (act : Activity) (mark : Option GoMark) : State :=
  let s := cabinetWith { minibar710 with state := .granted, pending := some grant3 } [openWaiting]
  { s.setLine 0 { s.lines[0] with activity := act, mark := mark } with
    held := mark.toList.map fun m => { heldOrder .lineGo [] with block := m.block, owner := .line 0 } }

theorem leaving_laws (act : Activity) (mark : Option GoMark) : (leaving act mark).BindingInv ∧ (leaving act mark).ReachInv := by
  let s := cabinetWith { minibar710 with state := .granted, pending := some grant3 } [openWaiting]
  have e (l : Fin 2) (a : Fin 64) : (leaving act mark).drop l a = s.drop l a := by fin_cases l <;> rfl
  refine ⟨?_, reachInv_of_one _ 3 rfl rfl rfl (cabinetWith_others _ _ : ∀ k : Fin 48, k ≠ 3 → s.minibars[k].state = .offline)⟩
  unfold State.BindingInv
  simp only [e]
  exact cabinetWith_bindings _ _

/-- Its order is held for the line. -/
theorem leaving_owners (act : Activity) (m : GoMark) : (leaving act (some m)).OwnerInv := by
  refine ownerInv_of_one _ { heldOrder .lineGo [] with block := m.block, owner := .line 0 } rfl nofun rfl rfl fun l n e => ?_
  fin_cases l
  · obtain rfl : m = n := Option.some.inj e
    exact ⟨rfl, rfl⟩
  · cases e

theorem witness_LeavesRun :
    let poll : Activity := .exchange { addr := 12, msg := .poll, retries := 2 }
    (leaving .idle none).CanPost 4 ∧ (∀ c ∈ [(Activity.idle, none), (.quietWindow, going .hush), (poll, going .off), (poll, going .hush), (poll, none)],
      (leaving c.1 c.2).LineInv ∧ (leaving c.1 c.2).BindingInv ∧ (leaving c.1 c.2).ReachInv) ∧
    (∀ act, (leaving act (going .off)).OwnerInv ∧ (leaving act (going .hush)).OwnerInv) ∧ (leaving .idle none).HasRoom 4 ∧
    ((leaving .quietWindow (going .hush)).leavingEntries 0).length = 1 ∧ ((leaving .idle none).minibars[3].state ≠ .offline) := by
  refine ⟨lineAt_canPost .run .idle none, ?_, fun _ => ⟨leaving_owners _ _, leaving_owners _ _⟩, ⟨rfl, by decide⟩, by decide +kernel, nofun⟩
  intro c hc
  refine ⟨lineInv_of_lawful _ ?_, leaving_laws _ _⟩
  have : ∀ c ∈ [(Activity.idle, none), (.quietWindow, going .hush), (.exchange { addr := 12, msg := .poll, retries := 2 }, going .off),
      (.exchange { addr := 12, msg := .poll, retries := 2 }, going .hush), (.exchange { addr := 12, msg := .poll, retries := 2 }, none)],
      ∀ l : Fin 2, lawful (leaving c.1 c.2).lines[l] = true := by decide +kernel
  exact this c hc

/-- After RATE with the probes before and behind, and after QUIET with a HOLD waiting for the gate; the last probe. -/
theorem witness_BroadcastWindowEnds :
    (lineAt .survey (.rateWindow 9600 95 false) (going .survey)).LineInv ∧
    (lineAt .survey (.rateWindow 115200 7 true) (going .surveyRun)).LineInv ∧
    (let s := (lineWith stay12 (presentDrop (.gate 3)) .run .quietWindow (going .hush)).setQueue 0
       [{ addr := 12, msg := .hold, asker := .zoneTable }]
     s.LineInv ∧ s.lines[0].activity = .quietWindow ∧ s.lines[0].mark = going .hush ∧ s.lines[0].queue.length = 1) ∧
    (let last := lineAt .survey (.exchange { addr := 63, msg := .identify, retries := 0 }) (going .survey)
     last.LineInv ∧ last.lines[0].setup.rate = 9600 ∧ (last.drop 0 63).binding = none ∧ (last.drop 0 63).presence = .absent) :=
  ⟨lineInv_of_lawful _ (by decide +kernel), lineInv_of_lawful _ (by decide +kernel),
    ⟨lineInv_of_lawful _ (by decide +kernel), rfl, rfl, rfl⟩, lineInv_of_lawful _ (by decide +kernel), rfl, rfl, rfl⟩

/-- HUSH with breaks of 1 and 99 ms, the wake flag clear and set; the two parts of a wake; the watch. -/
theorem witness_LinesWakeAndLeaveFault :
    (lineAt .hush .idle none).LineInv ∧ (lineAt .hush .idle none).lines[0].setup.wakeFlag = false ∧
    (lineAt .hush .idle none).HasRoom 2 ∧
    (let x := (lineAt .hush .idle none).lines[0]
     ((lineAt .hush .idle none).setLine 0 { x with setup := { x.setup with wakeFlag := true } }).LineInv) ∧
    (lineAt .wake .wakeBreak none).LineInv ∧ (lineAt .wake .wakeSettle (going .run)).LineInv ∧
    (lineAt .fault .watch (going .ready)).LineInv ∧ (1 : Nat) < 100 ∧ (99 : Nat) < 100 :=
  ⟨lineInv_of_lawful _ (by decide +kernel), rfl, ⟨rfl, by decide⟩, lineInv_of_lawful _ (by decide +kernel),
    lineInv_of_lawful _ (by decide +kernel), lineInv_of_lawful _ (by decide +kernel), lineInv_of_lawful _ (by decide +kernel),
    by decide, by decide⟩

/-- A polled door in RUN; HUSH; a LINE_GO to OFF that waits for its exchange; OFF. -/
theorem witness_LongBreakMakesAFault :
    atDoor.LineInv ∧ atDoor.BindingInv ∧ atDoor.ReachInv ∧ (atDoor.drop 0 12).presence = .present ∧
    (lineAt .hush .idle none).LineInv ∧ (lineAt .hush .idle none).BindingInv ∧ (lineAt .hush .idle none).ReachInv ∧
    (lineAt .run (.exchange { addr := 12, msg := .poll, retries := 2 }) (going .off)).LineInv ∧
    (lineAt .off .idle none).LineInv :=
  ⟨lively_lines, lively_bindings, reachInv_of_offline _ (by decide +kernel), rfl, lineInv_of_lawful _ (by decide +kernel),
    bindingInv_of_one _ (.door 12) rfl rfl (by decide +kernel), reachInv_of_offline _ (by decide +kernel),
    lineInv_of_lawful _ (by decide +kernel), lineInv_of_lawful _ (by decide +kernel)⟩

/-- A POLL with a retry and with none, the drop at two misses; an OPEN with its grant pending; a probe. -/
theorem witness_FailedAttemptsAreRepeated :
    let d := presentDrop (.door 12)
    let g : Grant := { cls := .guest, serial := 305, seconds := 5, room := 12 }
    let granted := { d with door := some { DoorSide.unknown with latch := .granted, pending := some g } }
    let m : QMsg := { addr := 12, msg := .openLock 5, asker := .doorUnit }
    (asking stay12 d .poll 2).LineInv ∧ (asking stay12 { d with miss := 2 } .poll 0).LineInv ∧
    (asking stay12 granted (.directed m) 0).LineInv ∧
    (lineWith stay12 d .survey (.exchange { addr := 12, msg := .identify, retries := 0 }) (going .survey)).LineInv ∧
    (asking stay12 d .poll 2).lines[0].mark = none ∧ (([0x8C, 0x40, 0, 0x35] : List Byte).map BitVec.toNat).sum % 256 ≠ 0 ∧
    (asking stay12 d .poll 2).lines[0].setup.parity = .even ∧ (plain 0x8C).parity = true ∧ (plain 0).stop1 = true :=
  ⟨lineInv_of_lawful _ (by decide +kernel), lineInv_of_lawful _ (by decide +kernel), lineInv_of_lawful _ (by decide +kernel),
    lineInv_of_lawful _ (by decide +kernel), rfl, by decide, rfl, by decide, rfl⟩

/-- The IDENTIFY of a returning drop, the OPEN and the LATCH of a minibar, and the probe of a minibar's drop, each with no retry left; the NIL that
`test_badReply_run` spells. -/
theorem witness_FailedAttemptsAreRepeated_more :
    let g : Grant := { cls := .guest, serial := 305, seconds := 5, room := 3 }
    let cabinet (msg : Directed) (m : Minibar) :=
      asking (withMinibar stay12 3 m) (presentDrop (.minibar 3)) (.directed { addr := 12, msg := msg, asker := .minibarUnit }) 0
    let back := (asking stay12 { presentDrop (.door 12) with presence := .silent } .identify 0).setReturning 0 (some { addr := 12, report := none })
    let opens := cabinet (.openLock 8) { minibar710 with state := .granted, pending := some g }
    let latches := cabinet .latch { minibar710 with state := .granted, finalMark := true, latchMark := true }
    let probed := lineWith stay12 (presentDrop (.minibar 3)) .survey (.exchange { addr := 12, msg := .identify, retries := 0 }) (going .survey)
    let x : Exchange := { addr := 12, msg := .poll, retries := 2, received := [plain 0x8C, plain 0x40] }
    let run := x.received ++ [plain 0, plain 0x34, plain 0x99]
    back.LineInv ∧ (back.drop 0 12).presence = .silent ∧ opens.LineInv ∧ opens.minibars[3].pending = some g ∧ opens.minibars[3].deadline = none ∧
    (∀ m ∈ opens.lines[0].queue, m.addr ≠ 12) ∧ latches.LineInv ∧ latches.minibars[3].latchMark = true ∧ probed.LineInv ∧
    (probed.drop 0 12).binding = some (.minibar 3) ∧ probed.minibars[3].state = .offline ∧
    4 + ((run.map LineChar.data).getD 2 0).toNat ≤ run.length ∧ x.received.length < 4 ∧
    (((run.take 4).map LineChar.data).map BitVec.toNat).sum % 256 = 0 ∧ x.msg.accepts .nil = true ∧
    ((x.replyBytes .nil).map (soundChar .even)) = run.take 4 :=
  ⟨lineInv_of_lawful _ (by decide +kernel), rfl, lineInv_of_lawful _ (by decide +kernel), rfl, rfl, nofun,
    lineInv_of_lawful _ (by decide +kernel), rfl, lineInv_of_lawful _ (by decide +kernel), rfl, rfl, by decide, by decide, by decide, rfl,
    by decide +kernel⟩

/-- The OPENs of a door and of a minibar with a newer OPEN waiting, and with an owed mark to place; a minibar within reach at two misses. -/
theorem witness_FailedAttemptsAreRepeated_newer :
    let first : QMsg := { addr := 12, msg := .openLock 5, asker := .doorUnit }
    let g : Grant := { cls := .guest, serial := 305, seconds := 5, room := 12 }
    let d := { presentDrop (.door 12) with door := some { DoorSide.unknown with latch := .granted, pending := some g } }
    let newer := (asking stay12 d (.directed first) 0).setQueue 0 [{ first with msg := .openLock 6 }]
    let owing := (asking stay12 d (.directed first) 0).setOwed 0 12 (some { msg := .hold, asker := .zoneTable })
    let lost := cabinetWith { minibar710 with state := .granted, pending := some grant3 } []
    let silent := { lost.setDrop 0 12 { lost.drop 0 12 with miss := 2 } with held := [{ heldOrder .checkout [9] with owner := .roomTable 9 }] }
    newer.LineInv ∧ newer.lines[0].newerOpen 12 ∧ (newer.drop 0 12).miss < 2 ∧ owing.LineInv ∧ ¬ owing.lines[0].newerOpen 12 ∧
    owing.lines[0].owedMessages.length = 1 ∧ (silent.drop 0 12).miss = 2 ∧ (silent.drop 0 12).presence = .present ∧ silent.LineInv ∧
    silent.minibars[3].state ≠ .offline ∧ silent.OwnerInv ∧ silent.HasRoom 2 ∧ (silent.lossEntries 3 silent.minibars[3] 12).length = 1 := by
  refine ⟨lineInv_of_lawful _ (by decide +kernel), ⟨_, List.mem_cons_self, rfl, rfl⟩, by decide,
    lineInv_of_owing _ (lineInv_of_lawful _ (by decide +kernel)) rfl _ rfl, ?_, by decide +kernel, rfl, rfl,
    lineInv_of_lawful _ (by decide +kernel), nofun,
    ownerInv_of_one _ _ rfl nofun rfl rfl fun l m e => ?_, ⟨rfl, by decide⟩, rfl⟩
  · rintro ⟨q, hq, -⟩; cases hq
  · fin_cases l <;> cases e

/-- A POLL of a PRESENT door and of an ABSENT drop; the door CLOSED and OPEN with its alarm raised. -/
theorem witness_PollRepliesAreTaken :
    atDoor.LineInv ∧ atDoor.Exchanging 0 { addr := 12, msg := .poll, retries := 2 } ∧
    (asking stay12 Drop.cold .poll 2).LineInv ∧ ((asking stay12 Drop.cold .poll 2).drop 0 12).presence = .absent ∧
    (∃ d, atDoor.Polling 0 12 (.door 12) d ∧ d.leaf = .closed) ∧
    (∃ d, (asking stay12 { presentDrop (.door 12) with
        door := some { DoorSide.unknown with leaf := .opened, timer := true, heldCount := 60, alarm := true } } .poll 2).Polling 0 12
      (.door 12) d ∧ d.alarm = true) :=
  ⟨lively_lines, asking_exchanging _ _ _ _, lineInv_of_lawful _ (by decide +kernel), rfl,
    ⟨_, ⟨⟨2, asking_exchanging _ _ _ _⟩, rfl, rfl, rfl⟩, rfl⟩, _, ⟨⟨2, asking_exchanging _ _ _ _⟩, rfl, rfl, rfl⟩, rfl⟩

/-- A returning door, and a probe of it. -/
theorem witness_IdentJudgesThePresence :
    let d := { presentDrop (.door 12) with presence := .silent }
    let back := (asking stay12 d .identify 2).setReturning 0 (some { addr := 12, report := none })
    let probe := lineWith stay12 d .survey (.exchange { addr := 12, msg := .identify, retries := 1 }) (going .survey)
    back.LineInv ∧ back.BindingInv ∧ back.ReachInv ∧ back.lines[0].queue = [] ∧
    back.lines[0].returning = some { addr := 12, report := none } ∧ probe.LineInv ∧ probe.BindingInv ∧ probe.ReachInv ∧
    (12 : Fin 64).val < 63 :=
  ⟨lineInv_of_lawful _ (by decide +kernel), bindingInv_of_one _ (.door 12) rfl rfl (by decide +kernel),
    reachInv_of_offline _ (by decide +kernel), rfl, rfl, lineInv_of_lawful _ (by decide +kernel),
    bindingInv_of_one _ (.door 12) rfl rfl (by decide +kernel), reachInv_of_offline _ (by decide +kernel), by decide⟩

/-- A returning gate of a zone held open, and a returning door with the card of 3.6 held for it. -/
theorem witness_IdentJudgesThePresence_returns :
    let at_ (b : Binding) (report : Option Report) :=
      (asking stay12 { presentDrop b with presence := .silent } .identify 2).setReturning 0 (some { addr := 12, report := report })
    let gate (report : Option Report) : State := { at_ (.gate 3) report with
      zones := stay12.zones.set 3 { mode := .heldOpen, openFrom := 0, openTo := 0 } }
    let door := at_ (.door 12) (some (.cardRead card36))
    (gate none).LineInv ∧ (gate none).BindingInv ∧ (gate none).ReachInv ∧ (gate none).gateHeld (some (.gate 3)) = true ∧
    (gate none).lines[0].queue = [] ∧ (at_ (.gate 3) (some (.doorState 1 0 0))).LineInv ∧
    (at_ (.gate 3) (some (.doorState 1 0 0))).gateHeld (some (.gate 3)) = false ∧
    (gate none).Exchanging 0 { addr := 12, msg := .identify, retries := 2 } ∧ (doorOf (gate none)).leaf ≠ .opened ∧
    door.LineInv ∧ door.BindingInv ∧ door.ReachInv ∧ door.Exchanging 0 { addr := 12, msg := .identify, retries := 2 } ∧
    door.lines[0].returning = some { addr := 12, report := some (.cardRead card36) } ∧ door.HasRoom 2 ∧
    (door.drop 0 12).presence = .silent ∧ (door.drop 0 12).owed = none ∧ door.decides (.door 12) (doorOf door).bolt card36 = none ∧
    cardClass card36 = 1 ∧ (doorOf door).pending = none :=
  ⟨lineInv_of_lawful _ (by decide +kernel), bindingInv_of_one _ (.gate 3) rfl rfl (by decide +kernel),
    reachInv_of_offline _ (by decide +kernel), rfl, rfl, lineInv_of_lawful _ (by decide +kernel), rfl, ⟨rfl, rfl, rfl, rfl⟩, by decide,
    lineInv_of_lawful _ (by decide +kernel), bindingInv_of_one _ (.door 12) rfl rfl (by decide +kernel),
    reachInv_of_offline _ (by decide +kernel), ⟨rfl, rfl, rfl, rfl⟩, rfl, ⟨rfl, by decide⟩, rfl, rfl, by decide +kernel, by decide, rfl⟩

/-- The OPEN of a door, the OPEN of a minibar, a HOLD and the LATCH of a final scan, in exchange. -/
theorem witness_AckDeliversTheMessage :
    let g : Grant := { cls := .guest, serial := 305, seconds := 5, room := 12 }
    let door (msg : Directed) (asker : Asker) := asking stay12
      { presentDrop (.door 12) with door := some { DoorSide.unknown with latch := .granted, pending := some g } }
      (.directed { addr := 12, msg := msg, asker := asker }) 2
    let cabinet := asking (withMinibar stay12 3 { minibar710 with state := .granted, pending := some g }) (presentDrop (.minibar 3))
      (.directed { addr := 12, msg := .openLock 8, asker := .minibarUnit }) 2
    (door (.openLock 5) .doorUnit).LineInv ∧ (door .hold .zoneTable).LineInv ∧ cabinet.LineInv ∧
    (door (.openLock 5) .doorUnit).Exchanging 0
      { addr := 12, msg := .directed { addr := 12, msg := .openLock 5, asker := .doorUnit }, retries := 2 } ∧
    (∀ q ∈ cabinet.lines[0].queue, q.addr ≠ 12) ∧ cabinet.minibars[3].pending = some g ∧
    (let final := asking (withMinibar stay12 3 { minibar710 with state := .granted, finalMark := true, latchMark := true })
       (presentDrop (.minibar 3)) (.directed { addr := 12, msg := .latch, asker := .minibarUnit }) 2
     final.LineInv ∧ final.minibars[3].latchMark = true ∧ final.minibars[3].state = .granted ∧ final.minibars[3].trayCount = 3 ∧
     cabinet.minibars[3].latchMark = false) :=
  ⟨lineInv_of_lawful _ (by decide +kernel), lineInv_of_lawful _ (by decide +kernel), lineInv_of_lawful _ (by decide +kernel),
    asking_exchanging _ _ _ _, by decide, rfl, lineInv_of_lawful _ (by decide +kernel), rfl, rfl, rfl, rfl⟩

/-- A newer OPEN waits as the OPEN of a door, of a minibar, and as the LATCH of a final scan are acknowledged; an owed mark. -/
theorem witness_AckDeliversTheMessage_newer :
    let exchange (m : Minibar) (q : QMsg) (waiting : List QMsg) : State :=
      (asking (withMinibar stay12 3 m) (presentDrop (.minibar 3)) (.directed q) 2).setQueue 0 waiting
    let granted := { minibar710 with state := .granted, pending := some grant3 }
    let final : QMsg := { addr := 12, msg := .latch, asker := .minibarUnit }
    let opens := exchange granted openWaiting [{ openWaiting with msg := .openLock 9 }]
    let latches := exchange { granted with pending := none, finalMark := true, latchMark := true } final [openWaiting]
    let owing := (asking stay12 (presentDrop (.door 12)) (.directed { addr := 12, msg := .hold, asker := .zoneTable }) 2).setOwed 0 12
      (some { msg := .latch, asker := .zoneTable })
    opens.LineInv ∧ opens.lines[0].newerOpen 12 ∧ latches.LineInv ∧ latches.BindingInv ∧ latches.minibars[3].pending = none ∧
    latches.minibars[3].latchMark = true ∧ owing.LineInv ∧ owing.lines[0].owedMessages.length = 1 :=
  ⟨lineInv_of_lawful _ (by decide +kernel), ⟨_, List.mem_cons_self, rfl, rfl⟩, lineInv_of_lawful _ (by decide +kernel),
    bindingInv_of_one _ (.minibar 3) rfl rfl (by decide +kernel), rfl, rfl,
    lineInv_of_owing _ (lineInv_of_lawful _ (by decide +kernel)) rfl _ rfl, by decide +kernel⟩

/-- The card of 3.6 at its door: granted; of an old generation: refused; at a gate that is HELD: granted. A drop that owes a LATCH; an
unbound drop, and one in MISMATCH. -/
theorem witness_ReadsAreDecided :
    let held := asking stay12 { presentDrop (.gate 2) with door := some { DoorSide.unknown with latch := .held } } .poll 2
    let open_ : State := { held with zones := held.zones.set 2 { mode := .heldOpen, openFrom := 0, openTo := 0 } }
    atDoor.LineInv ∧ (∃ d, atDoor.Polling 0 12 (.door 12) d ∧ atDoor.decides (.door 12) d.bolt card36 = none ∧ d.latch ≠ .held ∧
      d.pending = none) ∧ atDoor.takesMessage 0 12 ∧ card36.length = 20 ∧
    (withRoom atDoor 12 { room12 with generation := 6 }).decides (.door 12) .free card36 = some .generationOld ∧
    open_.LineInv ∧ open_.decides (.gate 2) .unknown card36 = none ∧
    (∃ d, open_.Polling 0 12 (.gate 2) d ∧ d.latch = .held) ∧
    (let owing := atDoor.setOwed 0 12 (some { msg := .latch, asker := .zoneTable })
     owing.refusesMessage 0 12 ∧ owing.LineInv ∧ owing.decides (.door 12) .free card36 = none ∧
     ∃ d, owing.Polling 0 12 (.door 12) d ∧ d.latch ≠ .held) ∧
    (let unbound := asking stay12 { Drop.cold with presence := .present, reported := some 1 } .poll 2
     unbound.LineInv ∧ (unbound.drop 0 12).binding = none ∧ unbound.takesMessage 0 12) ∧
    (let other := asking stay12 { presentDrop (.door 12) with presence := .mismatch } .poll 2
     other.LineInv ∧ (other.drop 0 12).presence = .mismatch ∧ (doorOf other).pending = none ∧ other.takesMessage 0 12) := by
  refine ⟨lively_lines, ⟨_, ⟨⟨2, rfl, rfl, rfl, rfl⟩, rfl, rfl, rfl⟩, by decide +kernel, by decide, rfl⟩, ⟨by decide, rfl, by decide⟩,
    by decide, by decide +kernel, lineInv_of_lawful _ (by decide +kernel), by decide +kernel,
    ⟨_, ⟨⟨2, rfl, rfl, rfl, rfl⟩, rfl, rfl, rfl⟩, rfl⟩, ⟨.inr (.inl rfl), lineInv_of_owing _ lively_lines rfl _ rfl, by decide +kernel,
      _, ⟨⟨2, rfl, rfl, rfl, rfl⟩, rfl, rfl, rfl⟩, by decide⟩,
    ⟨lineInv_of_lawful _ (by decide +kernel), rfl, by decide, rfl, by decide⟩, lineInv_of_lawful _ (by decide +kernel), rfl, rfl, by decide,
    rfl, by decide⟩

/-- A DENY and an OPEN waiting for the door polled: each is replaced. -/
theorem witness_ReadsAreDecided_replaced :
    let s (msg : Directed) := atDoor.setQueue 0 [{ addr := 12, msg := msg, asker := .doorUnit }]
    (s (.deny 1)).LineInv ∧ (s (.openLock 5)).LineInv ∧ (s (.deny 1)).takesMessage 0 12 ∧ (s (.openLock 5)).takesMessage 0 12 ∧
    ∃ d, (s (.deny 1)).Polling 0 12 (.door 12) d ∧ d.pending = none :=
  ⟨lineInv_of_lawful _ (by decide +kernel), lineInv_of_lawful _ (by decide +kernel),
    ⟨by decide, rfl, .inl ⟨_, List.mem_cons_self, rfl⟩⟩, ⟨by decide, rfl, .inl ⟨_, List.mem_cons_self, rfl⟩⟩,
    _, ⟨⟨2, rfl, rfl, rfl, rfl⟩, rfl, rfl, rfl⟩, rfl⟩

end Sys2Proof.Tests
end

namespace Sys2Proof.Machine

open Sys2Proof

/-! # Lemmas of the proofs -/

/-! ## Numbers and bytes -/

@[simp] theorem leBytes_length (k n : Nat) : (leBytes k n).length = k := by
  induction k generalizing n with
  | zero => rfl
  | succ k ih => simp [leBytes, ih]

@[simp] theorem byteOf_toNat (n : Nat) : (byteOf n).toNat = n % 256 := by simp [byteOf]

/-- Little-endian bytes hold the number they were made of, as far as they reach. -/
theorem leNat_leBytes (k n : Nat) : leNat (leBytes k n) = n % 256 ^ k := by
  induction k generalizing n with
  | zero => simp [leBytes, leNat, Nat.mod_one]
  | succ k ih =>
    rw [leBytes, leNat, ih, byteOf_toNat, pow_succ, mul_comm (256 ^ k) 256, Nat.mod_mul]

@[simp] theorem bytesAt_length (bs : List Byte) (i n : Nat) : (bytesAt bs i n).length = n := by simp [bytesAt]

@[simp] theorem padTo_length (n : Nat) (bs : List Byte) : (padTo n bs).length = n := bytesAt_length _ _ _

/-- A padded list reads as the list, with 0 past its end. -/
theorem padTo_getD (n : Nat) (bs : List Byte) (i : Nat) (h : i < n) : (padTo n bs).getD i 0 = bs.getD i 0 := by
  simp [padTo, bytesAt, h]

/-- A list of `k` bytes holds a number below `256 ^ k`. -/
theorem leNat_lt (bs : List Byte) : leNat bs < 256 ^ bs.length := by
  induction bs with
  | nil => simp [leNat]
  | cons b bs ih =>
    have hb := b.isLt
    rw [leNat, List.length_cons, pow_succ]
    omega

theorem leAt_lt (bs : List Byte) (i n : Nat) : leAt bs i n < 256 ^ n := by
  simpa [leAt] using leNat_lt (bytesAt bs i n)

/-! ## Bytes of shared RAM that an operation keeps -/

theorem State.KeepsBytes.refl (s : State) (part : Nat → Prop) : s.KeepsBytes s part := fun _ _ => rfl

theorem State.KeepsBytes.trans {s t u : State} {part : Nat → Prop} (h : s.KeepsBytes t part) (h' : t.KeepsBytes u part) :
    s.KeepsBytes u part := fun x hx => (h' x hx).trans (h x hx)

theorem State.KeepsBytes.mono {s t : State} {part part' : Nat → Prop} (h : s.KeepsBytes t part) (sub : ∀ x, part x → part' x) :
    s.KeepsBytes t part' := fun x hx => h x fun hp => hx (sub x hp)

/-- Shared RAM that is not written keeps every byte. -/
theorem State.KeepsBytes.of_ram {s t : State} (h : t.ram = s.ram) (part : Nat → Prop) : s.KeepsBytes t part :=
  fun x _ => congrArg (fun m : Memory => m.read x) h

theorem State.keepsBytes_store (s : State) (a : Nat) (bs : List Byte) :
    s.KeepsBytes (s.store a bs) fun x => a ≤ x ∧ x < a + bs.length := fun x hx => s.byte_store_out a bs x (by omega)

/-- A field of shared RAM reads from its bytes alone. -/
theorem State.field_congr {s t : State} {a n : Nat} (h : ∀ x, a ≤ x → x < a + n → t.byte x = s.byte x) : t.field a n = s.field a n := by
  unfold State.field
  congr 1
  refine List.map_congr_left fun k hk => h _ (by omega) ?_
  have := List.mem_range.1 hk
  omega

/-- A field that a run of bytes has just been written over reads that run's bytes. -/
theorem State.field_store (s : State) (a : Nat) (bs : List Byte) (i n : Nat) (h : i + n ≤ bs.length) :
    (s.store a bs).field (a + i) n = leNat ((bs.drop i).take n) := by
  unfold State.field
  congr 1
  refine List.ext_getElem (by simp; omega) fun k hk hk' => ?_
  simp only [List.length_map, List.length_range] at hk
  simp only [List.getElem_map, List.getElem_range, List.getElem_take, List.getElem_drop]
  rw [s.byte_store_in a bs _ (by omega) (by omega), List.getD_eq_getElem _ _ (by omega)]
  congr 1
  omega

/-- The site mirror has its 64 bytes and a room mirror its 32. -/
@[simp] theorem State.siteMirror_length (s : State) : s.siteMirror.length = 64 := padTo_length _ _

@[simp] theorem State.roomMirror_length (s : State) (r : Fin 48) : (s.roomMirror r).length = 32 := by
  simp [State.roomMirror]

theorem State.keepsBytes_rewriteSite (s : State) : s.KeepsBytes s.rewriteSite ofSiteMirror := by
  refine State.KeepsBytes.mono (State.keepsBytes_store _ 0x440 _) fun x hx => ?_
  simp only [State.siteMirror_length] at hx
  exact hx

theorem State.keepsBytes_rewriteRoom (s : State) (r : Fin 48) : s.KeepsBytes (s.rewriteRoom r) (ofRoomMirror r) := by
  refine State.KeepsBytes.mono (State.keepsBytes_store _ (roomMirrorAddr r) _) fun x hx => ?_
  rw [State.roomMirror_length] at hx
  exact hx

theorem State.keepsBytes_rewriteRoomOf (s : State) (b : Option Binding) :
    s.KeepsBytes (s.rewriteRoomOf b) fun x => ∃ r, b.bind Binding.shownRoom = some r ∧ ofRoomMirror r x := by
  unfold State.rewriteRoomOf
  split
  · exact .refl _ _
  · next r hr => exact (s.keepsBytes_rewriteRoom r).mono fun x hx => ⟨r, hr, hx⟩

theorem State.keepsBytes_rewriteDrop (s : State) (l : Fin 2) (a : Fin 64) :
    s.KeepsBytes (s.rewriteDrop l a) (ofDropMirror l a) := by
  refine (State.keepsBytes_store _ (0xA80 + 64 * l.val + a.val) _).mono fun x hx => ?_
  simp only [List.length_singleton] at hx
  exact (by omega : x = 0xA80 + 64 * l.val + a.val)

theorem State.keepsBytes_complete (s : State) (b : Fin 16) (res : Result) (data : List Byte) :
    s.KeepsBytes (s.complete b res data) (ofResult b) := by
  have h1 := (State.keepsBytes_store s (blockAddr b + 44) (padTo 20 data)).mono (part' := ofResult b) fun x hx =>
    .inr (.inr (by simpa [blockAddr] using hx))
  have h2 := (State.keepsBytes_store (s.store (blockAddr b + 44) (padTo 20 data)) (blockAddr b + 1) [byteOf res.code]).mono
    (part' := ofResult b) fun x hx => .inr (.inl (by simp [blockAddr] at hx; omega))
  have h3 := (State.keepsBytes_store ((s.store (blockAddr b + 44) (padTo 20 data)).store (blockAddr b + 1) [byteOf res.code])
    (blockAddr b) [BlockState.done.code]).mono (part' := ofResult b) fun x hx => .inl (by simp [blockAddr] at hx; omega)
  exact (h1.trans h2).trans h3

theorem State.keepsBytes_searchAt (s : State) (d : Fin 4) : s.KeepsBytes (s.searchAt d) ofDescriptors := by
  have out (t : State) (j : Nat) (bs : List Byte) (hj : j + bs.length ≤ 16) :
      t.KeepsBytes (t.store (descriptorAddr d + j) bs) ofDescriptors :=
    (t.keepsBytes_store _ _).mono fun x hx => by simp only [descriptorAddr] at hx; constructor <;> omega
  unfold State.searchAt
  dsimp only
  split
  · exact .refl _ _
  · split
    · exact .refl _ _
    · split
      · exact out s 0 [_] (by simp)
      · exact ((out s 0 [_] (by simp)).trans (out _ 6 _ (by simp))).trans (out _ 12 _ (by simp))

theorem State.keepsBytes_search (s : State) : s.KeepsBytes s.search ofDescriptors := by
  unfold State.search
  split
  · exact .refl _ _
  · exact (((s.keepsBytes_searchAt _).trans (State.keepsBytes_searchAt _ _)).trans (State.keepsBytes_searchAt _ _)).trans
      (State.keepsBytes_searchAt _ _)

theorem State.keepsBytes_admitOne (s : State) (q : Request) : s.KeepsBytes (s.admitOne q) ofDescriptors := by
  unfold State.admitOne
  dsimp only
  split <;> split <;> exact State.keepsBytes_search _

theorem State.keepsBytes_takeRequest (s : State) (q : Request) : s.KeepsBytes (s.takeRequest q) ofDescriptors := by
  have gap : s.KeepsBytes s.admitGap ofDescriptors := by
    unfold State.admitGap
    dsimp only
    split
    · exact State.keepsBytes_admitOne _ _
    · exact .refl _ _
  unfold State.takeRequest
  dsimp only
  split
  · exact gap.trans (State.keepsBytes_admitOne _ _)
  · exact gap

/-- A request writes descriptors and the site mirror alone. -/
theorem State.keepsBytes_admitRequest (s : State) (q : Request) :
    s.KeepsBytes (s.admitRequest q) fun x => ofDescriptors x ∨ ofSiteMirror x := by
  have h := (s.keepsBytes_takeRequest q).mono (part' := fun x => ofDescriptors x ∨ ofSiteMirror x) fun x => .inl
  unfold State.admitRequest
  dsimp only
  split
  · exact h
  · exact h.trans ((State.keepsBytes_rewriteSite _).mono fun x => .inr)

/-! ## What the site mirror shows -/

/-- A byte of the site mirror after a rewriting. -/
theorem State.byte_rewriteSite (s : State) (i : Nat) (h : i < 64) :
    s.rewriteSite.byte (0x440 + i) = ({ s with siteCount := s.siteCount + 2 } : State).siteMirror.getD i 0 := by
  refine (State.byte_store_in { s with siteCount := s.siteCount + 2 } 0x440 _ (0x440 + i) (by omega) ?_).trans ?_
  · rw [State.siteMirror_length]; omega
  · rw [Nat.add_sub_cancel_left]

/-- After a rewriting the site mirror's count is the one kept beside it. -/
theorem State.rewriteSite_showsCount (s : State) : s.rewriteSite.field 0x440 2 = s.rewriteSite.siteCount.toNat := by
  have h := State.field_store { s with siteCount := s.siteCount + 2 } 0x440
    ({ s with siteCount := s.siteCount + 2 } : State).siteMirror 0 2 (by simp)
  refine h.trans ?_
  have e : (({ s with siteCount := s.siteCount + 2 } : State).siteMirror.drop 0).take 2 = leBytes 2 (s.siteCount + 2).toNat := rfl
  rw [e, leNat_leBytes]
  exact Nat.mod_eq_of_lt (s.siteCount + 2).isLt

/-- After a rewriting the site mirror shows the site state. -/
theorem State.rewriteSite_showsSite (s : State) : s.rewriteSite.byte 0x442 = byteOf s.site.state.code :=
  s.byte_rewriteSite 2 (by omega)

/-- After a rewriting the site mirror shows the clock, whose ranges fit it. -/
theorem State.rewriteSite_showsClock (s : State) (hc : s.ClockInv) : s.rewriteSite.showsClock := by
  obtain ⟨hs, hm, -, -⟩ := hc
  refine ⟨s.byte_rewriteSite 3 (by omega), ?_, ?_⟩
  · have h := State.field_store { s with siteCount := s.siteCount + 2 } 0x440
      ({ s with siteCount := s.siteCount + 2 } : State).siteMirror 4 3 (by simp)
    refine h.trans ?_
    have e : (({ s with siteCount := s.siteCount + 2 } : State).siteMirror.drop 4).take 3 = leBytes 3 s.clock.minute := rfl
    rw [e, leNat_leBytes]
    exact Nat.mod_eq_of_lt (by show s.clock.minute < 16777216; omega)
  · have e : s.rewriteSite.byte 0x447 = byteOf s.clock.second := s.byte_rewriteSite 7 (by omega)
    rw [e, byteOf_toNat]
    exact Nat.mod_eq_of_lt (by show s.clock.second < 256; omega)

end Sys2Proof.Machine

namespace Sys2Proof.Machine

open Sys2Proof

/-! ## The journal's books: what requests make of the queue, the gap count and the sequence counter -/

/-- What R155 to R157 reckon with: the clock that dates an entry, the queue, the gap count, the sequence counter. -/
structure Books where
  clock : Clock
  queue : List Entry
  gap : Nat
  sequence : Nat

/-- The books of a state. -/
def State.books (s : State) : Books :=
  { clock := s.clock, queue := s.journal.queue, gap := s.journal.gap, sequence := s.journal.sequence }

/-- The entry a request is, at a sequence number. -/
def Books.entry (b : Books) (seq : Nat) (q : Request) : Entry :=
  { sequence := seq, minute := b.clock.minute, second := b.clock.second, kind := q.kind, place := q.place
    room := q.room, reason := q.reason, subject := q.subject, value := q.value }

/-- One entry admitted (R155 steps 4 and 5). -/
def Books.enter (b : Books) (q : Request) : Books :=
  { b with queue := b.queue ++ [b.entry b.sequence q], sequence := (b.sequence + 1) % 65536 }

/-- The GAP entry, where one is due (R155 step 1). -/
def Books.tell (b : Books) : Books :=
  if 0 < b.gap ∧ b.queue.length < Config.routineLimit then ({ b with gap := 0 } : Books).enter { kind := .gap, value := b.gap }
  else b

/-- One request (R155 steps 1 to 5). -/
def Books.take (b : Books) (q : Request) : Books :=
  if admissible q.kind b.tell.queue.length then b.tell.enter q else { b.tell with gap := min (b.tell.gap + 1) 65535 }

/-- From `s` to `t` the journal has taken the requests `qs`, in order, at one time of the clock. -/
def State.Logs (s t : State) (qs : List Request) : Prop := t.books = qs.foldl Books.take s.books

theorem State.Logs.nil {s t : State} (h : t.books = s.books) : s.Logs t [] := h

theorem State.Logs.trans {s t u : State} {qs rs : List Request} (h : s.Logs t qs) (h' : t.Logs u rs) : s.Logs u (qs ++ rs) := by
  unfold State.Logs at *
  rw [h', h, List.foldl_append]

/-- Requests then nothing more; nothing, then requests. -/
theorem State.Logs.trans_nil {s t u : State} {qs : List Request} (h : s.Logs t qs) (h' : u.books = t.books) : s.Logs u qs := h'.trans h

theorem State.Logs.nil_trans {s t u : State} {qs : List Request} (h : t.books = s.books) (h' : t.Logs u qs) : s.Logs u qs := by
  unfold State.Logs at *
  rw [h', h]

/-! ### The operations of the Journal Writer -/

theorem State.search_books (s : State) : s.search.books = s.books := by
  obtain ⟨r, c, j, e, hq, hg, hn⟩ := s.search_changes
  rw [e]
  simp only [State.books, hq, hg, hn]

theorem State.admitOne_books (s : State) (q : Request) : (s.admitOne q).books = s.books.enter q := by
  obtain ⟨r, c, j, e, hq, hg, hn⟩ := s.admitOne_changes q
  rw [e]
  simp only [State.books, hq, hg, hn]
  rfl

theorem State.admitGap_books (s : State) : s.admitGap.books = s.books.tell := by
  unfold State.admitGap
  dsimp only
  split
  · next h => rw [State.admitOne_books]; exact (if_pos h).symm
  · next h => exact (if_neg h).symm

theorem State.takeRequest_books (s : State) (q : Request) : (s.takeRequest q).books = s.books.take q := by
  have hg := s.admitGap_books
  have hq : s.admitGap.journal.queue = s.books.tell.queue := congrArg Books.queue hg
  unfold State.takeRequest Books.take
  dsimp only
  rw [hq]
  split
  · rw [State.admitOne_books, hg]
  · rw [← hg]; rfl

/-- The Journal Writer takes a request by the books, and the rewriting of the site mirror leaves them. -/
theorem State.admitRequest_books (s : State) (q : Request) : (s.admitRequest q).books = s.books.take q := by
  unfold State.admitRequest
  dsimp only
  split
  · exact s.takeRequest_books q
  · exact (show _ = (s.takeRequest q).books from rfl).trans (s.takeRequest_books q)

theorem State.logs_admitRequest (s : State) (q : Request) : s.Logs (s.admitRequest q) [q] := s.admitRequest_books q

/-! ### What the books say -/

theorem Books.tell_clock (b : Books) : b.tell.clock = b.clock := by unfold Books.tell; split <;> rfl

theorem Books.take_clock (b : Books) (q : Request) : (b.take q).clock = b.clock := by
  unfold Books.take; split <;> exact b.tell_clock

theorem Books.foldl_clock (b : Books) (qs : List Request) : (qs.foldl Books.take b).clock = b.clock := by
  induction qs generalizing b with
  | nil => rfl
  | cons q qs ih => exact (ih _).trans (b.take_clock q)

theorem Books.tell_queue_prefix (b : Books) : b.queue <+: b.tell.queue := by
  unfold Books.tell; split
  · exact List.prefix_append _ _
  · exact List.prefix_rfl

theorem Books.take_queue_prefix (b : Books) (q : Request) : b.queue <+: (b.take q).queue := by
  unfold Books.take; split
  · exact b.tell_queue_prefix.trans (List.prefix_append _ _)
  · exact b.tell_queue_prefix

theorem Books.foldl_queue_prefix (b : Books) (qs : List Request) : b.queue <+: (qs.foldl Books.take b).queue := by
  induction qs generalizing b with
  | nil => exact List.prefix_rfl
  | cons q qs ih => exact (b.take_queue_prefix q).trans (ih _)

theorem Books.tell_due (b : Books) (h : 0 < b.gap ∧ b.queue.length < 28) :
    b.tell = ({ b with gap := 0 } : Books).enter { kind := .gap, value := b.gap } := if_pos h

theorem Books.tell_not_due (b : Books) (h : ¬(0 < b.gap ∧ b.queue.length < 28)) : b.tell = b := if_neg h

theorem admissible_iff (k : EntryKind) (long : Nat) : admissible k long = true ↔ long < if k.isAlarm then 32 else 28 := by
  unfold admissible
  split <;> exact decide_eq_true_iff

theorem Books.take_admissible (b : Books) (q : Request) (h : b.tell.queue.length < if q.kind.isAlarm then 32 else 28) :
    b.take q = b.tell.enter q := if_pos ((admissible_iff _ _).2 h)

theorem Books.take_inadmissible (b : Books) (q : Request) (h : ¬ b.tell.queue.length < if q.kind.isAlarm then 32 else 28) :
    b.take q = { b.tell with gap := min (b.tell.gap + 1) 65535 } := if_neg fun e => h ((admissible_iff _ _).1 e)

/-- The statements' own words for one request (`queueAfter`, `gapAfter`) are the books'. -/
theorem State.after_eq (s : State) (q : Request) :
    s.queueAfter q = (s.books.take q).queue ∧ s.gapAfter q = (s.books.take q).gap := by
  unfold State.queueAfter State.gapAfter
  dsimp only
  generalize hlim : (if q.kind.isAlarm then 32 else 28 : Nat) = limit
  by_cases due : 0 < s.journal.gap ∧ s.journal.queue.length < 28
  · have ht := s.books.tell_due due
    have hl : s.books.tell.queue.length = s.journal.queue.length + 1 := by rw [ht]; simp [Books.enter, State.books]
    rw [if_pos due, if_pos due]
    by_cases room : s.journal.queue.length + 1 < limit
    · rw [if_pos room, if_pos room, s.books.take_admissible q (by rw [hl, hlim]; exact room), ht]
      simp [Books.enter, State.books, Books.entry, State.entryWith]
    · rw [if_neg room, if_neg room, s.books.take_inadmissible q (by rw [hl, hlim]; exact room), ht]
      simp [Books.enter, State.books, Books.entry, State.entryWith]
  · have ht := s.books.tell_not_due due
    rw [if_neg due, if_neg due]
    by_cases room : s.journal.queue.length < limit
    · rw [if_pos room, if_pos room, s.books.take_admissible q (by rw [ht, hlim]; exact room), ht]
      exact ⟨rfl, rfl⟩
    · rw [if_neg room, if_neg room, s.books.take_inadmissible q (by rw [ht, hlim]; exact room), ht]
      exact ⟨rfl, rfl⟩

theorem State.Logs.asks {s t : State} {q : Request} (h : s.Logs t [q]) : s.Asks t q := by
  have e : t.books = s.books.take q := h
  exact ⟨(congrArg Books.queue e).trans (s.after_eq q).1.symm, (congrArg Books.gap e).trans (s.after_eq q).2.symm⟩

theorem State.Logs.clock {s t : State} {qs : List Request} (h : s.Logs t qs) : t.clock = s.clock :=
  (congrArg Books.clock h).trans (Books.foldl_clock _ _)

theorem State.Logs.queue_prefix {s t : State} {qs : List Request} (h : s.Logs t qs) : s.journal.queue <+: t.journal.queue :=
  (s.books.foldl_queue_prefix qs).trans (congrArg Books.queue h ▸ List.prefix_rfl)

/-- The first of several requests has its place in the queue whatever follows it. -/
theorem State.Logs.queueAfter_prefix {s t : State} {q : Request} {qs : List Request} (h : s.Logs t (q :: qs)) :
    s.queueAfter q <+: t.journal.queue := by
  rw [(s.after_eq q).1]
  exact ((s.books.take q).foldl_queue_prefix qs).trans (congrArg Books.queue h ▸ List.prefix_rfl)

/-- With no gap to tell and the queue below 28, a request is admitted as it comes. -/
theorem Books.take_of_room (b : Books) (q : Request) (hg : b.gap = 0) (hl : b.queue.length < 28) : b.take q = b.enter q := by
  have ht := b.tell_not_due (by omega)
  rw [b.take_admissible q (by rw [ht]; split <;> omega), ht]

/-- With room for them all, requests become entries in their order. -/
theorem State.queue_foldl_of_room (s : State) (b : Books) (qs : List Request) (hc : b.clock = s.clock) (hg : b.gap = 0)
    (hl : b.queue.length + qs.length ≤ 28) : (qs.foldl Books.take b).queue = b.queue ++ s.entriesFrom b.sequence qs := by
  induction qs generalizing b with
  | nil => simp [State.entriesFrom]
  | cons q qs ih =>
    simp only [List.length_cons] at hl
    have e : b.entry b.sequence q = s.entryWith b.sequence q := by simp [Books.entry, State.entryWith, hc]
    rw [List.foldl_cons, b.take_of_room q hg (by omega), ih (b.enter q) hc hg (by simp only [Books.enter, List.length_append, List.length_singleton]; omega)]
    simp [Books.enter, State.entriesFrom, e]

theorem State.Logs.admits {s t : State} {qs : List Request} (h : s.Logs t qs) (room : s.HasRoom qs.length) : s.Admits t qs :=
  (congrArg Books.queue h).trans (s.queue_foldl_of_room s.books qs rfl room.1 room.2)

/-- The first of the requests stand in the queue, with room for them, whatever follows. -/
theorem State.Logs.admits_prefix {s t : State} {qs rs : List Request} (h : s.Logs t (qs ++ rs)) (room : s.HasRoom qs.length) :
    s.journal.queue ++ s.entriesFrom s.journal.sequence qs <+: t.journal.queue := by
  have e : t.books = rs.foldl Books.take (qs.foldl Books.take s.books) := by rw [← List.foldl_append]; exact h
  have hq := s.queue_foldl_of_room s.books qs rfl room.1 room.2
  have := (qs.foldl Books.take s.books).foldl_queue_prefix rs
  rw [hq] at this
  exact this.trans (congrArg Books.queue e ▸ List.prefix_rfl)

end Sys2Proof.Machine

namespace Sys2Proof.Machine

open Sys2Proof

/-! ## The records under the journal, the mirrors and the completion of orders -/

@[simp] theorem State.store_records (s : State) (a : Nat) (bs : List Byte) : (s.store a bs).records = s.records := rfl
@[simp] theorem State.setCause_records (s : State) (c : Half) : (s.setCause c).records = s.records := rfl
@[simp] theorem State.rewriteSite_records (s : State) : s.rewriteSite.records = s.records := rfl
@[simp] theorem State.rewriteRoom_records (s : State) (r : Fin 48) : (s.rewriteRoom r).records = s.records := rfl
@[simp] theorem State.rewriteDrop_records (s : State) (l : Fin 2) (a : Fin 64) : (s.rewriteDrop l a).records = s.records := rfl
@[simp] theorem State.complete_records (s : State) (b : Fin 16) (res : Result) (data : List Byte) :
    (s.complete b res data).records = s.records := rfl
@[simp] theorem State.chooseOrder_records (s : State) : s.chooseOrder.records = s.records := rfl

@[simp] theorem State.rewriteRoomOf_records (s : State) (b : Option Binding) : (s.rewriteRoomOf b).records = s.records := by
  obtain ⟨r, k, e⟩ := s.rewriteRoomOf_changes b
  rw [e]; rfl

@[simp] theorem State.search_records (s : State) : s.search.records = s.records := by
  obtain ⟨r, c, j, e, -⟩ := s.search_changes
  rw [e]; rfl

@[simp] theorem State.admitRequest_records (s : State) (q : Request) : (s.admitRequest q).records = s.records := by
  obtain ⟨r, c, n, j, e⟩ := s.admitRequest_changes q
  rw [e]; rfl

@[simp] theorem State.completeFor_records (s : State) (o : Owner) (res : Result) (data : List Byte) :
    (s.completeFor o res data).records = s.records := by
  obtain ⟨r, h, c, e⟩ := s.completeFor_changes o res data
  rw [e]; rfl

@[simp] theorem State.putRoom_records (s : State) (r : Fin 48) (x : Room) :
    (s.putRoom r x).records = ({ s with rooms := s.rooms.set r x } : State).records := by
  obtain ⟨m, k, e⟩ := s.putRoom_changes r x
  rw [e]; rfl

@[simp] theorem State.putMinibar_records (s : State) (r : Fin 48) (x : Minibar) :
    (s.putMinibar r x).records = ({ s with minibars := s.minibars.set r x } : State).records := by
  obtain ⟨m, k, e⟩ := s.putMinibar_changes r x
  rw [e]; rfl

@[simp] theorem State.putDoor_records (s : State) (l : Fin 2) (a : Fin 64) (x : Option DoorSide) :
    (s.putDoor l a x).records = (s.setDrop l a { s.drop l a with door := x }).records := by
  obtain ⟨m, k, e⟩ := s.putDoor_changes l a x
  rw [e]; rfl

@[simp] theorem State.putSite_records (s : State) (x : Site) :
    (s.putSite x).records = ({ s with site := x } : State).records := by
  unfold State.putSite
  dsimp only
  split <;> rfl

@[simp] theorem State.putClock_records (s : State) (c : Clock) :
    (s.putClock c).records = ({ s with clock := c } : State).records := rfl

section
variable {s t : State} (h : t.records = s.records)
include h

/-- Equal records are equal field by field. -/
theorem State.records_pending : t.pending = s.pending := (congrArg State.pending h :)
theorem State.records_ready : t.ready = s.ready := (congrArg State.ready h :)
theorem State.records_site : t.site = s.site := (congrArg State.site h :)
theorem State.records_clock : t.clock = s.clock := (congrArg State.clock h :)
theorem State.records_zones : t.zones = s.zones := (congrArg State.zones h :)
theorem State.records_rooms : t.rooms = s.rooms := (congrArg State.rooms h :)
theorem State.records_revs : t.revs = s.revs := (congrArg State.revs h :)
theorem State.records_minibars : t.minibars = s.minibars := (congrArg State.minibars h :)
theorem State.records_lines : t.lines = s.lines := (congrArg State.lines h :)
theorem State.records_encoder : t.encoder = s.encoder := (congrArg State.encoder h :)
theorem State.records_drop (l : Fin 2) (a : Fin 64) : t.drop l a = s.drop l a :=
  congrArg (fun x : Vector Line 2 => x[l].drops[a]) (State.records_lines h)
theorem State.records_beyondLines (he : t.engine = s.engine) : t.beyondLines = s.beyondLines := by
  have e : ({ t.records with engine := t.engine } : State).beyondLines = ({ s.records with engine := s.engine } : State).beyondLines := by
    rw [h, he]
  exact e
end

/-- A record replaced by another in a state whose records are known. -/
theorem State.records_setRooms {s t : State} (h : t.records = s.records) (x : Vector Room 48) :
    ({ t with rooms := x } : State).records = ({ s with rooms := x } : State).records :=
  congrArg (fun u : State => ({ u with rooms := x } : State)) h

theorem State.records_setMinibars {s t : State} (h : t.records = s.records) (x : Vector Minibar 48) :
    ({ t with minibars := x } : State).records = ({ s with minibars := x } : State).records :=
  congrArg (fun u : State => ({ u with minibars := x } : State)) h

theorem State.records_setLines {s t : State} (h : t.records = s.records) (x : Vector Line 2) :
    ({ t with lines := x } : State).records = ({ s with lines := x } : State).records :=
  congrArg (fun u : State => ({ u with lines := x } : State)) h

theorem State.records_setRevs {s t : State} (h : t.records = s.records) (x : List RevEntry) :
    ({ t with revs := x } : State).records = ({ s with revs := x } : State).records :=
  congrArg (fun u : State => ({ u with revs := x } : State)) h

/-! ## Causes -/

/-- No cause has been set from `s` to `t` but, perhaps, JOURNAL (R160, R165). -/
def State.MaySetJournal (s t : State) : Prop := t.cause = s.cause ∨ t.cause = s.cause ||| causeJournal

theorem State.MaySetJournal.refl (s : State) : s.MaySetJournal s := .inl rfl

theorem State.MaySetJournal.trans {s t u : State} (h : s.MaySetJournal t) (h' : t.MaySetJournal u) : s.MaySetJournal u := by
  unfold State.MaySetJournal at *
  obtain e | e := h <;> obtain e' | e' := h' <;> rw [e', e]
  · exact .inl rfl
  · exact .inr rfl
  · exact .inr rfl
  · exact .inr (by rw [BitVec.or_assoc, BitVec.or_self])

theorem State.maySetJournal_searchAt (s : State) (d : Fin 4) : s.MaySetJournal (s.searchAt d) := by
  unfold State.searchAt
  dsimp only
  split
  · exact .inl rfl
  · split
    · exact .inl rfl
    · split
      · exact .inr rfl
      · exact .inl rfl

theorem State.maySetJournal_search (s : State) : s.MaySetJournal s.search := by
  unfold State.search
  split
  · exact .inl rfl
  · exact (((s.maySetJournal_searchAt _).trans (State.maySetJournal_searchAt _ _)).trans (State.maySetJournal_searchAt _ _)).trans
      (State.maySetJournal_searchAt _ _)

theorem State.maySetJournal_admitOne (s : State) (q : Request) (h : q.kind.isAlarm = false) : s.MaySetJournal (s.admitOne q) := by
  have search (j : Journal) : s.MaySetJournal (State.search { s with journal := j }) :=
    State.maySetJournal_search { s with journal := j }
  unfold State.admitOne
  dsimp only
  simp only [h, Bool.false_eq_true, if_false]
  split
  · exact (search _).trans (.inr rfl)
  · exact search _

/-- A ROUTINE request sets no cause but, perhaps, JOURNAL. -/
theorem State.maySetJournal_admitRequest (s : State) (q : Request) (h : q.kind.isAlarm = false) :
    s.MaySetJournal (s.admitRequest q) := by
  have gap : s.MaySetJournal s.admitGap := by
    unfold State.admitGap
    dsimp only
    split
    · exact State.maySetJournal_admitOne { s with journal := { s.journal with gap := 0 } } { kind := .gap, value := s.journal.gap } rfl
    · exact .inl rfl
  have take : s.MaySetJournal (s.takeRequest q) := by
    unfold State.takeRequest
    dsimp only
    split
    · exact gap.trans (State.maySetJournal_admitOne _ _ h)
    · exact gap
  unfold State.admitRequest
  dsimp only
  split <;> exact take

/-- A further cause set after that. -/
theorem State.MaySetJournal.causesAfter {s t u : State} {c : Half} (h : s.MaySetJournal t) (hu : u.cause = t.cause ||| c) :
    s.CausesAfter u c := by
  obtain e | e := h
  · exact .inl (by rw [hu, e])
  · exact .inr (by rw [hu, e, BitVec.or_assoc, BitVec.or_assoc, BitVec.or_comm c])

/-! ## An order that completes -/

theorem heldIn_filter_ne (held : List Held) (b : Fin 16) :
    ((held.filter fun h => decide (h.block ≠ b)).find? fun h => decide (h.block = b)) = none := by
  simp

/-- The order has ended: DONE, its result, not held, ORDER_DONE set (R172). -/
theorem State.complete_ended (s : State) (b : Fin 16) (res : Result) (data : List Byte) : (s.complete b res data).Ended b res := by
  refine ⟨?_, ?_, heldIn_filter_ne _ _, ?_⟩
  · refine (State.byte_store_in _ (blockAddr b) [BlockState.done.code] (64 * b.val) le_rfl (by simp [blockAddr])).trans ?_
    simp [blockAddr, BlockState.code]
  · refine (State.byte_store_out _ (blockAddr b) [BlockState.done.code] (64 * b.val + 1) (by simp [blockAddr])).trans ?_
    refine (State.byte_store_in _ (blockAddr b + 1) [byteOf res.code] (64 * b.val + 1) le_rfl (by simp [blockAddr])).trans ?_
    simp [blockAddr]
  · simp [causeOrderDone]

/-- A field of the result data that lies within the data handed over (R172, R180). -/
theorem State.complete_resultAt (s : State) (b : Fin 16) (res : Result) (data : List Byte) (i n : Nat) (h : i + n ≤ data.length)
    (h20 : i + n ≤ 20) : (s.complete b res data).resultAt b i n = leNat ((data.drop i).take n) := by
  have keeps : (s.complete b res data).resultAt b i n = (s.store (blockAddr b + 44) (padTo 20 data)).field (blockAddr b + 44 + i) n := by
    refine State.field_congr fun x hx hx' => ?_
    refine (State.byte_store_out _ (blockAddr b) _ x (.inr (by simp [blockAddr]; omega))).trans ?_
    exact State.byte_store_out _ (blockAddr b + 1) _ x (.inr (by simp [blockAddr]; omega))
  rw [keeps, State.field_store _ _ _ _ _ (by simpa using h20)]
  congr 1
  refine List.ext_getElem (by simp; omega) fun k hk hk' => ?_
  simp only [List.length_take, List.length_drop, padTo_length] at hk
  simp only [List.getElem_take, List.getElem_drop]
  have := padTo_getD 20 data (i + k) (by omega)
  rwa [List.getD_eq_getElem _ _ (by simp; omega), List.getD_eq_getElem _ _ (by omega)] at this

/-- The served order is in its block. -/
theorem State.ServesNow.block {s : State} {b : Fin 16} {k : OrderKind} {h : Held} (e : s.ServesNow b k h) : h.block = b :=
  (s.heldIn_some b h e.2.2.1).2

/-- The table engine serves the order it has taken (R171). -/
theorem State.ServesNow.serve {s : State} {b : Fin 16} {k : OrderKind} {h : Held} (e : s.ServesNow b k h)
    (body : Held → State → State) (goOn : State → State) : s.serve b k body goOn = goOn (body h s).chooseOrder := by
  obtain ⟨ready, engine, held, kind⟩ := e
  simp [State.serve, ready, engine, held, kind]

/-- An order that completes at once, with nothing else done, is refused. -/
theorem State.refuses_complete (s : State) (b : Fin 16) (res : Result) (data : List Byte) :
    s.Refuses (s.complete b res data).chooseOrder b res :=
  ⟨s.complete_ended b res data, s.keepsBytes_complete b res data, rfl, rfl⟩

/-- The engine's next choice leaves an order that has ended. -/
theorem State.Ended.chooseOrder {t : State} {b : Fin 16} {res : Result} (h : t.Ended b res) : t.chooseOrder.Ended b res := h

@[simp] theorem State.chooseOrder_byte (s : State) (x : Nat) : s.chooseOrder.byte x = s.byte x := rfl
@[simp] theorem State.chooseOrder_resultAt (s : State) (b : Fin 16) (i n : Nat) : s.chooseOrder.resultAt b i n = s.resultAt b i n := rfl
theorem State.KeepsBytes.chooseOrder {s t : State} {part : Nat → Prop} (h : s.KeepsBytes t part) : s.KeepsBytes t.chooseOrder part := h

/-- An order that completes after work that has ended no other and set no cause but JOURNAL. -/
theorem State.completes_complete {s u : State} (b : Fin 16) (res : Result) (data : List Byte) (held : u.held = s.held)
    (cause : s.MaySetJournal u) : s.Completes (u.complete b res data).chooseOrder b res :=
  ⟨(u.complete_ended b res data).chooseOrder, by rw [State.chooseOrder_held, State.complete_held, held],
    cause.causesAfter (u.complete_cause b res data)⟩

end Sys2Proof.Machine

namespace Sys2Proof.Machine

open Sys2Proof

/-! ## SITE_SETUP (R2, R3) -/

theorem clampTo_eq (low high n : Nat) (h : low ≤ high) : clampTo low high n = max low (min n high) := by
  unfold clampTo
  split_ifs <;> omega

theorem Site.inRange_iff (p : List Byte) : (siteOf p).inRange = true ↔
    1 ≤ leAt p 0 2 ∧ leAt p 0 2 ≤ 65534 ∧ 1 ≤ leAt p 2 2 ∧ leAt p 2 2 ≤ 65520 ∧ leAt p 4 2 ≤ 65520 := decide_eq_true_iff

theorem Site.rekeys_iff (p : List Byte) (x : Site) : (siteOf p).rekeys x = true ↔
    leAt p 0 2 ≠ x.code ∨ leAt p 2 2 ≠ x.keyM ∨ leAt p 4 2 ≠ x.keyN := decide_eq_true_iff

theorem RoomState.inHouse_iff (x : RoomState) : x.inHouse = true ↔ x = .occupied ∨ x = .overstay ∨ x = .departing := by
  cases x <;> simp [RoomState.inHouse]

theorem State.anyInHouse_iff (s : State) : (s.rooms.toList.any fun r => r.state.inHouse) = true ↔
    ∃ r : Fin 48, s.rooms[r].state = .occupied ∨ s.rooms[r].state = .overstay ∨ s.rooms[r].state = .departing := by
  rw [List.any_eq_true]
  constructor
  · rintro ⟨x, hx, h⟩
    obtain ⟨i, hi, rfl⟩ := List.mem_iff_getElem.1 hx
    exact ⟨⟨i, by simpa using hi⟩, (RoomState.inHouse_iff _).1 (by simpa using h)⟩
  · rintro ⟨r, h⟩
    exact ⟨s.rooms[r], by simp, (RoomState.inHouse_iff _).2 h⟩

/-- What SITE_SETUP does in each of its cases (R2, R3). -/
theorem State.siteSetup_bad (s : State) (h : Held) (hr : (siteOf h.params).inRange = false) :
    s.siteSetup h = s.complete h.block .badParam [] := by
  simp [State.siteSetup, hr]

theorem State.siteSetup_occupied (s : State) (h : Held) (hr : (siteOf h.params).inRange = true)
    (hk : (siteOf h.params).rekeys s.site = true) (ho : (s.rooms.toList.any fun r => r.state.inHouse) = true) :
    s.siteSetup h = s.complete h.block .roomsOccupied [] := by
  simp only [State.siteSetup, hr, hk, ho, and_self, Bool.not_true, Bool.false_eq_true, if_false, if_true]

theorem State.siteSetup_taken (s : State) (h : Held) (hr : (siteOf h.params).inRange = true)
    (hk : ¬((siteOf h.params).rekeys s.site = true ∧ (s.rooms.toList.any fun r => r.state.inHouse) = true)) :
    s.siteSetup h = ((s.putSite (siteOf h.params)).admitRequest
      { kind := .siteSet, subject := (siteOf h.params).code, value := flagBit ((siteOf h.params).rekeys s.site) }).complete
        h.block .ok (siteOf h.params).data := by
  simp only [State.siteSetup, hr, Bool.not_true, Bool.false_eq_true, if_false, if_neg hk]

theorem State.putSite_books (s : State) (x : Site) : (s.putSite x).books = s.books := by
  unfold State.putSite
  dsimp only
  split <;> rfl

theorem State.keepsBytes_putSite (s : State) (x : Site) : s.KeepsBytes (s.putSite x) ofSiteMirror := by
  unfold State.putSite
  dsimp only
  split
  · exact .refl _ _
  · exact State.keepsBytes_rewriteSite { s with site := x }

/-- The written site state stands in the mirror, if it has changed. -/
theorem State.putSite_shows (s : State) (x : Site) (h : x.state ≠ s.site.state) :
    (s.putSite x).byte 0x442 = byteOf x.state.code := by
  unfold State.putSite
  dsimp only
  rw [if_neg h]
  exact State.rewriteSite_showsSite { s with site := x }

/-- A request leaves the site state the mirror shows, rewriting it or not. -/
theorem State.admitRequest_showsSite (s : State) (q : Request) (h : s.byte 0x442 = byteOf s.site.state.code) :
    (s.admitRequest q).byte 0x442 = byteOf s.site.state.code := by
  have keep : (s.takeRequest q).byte 0x442 = s.byte 0x442 := s.keepsBytes_takeRequest q _ (by simp [ofDescriptors])
  have site : (s.takeRequest q).site = s.site := by
    obtain ⟨r, c, j, e⟩ := s.takeRequest_changes q
    rw [e]
  unfold State.admitRequest
  dsimp only
  split
  · exact keep.trans h
  · rw [State.rewriteSite_showsSite, site]

/-- The site record written and a ROUTINE request made: the site alone has changed among the records. -/
theorem State.siteWritten (s : State) (x : Site) (q : Request) (hq : q.kind.isAlarm = false) :
    s.Logs ((s.putSite x).admitRequest q) [q] ∧
    ((s.putSite x).admitRequest q).records = ({ s with site := x } : State).records ∧
    ((s.putSite x).admitRequest q).held = s.held ∧ s.MaySetJournal ((s.putSite x).admitRequest q) ∧
    s.KeepsBytes ((s.putSite x).admitRequest q) fun y => ofDescriptors y ∨ ofSiteMirror y := by
  have put : (s.putSite x).held = s.held ∧ s.MaySetJournal (s.putSite x) := by
    unfold State.putSite
    dsimp only
    split <;> exact ⟨rfl, .inl rfl⟩
  refine ⟨.nil_trans (s.putSite_books x) (State.logs_admitRequest _ q), by simp, ?_,
    put.2.trans (State.maySetJournal_admitRequest _ q hq),
    ((s.keepsBytes_putSite x).mono fun _ => .inr).trans (State.keepsBytes_admitRequest _ q)⟩
  obtain ⟨r, c, n, j, e⟩ := (s.putSite x).admitRequest_changes q
  rw [e]
  exact put.1

/-- The result data of SITE_SETUP shows the six values stored (R3). -/
theorem State.siteSetup_result (u : State) (b : Fin 16) (p : List Byte) (i : Nat) (hi : i < 6) :
    ((u.complete b .ok (siteOf p).data).chooseOrder).resultAt b (2 * i) 2 =
      [(siteOf p).code, (siteOf p).keyM, (siteOf p).keyN, (siteOf p).earlyGrace, (siteOf p).checkoutGrace,
        (siteOf p).heldLimit].getD i 0 := by
  have h := u.complete_resultAt b .ok (siteOf p).data (2 * i) 2 (by simp [Site.data]; omega) (by omega)
  have field (n : Nat) (hn : n < 65536) : leNat (leBytes 2 n) = n := (leNat_leBytes 2 n).trans (Nat.mod_eq_of_lt hn)
  have graces : (siteOf p).earlyGrace < 65536 ∧ (siteOf p).checkoutGrace < 65536 ∧ (siteOf p).heldLimit < 65536 := by
    simp only [siteOf, clampTo_eq 10 600 _ (by omega : 10 ≤ 600)]
    omega
  rw [State.chooseOrder_resultAt, h]
  obtain rfl | rfl | rfl | rfl | rfl | rfl : i = 0 ∨ i = 1 ∨ i = 2 ∨ i = 3 ∨ i = 4 ∨ i = 5 := by omega
  · exact field _ (leAt_lt p 0 2)
  · exact field _ (leAt_lt p 2 2)
  · exact field _ (leAt_lt p 4 2)
  · exact field _ graces.1
  · exact field _ graces.2.1
  · exact field _ graces.2.2

/-- Settles O24: the two refusals and the order taken, by what SITE_SETUP does in each case. -/
theorem siteSetupWritesTheSite : Obligations.SiteSetupWritesTheSite := by
  intro s b h now
  have hb : h.block = b := now.block
  have run : exec (.siteSetup b) s = .next (s.siteSetup h).chooseOrder := by
    show Host.Outcome.next (s.serve b .siteSetup State.siteSetup) = _
    rw [now.serve]; rfl
  have refused (res : Result) (e : s.siteSetup h = s.complete h.block res []) :
      ∃ t, exec (.siteSetup b) s = .next t ∧ s.Refuses t b res :=
    ⟨_, run, by rw [e, hb]; exact s.refuses_complete b res []⟩
  dsimp only
  refine ⟨fun range => ?_, fun range rekeys inHouse => ?_, fun range free => ?_⟩
  · exact refused _ (s.siteSetup_bad h (by rw [← Bool.not_eq_true, Site.inRange_iff]; exact range))
  · exact refused _ (s.siteSetup_occupied h ((Site.inRange_iff _).2 range) ((Site.rekeys_iff _ _).2 rekeys)
      (s.anyInHouse_iff.2 inHouse))
  · have taken := s.siteSetup_taken h ((Site.inRange_iff _).2 range) (by
      rw [Site.rekeys_iff, State.anyInHouse_iff]
      exact fun ⟨hk, ho⟩ => free hk ho)
    rw [taken, hb] at run
    generalize hq : ({ kind := .siteSet, subject := (siteOf h.params).code
                       value := flagBit ((siteOf h.params).rekeys s.site) } : Request) = q at run
    obtain ⟨logs, records, held, cause, keeps⟩ := s.siteWritten (siteOf h.params) q (hq ▸ rfl)
    have shows : s.site.state ≠ .configured → ((s.putSite (siteOf h.params)).admitRequest q).byte 0x442 = 1 := fun hs => by
      have site : (s.putSite (siteOf h.params)).site = siteOf h.params := State.records_site (s.putSite_records _)
      have shown := s.putSite_shows (siteOf h.params) fun e => hs e.symm
      have := (s.putSite (siteOf h.params)).admitRequest_showsSite q (by rw [shown, site])
      rw [site] at this
      exact this
    generalize (s.putSite (siteOf h.params)).admitRequest q = u at run logs records held cause keeps shows
    have site : (u.complete b .ok (siteOf h.params).data).chooseOrder.site = siteOf h.params :=
      State.records_site (t := u) records
    refine ⟨_, run, ?_, State.completes_complete b .ok _ held cause, fun hk => ?_, fun hk => ?_,
      State.siteSetup_result u b _ 0 (by omega), State.siteSetup_result u b _ 1 (by omega),
      State.siteSetup_result u b _ 2 (by omega), ?_, ?_, ?_, fun hs => ?_, ?_⟩
    · rw [State.chooseOrder_records, State.complete_records, records, siteOf, clampTo_eq 10 600 _ (by omega)]
    · rw [(Site.rekeys_iff _ _).2 hk] at hq
      exact State.Logs.asks (hq ▸ logs)
    · rw [Bool.eq_false_iff.2 fun e => hk ((Site.rekeys_iff _ _).1 e)] at hq
      exact State.Logs.asks (hq ▸ logs)
    · rw [site]; exact State.siteSetup_result u b _ 3 (by omega)
    · rw [site]; exact State.siteSetup_result u b _ 4 (by omega)
    · rw [site]; exact State.siteSetup_result u b _ 5 (by omega)
    · rw [State.chooseOrder_byte, u.keepsBytes_complete b .ok _ 0x442 (by simp [ofResult]; omega), shows hs]
    · refine State.KeepsBytes.chooseOrder ?_
      exact (keeps.mono fun y hy => .inr hy).trans ((u.keepsBytes_complete b .ok _).mono fun y => .inl)

end Sys2Proof.Machine

namespace Sys2Proof.Machine

open Sys2Proof

/-! ## Work repeated over indexes -/

section
variable {σ ι β : Type} {f : σ → ι → σ} {look : σ → ι → β} {I : σ → Prop}

/-- What each turn keeps stands at the end. -/
theorem foldl_keeps (step : ∀ u i, I u → I (f u i)) (xs : List ι) {s : σ} (hs : I s) : I (xs.foldl f s) := by
  induction xs generalizing s with
  | nil => exact hs
  | cons x xs ih => exact ih (step s x hs)

/-- An index that is not visited, when no turn reaches beyond its own, looks as before. -/
theorem foldl_skips (step : ∀ u i, I u → I (f u i)) (far : ∀ u i k, I u → k ≠ i → look (f u i) k = look u k) {xs : List ι} {s : σ} (hs : I s)
    {k : ι} (hk : k ∉ xs) : look (xs.foldl f s) k = look s k := by
  induction xs generalizing s with
  | nil => rfl
  | cons x xs ih =>
    obtain ⟨hne, hk⟩ := not_or.1 (fun e => hk (List.mem_cons.2 e))
    exact (ih (step s x hs) hk).trans (far s x k hs hne)

/-- An index visited once, when no turn reaches beyond its own, looks at the end as its own turn leaves it, which finds it as at the start. -/
theorem foldl_visits (step : ∀ u i, I u → I (f u i)) (far : ∀ u i k, I u → k ≠ i → look (f u i) k = look u k) {xs : List ι} (nd : xs.Nodup)
    {s : σ} (hs : I s) {i : ι} (hi : i ∈ xs) :
    ∃ u, I u ∧ look u i = look s i ∧ look (xs.foldl f s) i = look (f u i) i := by
  induction xs generalizing s with
  | nil => cases hi
  | cons x xs ih =>
    obtain ⟨hx, nd⟩ := List.nodup_cons.1 nd
    by_cases e : i = x
    · exact ⟨s, hs, rfl, foldl_skips step far (step _ _ hs) (e ▸ hx) |>.trans (by rw [e])⟩
    · obtain ⟨u, hu, h1, h2⟩ := ih nd (step s x hs) ((List.mem_cons.1 hi).resolve_left e)
      exact ⟨u, hu, h1.trans (far s x i hs e), h2⟩
end

/-- An entry of a vector read by index after another has been written, and after itself. -/
theorem vector_set_ne {α : Type} {n : Nat} (v : Vector α n) {i k : Fin n} (x : α) (h : k ≠ i) : (v.set i x)[k] = v[k] :=
  Vector.getElem_set_ne i.isLt k.isLt fun e => h (Fin.ext e.symm)

theorem vector_set_same {α : Type} {n : Nat} (v : Vector α n) (i : Fin n) (x : α) : (v.set i x)[i] = x :=
  Vector.getElem_set_self i.isLt

theorem allRooms_eq : allRooms = List.finRange 48 := by decide

theorem mem_allRooms (r : Fin 48) : r ∈ allRooms := by rw [allRooms_eq]; exact List.mem_finRange r

theorem allRooms_nodup : allRooms.Nodup := by rw [allRooms_eq]; exact List.nodup_finRange 48

theorem mem_allAddrs : ∀ a : Fin 64, a ∈ allAddrs ↔ a ≠ 0 := by decide

theorem allAddrs_nodup : allAddrs.Nodup := by decide

theorem mem_allDrops (l : Fin 2) (a : Fin 64) : (l, a) ∈ allDrops ↔ a ≠ 0 := by
  have hl : l ∈ allLines := by fin_cases l <;> simp [allLines]
  simp [allDrops, hl, mem_allAddrs]

theorem allDrops_nodup : allDrops.Nodup := by
  have h : allDrops = allLines ×ˢ allAddrs := rfl
  rw [h]
  exact List.Nodup.product (by decide) allAddrs_nodup

/-! ## Work that asks for entries and ends no order -/

/-- From `s` to `t` the journal has taken the requests `qs`; no order has ended, no cause is set for ROUTINE ones but, perhaps, JOURNAL, and
shared RAM is written in `part`, the descriptors and the site mirror alone; with no request made the journal is as it was. -/
structure State.Reports (s t : State) (part : Nat → Prop) (qs : List Request) : Prop where
  held : t.held = s.held
  engine : t.engine = s.engine
  logs : s.Logs t qs
  cause : (∀ q ∈ qs, q.kind.isAlarm = false) → s.MaySetJournal t
  bytes : s.KeepsBytes t fun x => part x ∨ ofDescriptors x ∨ ofSiteMirror x
  still : qs = [] → t.journal = s.journal

theorem State.Reports.refl (s : State) (part : Nat → Prop) : s.Reports s part [] :=
  ⟨rfl, rfl, .nil rfl, fun _ => .refl s, .refl s _, fun _ => rfl⟩

theorem State.Reports.trans {s t u : State} {part : Nat → Prop} {qs rs : List Request} (h : s.Reports t part qs)
    (h' : t.Reports u part rs) : s.Reports u part (qs ++ rs) where
  held := h'.held.trans h.held
  engine := h'.engine.trans h.engine
  logs := h.logs.trans h'.logs
  cause a := (h.cause fun q hq => a q (List.mem_append_left _ hq)).trans (h'.cause fun q hq => a q (List.mem_append_right _ hq))
  bytes := h.bytes.trans h'.bytes
  still e := (h'.still (List.append_eq_nil_iff.1 e).2).trans (h.still (List.append_eq_nil_iff.1 e).1)

theorem State.Reports.trans_nil {s t u : State} {part : Nat → Prop} {qs : List Request} (h : s.Reports t part qs)
    (h' : t.Reports u part []) : s.Reports u part qs := List.append_nil qs ▸ h.trans h'

theorem State.Reports.mono {s t : State} {part part' : Nat → Prop} {qs : List Request} (h : s.Reports t part qs)
    (sub : ∀ x, part x → part' x) : s.Reports t part' qs where
  held := h.held
  engine := h.engine
  logs := h.logs
  cause := h.cause
  bytes := h.bytes.mono fun x => Or.imp_left (sub x)
  still := h.still

theorem State.reports_admitRequest (s : State) (q : Request) (part : Nat → Prop) : s.Reports (s.admitRequest q) part [q] where
  held := by obtain ⟨r, c, n, j, e⟩ := s.admitRequest_changes q; rw [e]
  engine := by obtain ⟨r, c, n, j, e⟩ := s.admitRequest_changes q; rw [e]
  logs := s.logs_admitRequest q
  cause a := s.maySetJournal_admitRequest q (a q List.mem_cons_self)
  bytes := (s.keepsBytes_admitRequest q).mono fun _ => .inr
  still := nofun

/-- A record put down, its mirror rewritten or not, asks for no entry. -/
theorem State.reports_putRoom (s : State) (r : Fin 48) (x : Room) : s.Reports (s.putRoom r x) (ofRoomMirror r) [] := by
  unfold State.putRoom
  dsimp only
  split
  · exact ⟨rfl, rfl, .nil rfl, fun _ => .inl rfl, .of_ram rfl _, fun _ => rfl⟩
  · exact ⟨rfl, rfl, .nil rfl, fun _ => .inl rfl, (State.keepsBytes_rewriteRoom _ r).mono fun _ => .inl, fun _ => rfl⟩

theorem State.reports_putMinibar (s : State) (r : Fin 48) (x : Minibar) : s.Reports (s.putMinibar r x) (ofRoomMirror r) [] := by
  unfold State.putMinibar
  dsimp only
  split
  · exact ⟨rfl, rfl, .nil rfl, fun _ => .inl rfl, .of_ram rfl _, fun _ => rfl⟩
  · exact ⟨rfl, rfl, .nil rfl, fun _ => .inl rfl, (State.keepsBytes_rewriteRoom _ r).mono fun _ => .inl, fun _ => rfl⟩

/-- The room mirror that shows a binding. -/
def ofMirrorOf (b : Option Binding) (x : Nat) : Prop := ∃ r, b.bind Binding.shownRoom = some r ∧ ofRoomMirror r x

theorem State.reports_rewriteRoomOf (s : State) (b : Option Binding) : s.Reports (s.rewriteRoomOf b) (ofMirrorOf b) [] := by
  have bytes := (s.keepsBytes_rewriteRoomOf b).mono (part' := fun x => ofMirrorOf b x ∨ ofDescriptors x ∨ ofSiteMirror x) fun _ => .inl
  obtain ⟨r, k, e⟩ := s.rewriteRoomOf_changes b
  rw [e] at bytes ⊢
  exact ⟨rfl, rfl, .nil rfl, fun _ => .inl rfl, bytes, fun _ => rfl⟩

theorem State.reports_setLine (s : State) (l : Fin 2) (x : Line) (part : Nat → Prop) : s.Reports (s.setLine l x) part [] :=
  ⟨rfl, rfl, .nil rfl, fun _ => .inl rfl, .of_ram rfl _, fun _ => rfl⟩

theorem State.reports_setDrop (s : State) (l : Fin 2) (a : Fin 64) (d : Drop) (part : Nat → Prop) :
    s.Reports (s.setDrop l a d) part [] := s.reports_setLine l _ part

theorem State.reports_putDoor (s : State) (l : Fin 2) (a : Fin 64) (x : Option DoorSide) :
    s.Reports (s.putDoor l a x) (ofMirrorOf (s.drop l a).binding) [] := by
  unfold State.putDoor
  dsimp only
  split
  · exact s.reports_setDrop l a _ _
  · exact (s.reports_setDrop l a _ _).trans (State.reports_rewriteRoomOf _ _)

/-- Work that asks for ROUTINE entries alone. -/
def State.Routine (s t : State) (part : Nat → Prop) : Prop := ∃ qs, (∀ q ∈ qs, q.kind.isAlarm = false) ∧ s.Reports t part qs

theorem State.Routine.refl (s : State) (part : Nat → Prop) : s.Routine s part := ⟨[], nofun, .refl s part⟩

theorem State.Routine.trans {s t u : State} {part : Nat → Prop} (h : s.Routine t part) (h' : t.Routine u part) : s.Routine u part := by
  obtain ⟨qs, a, r⟩ := h
  obtain ⟨qs', a', r'⟩ := h'
  exact ⟨qs ++ qs', fun q hq => (List.mem_append.1 hq).elim (a q) (a' q), r.trans r'⟩

theorem State.Routine.foldl {ι : Type} {f : State → ι → State} {part : Nat → Prop} (h : ∀ (u : State) i, u.Routine (f u i) part) (xs : List ι)
    (s : State) : s.Routine (xs.foldl f s) part :=
  foldl_keeps (I := fun u : State => s.Routine u part) (fun u i hu => hu.trans (h u i)) xs (.refl s part)

/-! ## The minute tick (R25, R79) -/

/-- Shared RAM of the room mirrors. -/
def ofRoomMirrors (x : Nat) : Prop := ∃ r, ofRoomMirror r x

theorem State.reports_moveRoom (s : State) (r : Fin 48) (x : Room) (flag : Bool) :
    s.Reports (s.moveRoom r x flag) (ofRoomMirror r) [roomStateRequest r x s.rooms[r].state flag] :=
  (s.reports_putRoom r x).trans (State.reports_admitRequest _ _ _)

@[simp] theorem State.moveRoom_records (s : State) (r : Fin 48) (x : Room) (flag : Bool) :
    (s.moveRoom r x flag).records = ({ s with rooms := s.rooms.set r x } : State).records := by
  unfold State.moveRoom
  rw [State.admitRequest_records, State.putRoom_records]

/-- A room's record after its overstay test (R25). -/
def Room.overstayed (grace minute : Nat) (x : Room) : Room :=
  if x.state = .occupied ∧ x.stayUntil + grace ≤ minute then { x with state := .overstay } else x

theorem State.overstayTest_routine (minute : Nat) (s : State) (r : Fin 48) : s.Routine (State.overstayTest minute s r) ofRoomMirrors := by
  unfold State.overstayTest
  dsimp only
  split
  · exact ⟨_, by simp [roomStateRequest, EntryKind.isAlarm], (s.reports_moveRoom r _ _).mono fun x hx => ⟨r, hx⟩⟩
  · exact .refl _ _

theorem State.overstayTest_records (minute : Nat) (s : State) (r : Fin 48) :
    (State.overstayTest minute s r).records =
      ({ s with rooms := s.rooms.set r (s.rooms[r].overstayed s.site.checkoutGrace minute) } : State).records := by
  unfold State.overstayTest Room.overstayed
  dsimp only
  split
  · exact s.moveRoom_records r _ _
  · have e : s.rooms.set r.val s.rooms[r] = s.rooms := Vector.set_getElem_self r.isLt
    rw [e]

/-- The overstay test of every room touches the room records alone. -/
theorem State.overstayTests_records (minute : Nat) (s : State) :
    (allRooms.foldl (State.overstayTest minute) s).records =
      ({ s with rooms := s.rooms.map (Room.overstayed s.site.checkoutGrace minute) } : State).records := by
  have step : ∀ (u : State) (i : Fin 48), u.records = ({ s with rooms := u.rooms } : State).records →
      (State.overstayTest minute u i).records = ({ s with rooms := (State.overstayTest minute u i).rooms } : State).records := fun u i hu => by
    have e := State.overstayTest_records minute u i
    rw [State.records_rooms e]
    exact e.trans (State.records_setRooms hu _)
  have far : ∀ (u : State) (i k : Fin 48), u.records = ({ s with rooms := u.rooms } : State).records → k ≠ i →
      (State.overstayTest minute u i).rooms[k] = u.rooms[k] := fun u i k _ hk => by
    rw [State.records_rooms (State.overstayTest_records minute u i)]
    exact vector_set_ne _ _ hk
  have keeps := foldl_keeps step allRooms (s := s) rfl
  have rooms : (allRooms.foldl (State.overstayTest minute) s).rooms = s.rooms.map (Room.overstayed s.site.checkoutGrace minute) := by
    refine Vector.ext fun i hi => ?_
    obtain ⟨u, hu, before, after⟩ := foldl_visits (look := fun (u : State) (k : Fin 48) => u.rooms[k]) step far allRooms_nodup (s := s) rfl
      (mem_allRooms ⟨i, hi⟩)
    have site : u.site = s.site := (State.records_site hu :)
    rw [State.records_rooms (State.overstayTest_records minute u ⟨i, hi⟩)] at after
    simp only [Fin.getElem_fin, Vector.getElem_set_self] at after before
    rw [after, before, site, Vector.getElem_map]
  rw [rooms] at keeps
  exact keeps

theorem State.prune_routine (s : State) (minute : Nat) (part : Nat → Prop) : s.Routine (s.prune minute) part := by
  unfold State.prune
  refine State.Routine.trans (t := { s with revs := s.revs.filter fun e => !e.expired minute })
    ⟨[], nofun, rfl, rfl, .nil rfl, fun _ => .inl rfl, .of_ram rfl _, fun _ => rfl⟩ (State.Routine.foldl (fun u e => ?_) _ _)
  exact ⟨_, by cases e <;> simp [prunedRequest, EntryKind.isAlarm], u.reports_admitRequest _ _⟩

theorem State.prune_records (s : State) (minute : Nat) :
    (s.prune minute).records = ({ s with revs := s.revs.filter fun e => !e.expired minute } : State).records :=
  foldl_keeps (I := fun u : State => u.records = ({ s with revs := s.revs.filter fun e => !e.expired minute } : State).records)
    (fun u _ hu => (u.admitRequest_records _).trans hu) _ rfl

/-- A minute tick asks for ROUTINE entries alone, and touches the rooms and the Revocation List as R25 and R79 say. -/
theorem State.minuteTick_routine (s : State) (minute : Nat) : s.Routine (s.minuteTick minute) ofRoomMirrors :=
  (State.Routine.foldl (State.overstayTest_routine minute) allRooms s).trans (State.prune_routine _ _ _)

theorem State.minuteTick_records (s : State) (minute : Nat) :
    (s.minuteTick minute).records = ({ s with
      rooms := s.rooms.map (Room.overstayed s.site.checkoutGrace minute)
      revs := s.revs.filter fun e => !e.expired minute } : State).records := by
  have h := State.overstayTests_records minute s
  refine (State.prune_records _ minute).trans ?_
  rw [State.records_revs h]
  exact State.records_setRevs h _

end Sys2Proof.Machine

namespace Sys2Proof.Machine

open Sys2Proof

/-! ## Work: what the blocks do to one another inside one command -/

/-- How far work reaches: `calm` work leaves the encoder, the Revocation List, and what each line is in and does; work of a `line` leaves the
first two. -/
inductive Breadth where
  | calm | line | wide

/-- What a line is in and does: its state, its LINE_GO, its open exchange or window, the drop it owes an IDENTIFY. -/
def Line.course (x : Line) : LineState × Option GoMark × Activity × Option Returning := (x.state, x.mark, x.activity, x.returning)

/-- One act of a block: records written; a mirror, the journal or a descriptor written; an order ended or its block marked. -/
inductive State.Act (breadth : Breadth) : State → State → Prop
  | records (s : State) (rooms : Vector Room 48) (minibars : Vector Minibar 48) (lines : Vector Line 2)
      (lastDeny : Vector (Option DenyPair) 48) (encoder : Encoder) (revs : List RevEntry)
      (h : breadth ≠ .wide → encoder = s.encoder ∧ revs = s.revs)
      (course : breadth = .calm → ∀ l : Fin 2, lines[l].course = s.lines[l].course) :
      Act breadth s { s with rooms := rooms, minibars := minibars, lines := lines, lastDeny := lastDeny, encoder := encoder, revs := revs }
  | site (s : State) : Act breadth s s.rewriteSite
  | room (s : State) (r : Fin 48) : Act breadth s (s.rewriteRoom r)
  | drop (s : State) (l : Fin 2) (a : Fin 64) : Act breadth s (s.rewriteDrop l a)
  | request (s : State) (q : Request) : Act breadth s (s.admitRequest q)
  | search (s : State) : Act breadth s s.search
  | complete (s : State) (b : Fin 16) (res : Result) (data : List Byte) : Act breadth s (s.complete b res data)
  | block (s : State) (b : Fin 16) (st : BlockState) : Act breadth s (s.setBlockState b st)

/-- Acts, one after another. -/
def State.Work (breadth : Breadth) : State → State → Prop := Relation.ReflTransGen (State.Act breadth)

variable {w : Breadth}

theorem State.Work.refl (s : State) : State.Work w s s := Relation.ReflTransGen.refl

theorem State.Work.trans {s t u : State} (h : State.Work w s t) (h' : State.Work w t u) : State.Work w s u :=
  Relation.ReflTransGen.trans h h'

theorem State.Act.work {s t : State} (h : State.Act w s t) : State.Work w s t := Relation.ReflTransGen.single h

/-- Calm work is work of a line, and that is wide work. -/
theorem State.Act.widen {v : Breadth} {s t : State} (h : State.Act v s t) (narrow : w ≠ .wide → v ≠ .wide) (calm : w = .calm → v = .calm) :
    State.Act w s t := by
  cases h with
  | records rooms minibars lines lastDeny encoder revs h course =>
    exact .records _ _ _ _ _ _ _ (fun hw => h (narrow hw)) fun hw => course (calm hw)
  | site => exact .site _
  | room r => exact .room _ _
  | drop l a => exact .drop _ _ _
  | request q => exact .request _ _
  | search => exact .search _
  | complete b res data => exact .complete _ _ _ _
  | block b st => exact .block _ _ _

theorem State.Work.widen {v : Breadth} {s t : State} (h : State.Work v s t) (narrow : w ≠ .wide → v ≠ .wide) (calm : w = .calm → v = .calm) :
    State.Work w s t := by
  induction h with
  | refl => exact .refl s
  | tail _ a ih => exact ih.tail (a.widen narrow calm)

/-- Any work is wide work. -/
theorem State.Work.wide {v : Breadth} {s t : State} (h : State.Work v s t) : State.Work .wide s t := h.widen (fun e => absurd rfl e) nofun

/-- What every act respects, work respects. -/
theorem State.Work.lift {R : State → State → Prop} (refl : ∀ s, R s s) (trans : ∀ s t u, R s t → R t u → R s u)
    (act : ∀ s t, State.Act w s t → R s t) {s t : State} (h : State.Work w s t) : R s t := by
  induction h with
  | refl => exact refl _
  | tail _ a ih => exact trans _ _ _ ih (act _ _ a)

theorem State.Work.foldl {ι : Type} {f : State → ι → State} (h : ∀ (u : State) i, State.Work w u (f u i)) (xs : List ι) (s : State) :
    State.Work w s (xs.foldl f s) :=
  foldl_keeps (I := fun u : State => State.Work w s u) (fun u i hu => hu.trans (h u i)) xs (.refl s)

/-! ### What work keeps -/

/-- Work of either kind leaves the records no event of time or of a line can reach, and the clock. -/
theorem State.Act.beyondTime {s t : State} (h : State.Act w s t) : t.beyondTime = s.beyondTime ∧ t.clock = s.clock := by
  cases h with
  | search => obtain ⟨r, c, j, e, -⟩ := s.search_changes; rw [e]; exact ⟨rfl, rfl⟩
  | request q => obtain ⟨r, c, n, j, e⟩ := s.admitRequest_changes q; rw [e]; exact ⟨rfl, rfl⟩
  | _ => exact ⟨rfl, rfl⟩

theorem State.Work.beyondTime {s t : State} (h : State.Work w s t) : t.beyondTime = s.beyondTime ∧ t.clock = s.clock :=
  h.lift (R := fun s t => t.beyondTime = s.beyondTime ∧ t.clock = s.clock) (fun _ => ⟨rfl, rfl⟩)
    (fun _ _ _ a b => ⟨b.1.trans a.1, b.2.trans a.2⟩) fun _ _ a => a.beyondTime

/-- Work that is not wide leaves all that no event of a line can reach. -/
theorem State.Act.beyondLines {s t : State} (h : State.Act w s t) (hw : w ≠ .wide) : t.beyondLines = s.beyondLines := by
  cases h with
  | search => obtain ⟨r, c, j, e, -⟩ := s.search_changes; rw [e]; rfl
  | request q => obtain ⟨r, c, n, j, e⟩ := s.admitRequest_changes q; rw [e]; rfl
  | records rooms minibars lines lastDeny encoder revs h =>
    obtain ⟨rfl, rfl⟩ := h hw
    rfl
  | _ => rfl

theorem State.Work.beyondLines {s t : State} (h : State.Work w s t) (hw : w ≠ .wide) : t.beyondLines = s.beyondLines :=
  h.lift (R := fun s t => t.beyondLines = s.beyondLines) (fun _ => rfl) (fun _ _ _ a b => b.trans a) fun _ _ a => a.beyondLines hw

/-- Calm work leaves what each line is in and does. -/
theorem State.Act.course {s t : State} (h : State.Act .calm s t) (l : Fin 2) : t.lines[l].course = s.lines[l].course := by
  cases h with
  | search => obtain ⟨r, c, j, e, -⟩ := s.search_changes; rw [e]
  | request q => obtain ⟨r, c, n, j, e⟩ := s.admitRequest_changes q; rw [e]
  | records rooms minibars lines lastDeny encoder revs h course => exact course rfl l
  | _ => rfl

theorem State.Work.course {s t : State} (h : State.Work .calm s t) (l : Fin 2) : t.lines[l].course = s.lines[l].course :=
  h.lift (R := fun s t => t.lines[l].course = s.lines[l].course) (fun _ => rfl) (fun _ _ _ a b => b.trans a) fun _ _ a => a.course l

section
variable {s t : State} (h : State.Work w s t)
include h

theorem State.Work.site : t.site = s.site := (congrArg State.site h.beyondTime.1 :)
theorem State.Work.zones : t.zones = s.zones := (congrArg State.zones h.beyondTime.1 :)
theorem State.Work.engine : t.engine = s.engine := (congrArg State.engine h.beyondTime.1 :)
theorem State.Work.ready : t.ready = s.ready := (congrArg State.ready h.beyondTime.1 :)
theorem State.Work.clock : t.clock = s.clock := h.beyondTime.2
end

theorem State.Work.encoder {s t : State} (h : State.Work w s t) (hw : w ≠ .wide) : t.encoder = s.encoder :=
  (congrArg State.encoder (h.beyondLines hw) :)
theorem State.Work.revs {s t : State} (h : State.Work w s t) (hw : w ≠ .wide) : t.revs = s.revs := (congrArg State.revs (h.beyondLines hw) :)

/-- Entries are added at the end of the queue alone. -/
theorem State.Work.queue_prefix {s t : State} (h : State.Work w s t) : s.journal.queue <+: t.journal.queue := by
  refine h.lift (R := fun s t => s.journal.queue <+: t.journal.queue) (fun _ => List.prefix_rfl) (fun _ _ _ => List.IsPrefix.trans)
    fun s t a => ?_
  cases a with
  | search =>
    have queue : s.search.journal.queue = s.journal.queue := (congrArg Books.queue s.search_books :)
    rw [queue]
  | request q => exact (s.logs_admitRequest q).queue_prefix
  | _ => exact List.prefix_rfl

theorem State.keepsBytes_setBlockState (s : State) (b : Fin 16) (st : BlockState) : s.KeepsBytes (s.setBlockState b st) (ofResult b) :=
  (s.keepsBytes_store _ _).mono fun x hx => .inl (by simp [blockAddr] at hx; omega)

/-- The order blocks lie below the descriptors. -/
theorem ofResult_lt {b : Fin 16} {x : Nat} (h : ofResult b x) : x < 0x400 := by
  unfold ofResult at h; omega

theorem ofRoomMirror_range {r : Fin 48} {x : Nat} (h : ofRoomMirror r x) : 0x480 ≤ x ∧ x < 0xA80 := by
  unfold ofRoomMirror at h; omega

theorem ofDropMirror_range {l : Fin 2} {a : Fin 64} {x : Nat} (h : ofDropMirror l a x) : 0xA80 ≤ x ∧ x < 0xB00 := by
  unfold ofDropMirror at h; omega

/-- The mirror bytes of the clock. -/
def ofClock (x : Nat) : Prop := 0x443 ≤ x ∧ x < 0x448

theorem State.showsClock_congr {s t : State} (hc : t.clock = s.clock) (hb : ∀ x, ofClock x → t.byte x = s.byte x) (h : s.showsClock) :
    t.showsClock := by
  obtain ⟨h1, h2, h3⟩ := h
  refine ⟨?_, ?_, ?_⟩
  · rw [hb _ (by simp [ofClock]), hc]; exact h1
  · rw [State.field_congr fun x hx hx' => hb x ⟨by omega, by omega⟩, hc]; exact h2
  · rw [hb _ (by simp [ofClock]), hc]; exact h3

/-- What the site mirror shows of the clock stays right. -/
theorem State.Act.showsClock {s t : State} (h : State.Act w s t) (hc : s.ClockInv) (hs : s.showsClock) : t.showsClock := by
  have keep {u : State} {part : Nat → Prop} (hk : s.KeepsBytes u part) (hp : ∀ x, part x → ¬ ofClock x) :
      ∀ x, ofClock x → u.byte x = s.byte x := fun x hx => hk x fun e => hp x e hx
  refine (?_ : ∀ u, State.Act w s u → u.showsClock) t h
  intro u h
  have clock := h.beyondTime.2
  cases h with
  | records => exact State.showsClock_congr clock (fun x _ => rfl) hs
  | site => exact s.rewriteSite_showsClock hc
  | room r => exact State.showsClock_congr clock (keep (s.keepsBytes_rewriteRoom r) fun x e e' => by
      have := ofRoomMirror_range e; unfold ofClock at e'; omega) hs
  | drop l a => exact State.showsClock_congr clock (keep (s.keepsBytes_rewriteDrop l a) fun x e e' => by
      have := ofDropMirror_range e; unfold ofClock at e'; omega) hs
  | request q =>
    have take := State.showsClock_congr (t := s.takeRequest q) (by obtain ⟨r, c, j, e⟩ := s.takeRequest_changes q; rw [e])
      (keep (s.keepsBytes_takeRequest q) fun x e e' => by unfold ofDescriptors at e; unfold ofClock at e'; omega) hs
    unfold State.admitRequest
    dsimp only
    split
    · exact take
    · refine State.rewriteSite_showsClock _ ?_
      obtain ⟨r, c, j, e⟩ := s.takeRequest_changes q
      rw [e]; exact hc
  | search => exact State.showsClock_congr clock (keep s.keepsBytes_search fun x e e' => by
      unfold ofDescriptors at e; unfold ofClock at e'; omega) hs
  | complete b res data => exact State.showsClock_congr clock (keep (s.keepsBytes_complete b res data) fun x e e' => by
      have := ofResult_lt e; unfold ofClock at e'; omega) hs
  | block b st => exact State.showsClock_congr clock (keep (s.keepsBytes_setBlockState b st) fun x e e' => by
      have := ofResult_lt e; unfold ofClock at e'; omega) hs

theorem State.clockInv_congr {s t : State} (h : t.clock = s.clock) (hc : s.ClockInv) : t.ClockInv := by
  unfold State.ClockInv
  rw [h]
  exact hc

theorem State.Work.showsClock {s t : State} (h : State.Work w s t) (hc : s.ClockInv) (hs : s.showsClock) : t.showsClock :=
  (h.lift (R := fun s t => t.clock = s.clock ∧ (s.ClockInv → s.showsClock → t.showsClock)) (fun _ => ⟨rfl, fun _ h => h⟩)
    (fun _ _ _ a b => ⟨b.1.trans a.1, fun hc hs => b.2 (State.clockInv_congr a.1 hc) (a.2 hc hs)⟩)
    fun _ _ a => ⟨a.beyondTime.2, a.showsClock⟩).2 hc hs

/-! ### The operations are work -/

theorem State.work_records (s : State) (rooms : Vector Room 48) (minibars : Vector Minibar 48)
    (lastDeny : Vector (Option DenyPair) 48) :
    State.Work w s { s with rooms := rooms, minibars := minibars, lastDeny := lastDeny } :=
  (State.Act.records s rooms minibars s.lines lastDeny s.encoder s.revs (fun _ => ⟨rfl, rfl⟩) fun _ _ => rfl).work

/-- A line written, by calm work with its course unchanged. -/
theorem State.work_setLine (s : State) (l : Fin 2) (x : Line) (h : w = .calm → x.course = s.lines[l].course) : State.Work w s (s.setLine l x) := by
  refine (State.Act.records s s.rooms s.minibars (s.lines.set l x) s.lastDeny s.encoder s.revs (fun _ => ⟨rfl, rfl⟩) fun hw k => ?_).work
  by_cases hk : k = l
  · subst hk
    rw [vector_set_same]
    exact h hw
  · rw [vector_set_ne _ _ hk]

theorem State.work_newLine (s : State) (l : Fin 2) (x : Line) : State.Work .line s (s.setLine l x) := s.work_setLine l x nofun

theorem State.work_setDrop (s : State) (l : Fin 2) (a : Fin 64) (d : Drop) : State.Work w s (s.setDrop l a d) := s.work_setLine l _ fun _ => rfl

theorem State.work_setOwed (s : State) (l : Fin 2) (a : Fin 64) (o : Option Owed) : State.Work w s (s.setOwed l a o) := s.work_setDrop l a _

theorem State.work_setQueue (s : State) (l : Fin 2) (q : List QMsg) : State.Work w s (s.setQueue l q) := s.work_setLine l _ fun _ => rfl

theorem State.work_setActivity (s : State) (l : Fin 2) (x : Activity) : State.Work .line s (s.setActivity l x) := s.work_setLine l _ nofun

theorem State.work_setRate (s : State) (l : Fin 2) (rate divisor : Nat) : State.Work w s (s.setRate l rate divisor) :=
  s.work_setLine l _ fun _ => rfl

theorem State.work_admitRequest (s : State) (q : Request) : State.Work w s (s.admitRequest q) := (State.Act.request s q).work

theorem State.work_rewriteSite (s : State) : State.Work w s s.rewriteSite := (State.Act.site s).work

theorem State.work_rewriteRoom (s : State) (r : Fin 48) : State.Work w s (s.rewriteRoom r) := (State.Act.room s r).work

theorem State.work_rewriteDrop (s : State) (l : Fin 2) (a : Fin 64) : State.Work w s (s.rewriteDrop l a) := (State.Act.drop s l a).work

theorem State.work_complete (s : State) (b : Fin 16) (res : Result) (data : List Byte) : State.Work w s (s.complete b res data) :=
  (State.Act.complete s b res data).work

theorem State.work_search (s : State) : State.Work w s s.search := (State.Act.search s).work

theorem State.work_rewriteRoomOf (s : State) (b : Option Binding) : State.Work w s (s.rewriteRoomOf b) := by
  unfold State.rewriteRoomOf
  split
  · exact .refl s
  · exact s.work_rewriteRoom _

theorem State.work_putRoom (s : State) (r : Fin 48) (x : Room) : State.Work w s (s.putRoom r x) := by
  have h := s.work_records (w := w) (s.rooms.set r x) s.minibars s.lastDeny
  unfold State.putRoom
  dsimp only
  split
  · exact h
  · exact h.trans (State.work_rewriteRoom _ r)

theorem State.work_putMinibar (s : State) (r : Fin 48) (x : Minibar) : State.Work w s (s.putMinibar r x) := by
  have h := s.work_records (w := w) s.rooms (s.minibars.set r x) s.lastDeny
  unfold State.putMinibar
  dsimp only
  split
  · exact h
  · exact h.trans (State.work_rewriteRoom _ r)

theorem State.work_putDoor (s : State) (l : Fin 2) (a : Fin 64) (x : Option DoorSide) : State.Work w s (s.putDoor l a x) := by
  unfold State.putDoor
  dsimp only
  split
  · exact s.work_setDrop l a _
  · exact (s.work_setDrop l a _).trans (State.work_rewriteRoomOf _ _)

theorem State.work_putDeny (s : State) (r : Fin 48) (reason : Deny) : State.Work w s (s.putDeny r reason) := by
  have h := s.work_records (w := w) s.rooms s.minibars (s.lastDeny.set r (some { reason := reason, minute := s.now }))
  unfold State.putDeny
  dsimp only
  split
  · exact h
  · exact h.trans (State.work_rewriteRoom _ r)

theorem State.work_completeFor (s : State) (o : Owner) (res : Result) (data : List Byte) : State.Work w s (s.completeFor o res data) := by
  unfold State.completeFor
  split
  · exact .refl s
  · exact s.work_complete _ _ _

theorem State.work_moveRoom (s : State) (r : Fin 48) (x : Room) (flag : Bool) : State.Work w s (s.moveRoom r x flag) :=
  (s.work_putRoom r x).trans (State.work_admitRequest _ _)

/-! The rooms. -/

theorem State.work_closeRoom (s : State) (r : Fin 48) (scanned : Bool) (charge : Nat) : State.Work w s (s.closeRoom r scanned charge) := by
  unfold State.closeRoom
  exact (((s.work_putRoom r _).trans (State.work_admitRequest _ _)).trans (State.work_admitRequest _ _)).trans
    (State.work_completeFor _ _ _ _)

theorem State.work_finalReport (s : State) (r : Fin 48) (scanned : Bool) (charge : Nat) : State.Work w s (s.finalReport r scanned charge) := by
  unfold State.finalReport
  split
  · exact s.work_closeRoom _ _ _
  · exact .refl s

theorem State.work_tickRoom (s : State) (r : Fin 48) : State.Work w s (s.tickRoom r) := by
  unfold State.tickRoom
  dsimp only
  split_ifs
  · exact .refl s
  · exact s.work_closeRoom _ _ _
  · exact s.work_putRoom _ _

theorem State.work_overstayTest (minute : Nat) (s : State) (r : Fin 48) : State.Work w s (State.overstayTest minute s r) := by
  unfold State.overstayTest
  dsimp only
  split
  · exact s.work_moveRoom _ _ _
  · exact .refl s

/-- Pruning writes the Revocation List, so the minute tick is wide work. -/
theorem State.work_minuteTick (s : State) (minute : Nat) : State.Work .wide s (s.minuteTick minute) := by
  refine (State.Work.foldl (State.work_overstayTest minute) allRooms s).trans (State.Work.trans ?_
    (State.Work.foldl (fun u e => u.work_admitRequest _) _ _))
  exact (State.Act.records (breadth := .wide) _ _ _ _ _ _ _ (fun h => absurd rfl h) nofun).work

/-! The directed queue. -/

theorem State.work_openLost (s : State) (l : Fin 2) (a : Fin 64) (asker : Asker) (cause : Nat) :
    State.Work w s (s.openLost l a asker cause) := by
  unfold State.openLost
  split
  · unfold State.doorGrantLost
    split
    · exact .refl s
    · split
      · exact .refl s
      · exact (s.work_admitRequest _).trans (State.work_putDoor _ _ _ _)
  · split
    · exact .refl s
    · unfold State.minibarGrantLost
      dsimp only
      split
      · exact .refl s
      · exact (s.work_admitRequest _).trans (State.work_putMinibar _ _ _)
  · exact .refl s

theorem State.work_request (s : State) (l : Fin 2) (m : QMsg) : State.Work w s (s.request l m).1 := by
  have owe : State.Work w s (s.owe l m).1 := by
    unfold State.owe
    split
    · exact .refl s
    · exact s.work_setOwed _ _ _
  unfold State.request
  dsimp only
  split
  · exact owe
  · split
    · exact .refl s
    · split
      · have h := (s.work_setQueue (w := w) l (s.lines[l].queue.map fun q => if q.addr = m.addr then m else q)).trans
          (State.work_setOwed _ l m.addr none)
        split
        · exact h.trans (State.work_openLost _ _ _ _ _)
        · exact h
      · split
        · exact (s.work_setQueue _ _).trans (State.work_setOwed _ _ _ _)
        · exact owe

theorem State.work_ask (s : State) (l : Fin 2) (a : Fin 64) (msg : Directed) (asker : Asker) : State.Work w s (s.ask l a msg asker) :=
  s.work_request l _

theorem State.work_disposeOne (l : Fin 2) (keep : Bool) (s : State) (m : QMsg) : State.Work w s (State.disposeOne l keep s m) := by
  have mark : State.Work w s (if keep ∧ (s.drop l m.addr).owed.isSome then s
      else s.setOwed l m.addr (some { msg := m.msg, asker := m.asker })) := by
    split
    · exact .refl s
    · exact s.work_setOwed _ _ _
  unfold State.disposeOne
  split
  · exact s.work_openLost _ _ _ _
  · exact mark
  · exact mark
  all_goals exact .refl s

theorem State.work_dispose (s : State) (l : Fin 2) : State.Work .line s (s.dispose l) := by
  unfold State.dispose
  dsimp only
  refine State.Work.trans ?_ (State.Work.foldl (State.work_disposeOne l false) _ _)
  split
  · exact s.work_newLine _ _
  · exact (s.work_newLine _ _).trans (State.work_disposeOne _ _ _ _)

theorem State.work_placeOwed (s : State) (l : Fin 2) : State.Work w s (s.placeOwed l) := by
  refine State.Work.foldl (fun u a => ?_) _ s
  unfold State.placeOwedAt
  dsimp only
  split
  · exact .refl u
  · split
    · exact (u.work_setQueue _ _).trans (State.work_setOwed _ _ _ _)
    · exact .refl u

/-! The minibars. -/

theorem State.work_askMinibar (s : State) (r : Fin 48) (msg : Directed) : State.Work w s (s.askMinibar r msg) := by
  unfold State.askMinibar
  split
  · exact .refl s
  · exact s.work_ask _ _ _ _

theorem State.work_answerScan (s : State) (r : Fin 48) (m : Minibar) (purpose : Option ScanPurpose) (res : Result) (read missing : Byte) :
    State.Work w s (s.answerScan r m purpose res read missing) := by
  unfold State.answerScan
  split
  · exact s.work_completeFor _ _ _
  · exact .refl s

theorem State.work_reportFinal (s : State) (r : Fin 48) (isFinal scanned : Bool) : State.Work w s (s.reportFinal r isFinal scanned) := by
  unfold State.reportFinal
  split
  · exact s.work_finalReport _ _ _
  · exact .refl s

theorem State.work_scanEntry (s : State) (r : Fin 48) (m : Minibar) : State.Work w s (s.scanEntry r m) := by
  unfold State.scanEntry
  dsimp only
  split
  · exact s.work_admitRequest _
  · split
    · exact s.work_admitRequest _
    · exact .refl s

theorem State.work_finishScan (s : State) (r : Fin 48) (m : Minibar) : State.Work w s (s.finishScan r m) := by
  unfold State.finishScan
  dsimp only
  refine State.Work.trans ?_ (State.work_reportFinal _ _ _ _)
  refine State.Work.trans ?_ (State.work_answerScan _ _ _ _ _ _ _)
  refine State.Work.trans ?_ (State.work_rewriteRoom _ r)
  refine State.Work.trans ?_ (State.work_records _ _ _ _)
  refine State.Work.trans ?_ (State.work_scanEntry _ _ _)
  split
  · exact s.work_admitRequest _
  · exact .refl s

theorem State.work_startScan (s : State) (r : Fin 48) (purpose : ScanPurpose) (single : Option Nat) :
    State.Work w s (s.startScan r purpose single) := by
  unfold State.startScan
  dsimp only
  split_ifs
  · exact s.work_finishScan _ _
  · cases single <;> exact (s.work_putMinibar _ _).trans (State.work_askMinibar _ _ _)

theorem State.work_minibarReached (s : State) (r : Fin 48) : State.Work w s (s.minibarReached r) := by
  unfold State.minibarReached
  dsimp only
  split
  · exact s.work_putMinibar _ _
  · exact .refl s

theorem State.work_minibarLost (s : State) (r : Fin 48) (place : Nat) : State.Work w s (s.minibarLost r place) := by
  unfold State.minibarLost
  dsimp only
  split
  · exact .refl s
  · exact s.work_putMinibar _ _
  · refine State.Work.trans ?_ ((State.work_putMinibar _ _ _).trans (State.work_reportFinal _ _ _ _))
    split
    · exact .refl s
    · exact s.work_admitRequest _
  · exact (s.work_putMinibar _ _).trans (State.work_reportFinal _ _ _ _)
  · exact (((s.work_admitRequest _).trans (State.work_putMinibar _ _ _)).trans (State.work_answerScan _ _ _ _ _ _ _)).trans
      (State.work_reportFinal _ _ _ _)

theorem State.work_tickMinibar (s : State) (r : Fin 48) : State.Work w s (s.tickMinibar r) := by
  unfold State.tickMinibar
  dsimp only
  split
  · split
    · exact .refl s
    · split
      · unfold State.minibarWindowEnds
        dsimp only
        split
        · exact s.work_startScan _ _ _
        · exact s.work_putMinibar _ _
      · exact s.work_putMinibar _ _
  · split
    · unfold State.scanExpires
      dsimp only
      refine State.Work.trans ?_ (State.work_reportFinal _ _ _ _)
      refine State.Work.trans ?_ (State.work_answerScan _ _ _ _ _ _ _)
      refine State.Work.trans ?_ (State.work_putMinibar _ _ _)
      exact (s.work_askMinibar _ _).trans (State.work_admitRequest _ _)
    · exact s.work_putMinibar _ _
  all_goals exact .refl s

/-! The doors. -/

theorem State.work_tickHeld (s : State) (l : Fin 2) (a : Fin 64) : State.Work w s (s.tickHeld l a) := by
  unfold State.tickHeld
  split
  · exact .refl s
  · dsimp only
    split
    · exact .refl s
    · split
      · exact (s.work_putDoor _ _ _).trans (State.work_admitRequest _ _)
      · exact s.work_putDoor _ _ _

theorem State.work_tickGrant (s : State) (l : Fin 2) (a : Fin 64) : State.Work w s (s.tickGrant l a) := by
  unfold State.tickGrant
  split
  · exact .refl s
  · exact s.work_putDoor _ _ _

theorem State.work_tickDoor (s : State) (p : Fin 2 × Fin 64) : State.Work w s (s.tickDoor p) :=
  (s.work_tickGrant p.1 p.2).trans (State.work_tickHeld _ _ _)

theorem State.work_doorPresence (s : State) (l : Fin 2) (a : Fin 64) (p : Presence) : State.Work w s (s.doorPresence l a p) := by
  unfold State.doorPresence
  dsimp only
  split
  · exact .refl s
  · exact s.work_putDoor _ _ _

theorem State.work_askZoneHold (s : State) (l : Fin 2) (a : Fin 64) : State.Work w s (s.askZoneHold l a) := by
  unfold State.askZoneHold
  split
  · exact s.work_ask _ _ _ _
  · exact .refl s

/-! The encoder. -/

theorem State.work_setEncoder (s : State) (e : Encoder) : State.Work .wide s (s.setEncoder e) :=
  (State.Act.records (breadth := .wide) s s.rooms s.minibars s.lines s.lastDeny e s.revs (fun h => absurd rfl h) nofun).work

theorem State.work_endOrder (s : State) (o : EncOrder) (res : Result) : State.Work .wide s (s.endOrder o res) :=
  (s.work_complete _ _ _).trans (State.work_setEncoder _ _)

theorem State.work_takeUp (s : State) (o : EncOrder) : State.Work .wide s (s.takeUp o) := by
  unfold State.takeUp
  dsimp only
  split
  · exact (s.work_setEncoder _).trans (State.Act.block _ _ _).work
  · exact s.work_setEncoder _

theorem State.work_arbitrate (fuel : Nat) (s : State) : State.Work .wide s (State.arbitrate fuel s) := by
  induction fuel generalizing s with
  | zero => exact .refl s
  | succ fuel ih =>
    unfold State.arbitrate
    split
    · exact .refl s
    · split
      · exact .refl s
      · dsimp only
        split
        · exact (s.work_takeUp _).trans (State.work_setEncoder _ _)
        · exact ((s.work_takeUp _).trans (State.work_endOrder _ _ _)).trans (ih _)

theorem State.work_encoderStep (s : State) (f : State → State) (h : State.Work .wide s (f s)) : State.Work .wide s (s.encoderStep f) := by
  unfold State.encoderStep
  dsimp only
  split
  · exact h
  · exact h.trans (State.work_rewriteSite _)

theorem State.work_tickEncoder (s : State) : State.Work .wide s s.tickEncoder := by
  unfold State.tickEncoder
  split
  · exact .refl s
  · split
    · exact .refl s
    · split
      · exact s.work_encoderStep _ ((s.work_endOrder _ _).trans (State.work_arbitrate _ _))
      · exact s.work_setEncoder _

/-! The lines. -/

theorem State.work_tellOwner (s : State) (l : Fin 2) (a : Fin 64) : State.Work w s (s.tellOwner l a) := by
  unfold State.tellOwner
  dsimp only
  split
  · exact .refl s
  · exact s.work_doorPresence _ _ _
  · split
    · exact (s.work_doorPresence _ _ _).trans (State.work_askZoneHold _ _ _)
    · exact s.work_doorPresence _ _ _
  · split
    · split
      · exact s.work_minibarReached _
      · exact .refl s
    · exact s.work_minibarLost _ _

theorem State.work_changeDrop (s : State) (l : Fin 2) (a : Fin 64) (d : Drop) (entry : Option (EntryKind × Nat)) :
    State.Work w s (s.changeDrop l a d entry) := by
  unfold State.changeDrop
  dsimp only
  split
  · exact s.work_setDrop _ _ _
  · refine (s.work_setDrop l a d).trans (State.Work.trans ?_ (((State.work_rewriteDrop _ l a).trans (State.work_rewriteRoomOf _ _)).trans
      (State.work_tellOwner _ _ _)))
    split
    · exact .refl _
    · exact State.work_admitRequest _ _

theorem State.work_endGo (s : State) (l : Fin 2) (res : Result) (surveyed : Bool) : State.Work .line s (s.endGo l res surveyed) := by
  unfold State.endGo
  split
  · exact .refl s
  · exact (s.work_newLine _ _).trans (State.work_complete _ _ _ _)

theorem State.work_sweepDrops (s : State) (l : Fin 2) (f : Drop → Drop) : State.Work w s (s.sweepDrops l f) :=
  State.Work.foldl (fun u _ => u.work_changeDrop _ _ _ _) _ s

theorem State.work_enterOff (s : State) (l : Fin 2) : State.Work .line s (s.enterOff l) := by
  unfold State.enterOff
  dsimp only
  generalize { s.lines[l] with state := LineState.off } = x
  have swept : State.Work .line s (((s.setLine l x).dispose l).sweepDrops l Drop.off) :=
    ((s.work_newLine l x).trans (State.work_dispose _ l)).trans (State.work_sweepDrops _ l _)
  generalize ((s.setLine l x).dispose l).sweepDrops l Drop.off = u at swept
  have told := ((swept.trans (u.work_setRate l Config.baseRate Config.baseDivisor)).trans (State.work_rewriteSite _))
  exact (told.trans (State.work_admitRequest _ _)).trans (State.work_endGo _ _ _ _)

theorem State.work_chooseExchange (s : State) (l : Fin 2) : State.Work .line s (s.chooseExchange l) := by
  unfold State.chooseExchange
  dsimp only
  split
  · exact s.work_setActivity _ _
  · split
    · exact (s.work_setQueue _ _).trans (State.work_setActivity _ _ _)
    · split
      · exact .refl s
      · exact (s.work_newLine _ _).trans (State.work_setActivity _ _ _)

theorem State.work_pump (s : State) (l : Fin 2) : State.Work .line s (s.pump l) := by
  unfold State.pump
  dsimp only
  split
  · split
    · exact s.work_enterOff _
    · exact s.work_setActivity _ _
    · exact s.work_chooseExchange _
  · exact .refl s

theorem State.work_settle (s : State) : State.Work .line s s.settle := (s.work_pump 0).trans (State.work_pump _ 1)

/-! The second. -/

theorem State.work_secondsReceivers (s : State) : State.Work .wide s s.secondsReceivers :=
  (((State.Work.foldl State.work_tickDoor allDrops s).trans (State.Work.foldl State.work_tickMinibar allRooms _)).trans
    (State.Work.foldl State.work_tickRoom allRooms _)).trans ((State.work_tickEncoder _).trans (State.work_search _))

end Sys2Proof.Machine

namespace Sys2Proof.Machine

open Sys2Proof

/-! ## SET_CLOCK (R9, R10) -/

theorem Clock.isSet_iff (c : Clock) : c.isSet = true ↔ c.state = .running ∨ c.state = .ended := by
  unfold Clock.isSet
  cases c.state <;> simp

theorem Clock.tooFarBack_iff (c : Clock) (minute : Nat) :
    c.tooFarBack minute = true ↔ (c.state = .running ∨ c.state = .ended) ∧ minute + 90 < c.minute := by
  rw [← c.isSet_iff]
  simp [Clock.tooFarBack]

theorem Clock.setRaisesTick_iff (c : Clock) (minute : Nat) : c.setRaisesTick minute = true ↔ c.state = .notSet ∨ c.minute < minute := by
  unfold Clock.setRaisesTick Clock.isSet
  cases c.state <;> simp

/-- What SET_CLOCK does to a clock it takes: the clock and its mirror written, CLOCK_SET asked for, the minute tick of R10. -/
def State.clockTaken (s : State) (minute : Nat) : State :=
  let u := (s.putClock { state := .running, minute := minute, second := 0 }).admitRequest { kind := .clockSet, subject := s.clock.minute }
  if s.clock.setRaisesTick minute then u.minuteTick minute else u

theorem State.keepsBytes_putClock (s : State) (c : Clock) : s.KeepsBytes (s.putClock c) ofSiteMirror :=
  State.keepsBytes_rewriteSite { s with clock := c }

theorem State.setClock_bad (s : State) (h : Held) (hm : 16777214 < leAt h.params 0 3) :
    s.setClock h = s.complete h.block .badParam [] := if_pos hm

theorem State.setClock_fault (s : State) (h : Held) (hm : ¬16777214 < leAt h.params 0 3) (hf : s.crystalFault = true) :
    s.setClock h = s.complete h.block .clockFault [] := by
  simp only [State.setClock, if_neg hm, hf, if_true]

theorem State.setClock_backward (s : State) (h : Held) (hm : ¬16777214 < leAt h.params 0 3) (hf : s.crystalFault = false)
    (hb : s.clock.tooFarBack (leAt h.params 0 3) = true) : s.setClock h = s.complete h.block .clockBackward [] := by
  simp only [State.setClock, if_neg hm, hf, Bool.false_eq_true, if_false, hb, if_true]

theorem State.setClock_taken (s : State) (h : Held) (hm : ¬16777214 < leAt h.params 0 3) (hf : s.crystalFault = false)
    (hb : ¬s.clock.tooFarBack (leAt h.params 0 3) = true) :
    s.setClock h = (s.clockTaken (leAt h.params 0 3)).complete h.block .ok (leBytes 3 s.clock.minute ++ [byteOf s.clock.state.code]) := by
  simp only [State.setClock, if_neg hm, hf, Bool.false_eq_true, if_false, if_neg hb]
  rfl

section
variable (s : State) (minute : Nat)

/-- A clock taken asks for CLOCK_SET and then for the ROUTINE entries of the tick, at the new time. -/
theorem State.clockTaken_reports : ∃ qs, (∀ q ∈ qs, q.kind.isAlarm = false) ∧
    (s.putClock { state := .running, minute := minute, second := 0 }).Reports (s.clockTaken minute) ofRoomMirrors
      ({ kind := .clockSet, subject := s.clock.minute } :: qs) := by
  unfold State.clockTaken
  dsimp only
  have asked := State.reports_admitRequest (s.putClock { state := .running, minute := minute, second := 0 })
    { kind := .clockSet, subject := s.clock.minute } ofRoomMirrors
  split
  · obtain ⟨qs, routine, h⟩ := State.minuteTick_routine
      ((s.putClock { state := .running, minute := minute, second := 0 }).admitRequest { kind := .clockSet, subject := s.clock.minute }) minute
    exact ⟨qs, routine, asked.trans h⟩
  · exact ⟨[], nofun, asked⟩

theorem State.records_setRoomsRevs {s t : State} (h : t.records = s.records) (x : Vector Room 48) (y : List RevEntry) :
    ({ t with rooms := x, revs := y } : State).records = ({ s with rooms := x, revs := y } : State).records :=
  congrArg (fun u : State => ({ u with rooms := x, revs := y } : State)) h

/-- A clock taken writes the clock and, where it raises a minute tick, what the tick reaches (R10, R25, R79). -/
theorem State.clockTaken_records (h : s.clock.setRaisesTick minute = true) :
    (s.clockTaken minute).records = ({ s with
      clock := { state := .running, minute := minute, second := 0 }
      rooms := s.rooms.map (Room.overstayed s.site.checkoutGrace minute)
      revs := s.revs.filter fun e => !e.expired minute } : State).records := by
  unfold State.clockTaken
  dsimp only
  rw [if_pos h]
  have base : ((s.putClock { state := .running, minute := minute, second := 0 }).admitRequest
      { kind := .clockSet, subject := s.clock.minute }).records =
      ({ s with clock := { state := .running, minute := minute, second := 0 } } : State).records := by simp
  generalize ((s.putClock { state := .running, minute := minute, second := 0 }).admitRequest
      { kind := .clockSet, subject := s.clock.minute }) = u at base
  refine (u.minuteTick_records minute).trans ((State.records_setRoomsRevs base _ _).trans ?_)
  rw [State.records_rooms base, State.records_revs base, State.records_site base]

theorem State.clockTaken_records_untouched (h : ¬s.clock.setRaisesTick minute = true) :
    (s.clockTaken minute).records = ({ s with clock := { state := .running, minute := minute, second := 0 } } : State).records := by
  unfold State.clockTaken
  dsimp only
  rw [if_neg h]
  simp

theorem State.clockTaken_records_own : (s.clockTaken minute).records = ({ s with
    clock := { state := .running, minute := minute, second := 0 }
    rooms := (s.clockTaken minute).rooms
    revs := (s.clockTaken minute).revs } : State).records := by
  by_cases h : s.clock.setRaisesTick minute = true
  · have e := s.clockTaken_records minute h
    rw [State.records_rooms e, State.records_revs e]
    exact e
  · have e := s.clockTaken_records_untouched minute h
    rw [State.records_rooms e, State.records_revs e]
    exact e

/-- The site mirror shows the clock taken. -/
theorem State.clockTaken_shows (hm : minute ≤ 16777214) : (s.clockTaken minute).showsClock := by
  let c : Clock := { state := .running, minute := minute, second := 0 }
  have range : (s.putClock c).ClockInv := by
    refine ⟨(by decide : (0 : Nat) < 60), ?_, fun _ => ?_, fun e => nomatch e⟩
    · show minute ≤ 16777215; omega
    · show minute < 16777215; omega
  have work : State.Work .wide (s.putClock c) (s.clockTaken minute) := by
    unfold State.clockTaken
    dsimp only
    split
    · exact (State.work_admitRequest _ _).trans (State.work_minuteTick _ _)
    · exact State.work_admitRequest _ _
  exact work.showsClock range (State.rewriteSite_showsClock { s with clock := c } range)
end

/-- A room's overstay test, said of the room before and after (R25). -/
theorem Room.overstayed_of (grace minute : Nat) (x : Room) (h : x.state = .occupied ∧ x.stayUntil + grace ≤ minute) :
    x.overstayed grace minute = { x with state := .overstay } := if_pos h

theorem Room.overstayed_not (grace minute : Nat) (x : Room) (h : ¬(x.state = .occupied ∧ x.stayUntil + grace ≤ minute)) :
    x.overstayed grace minute = x := if_neg h

theorem overstayed_map (grace minute : Nat) (rooms : Vector Room 48) (r : Fin 48) :
    (rooms.map (Room.overstayed grace minute))[r] = rooms[r].overstayed grace minute := Vector.getElem_map _ _

theorem State.setClock_result (u : State) (b : Fin 16) (c : Clock) (hc : c.minute ≤ 16777215) :
    ((u.complete b .ok (leBytes 3 c.minute ++ [byteOf c.state.code])).chooseOrder).resultAt b 0 3 = c.minute ∧
    ((u.complete b .ok (leBytes 3 c.minute ++ [byteOf c.state.code])).chooseOrder).resultAt b 3 1 = c.state.code := by
  constructor
  · rw [State.chooseOrder_resultAt, State.complete_resultAt _ _ _ _ _ _ (by simp) (by omega)]
    have e : ((leBytes 3 c.minute ++ [byteOf c.state.code]).drop 0).take 3 = leBytes 3 c.minute := rfl
    rw [e, leNat_leBytes]
    exact Nat.mod_eq_of_lt (by omega)
  · rw [State.chooseOrder_resultAt, State.complete_resultAt _ _ _ _ _ _ (by simp) (by omega)]
    cases c.state <;> rfl

/-- Settles O25: the three refusals, and the clock taken with what its minute tick reaches. -/
theorem setClockSetsTheClock : Obligations.SetClockSetsTheClock := by
  intro s b h now range
  have hb : h.block = b := now.block
  have run : exec (.setClock b) s = .next (s.setClock h).chooseOrder := by
    show Host.Outcome.next (s.serve b .setClock State.setClock) = _
    rw [now.serve]; rfl
  have refused (res : Result) (e : s.setClock h = s.complete h.block res []) :
      ∃ t, exec (.setClock b) s = .next t ∧ s.Refuses t b res :=
    ⟨_, run, by rw [e, hb]; exact s.refuses_complete b res []⟩
  dsimp only
  refine ⟨fun hm => refused _ (s.setClock_bad h hm), fun hm hf => refused _ (s.setClock_fault h (by omega) hf),
    fun hm hf back => refused _ (s.setClock_backward h (by omega) hf ((Clock.tooFarBack_iff _ _).2 back)), fun hm hf back => ?_⟩
  rw [s.setClock_taken h (by omega) hf (fun e => back ((Clock.tooFarBack_iff _ _).1 e)), hb] at run
  generalize leAt h.params 0 3 = m at *
  obtain ⟨qs, routine, reports⟩ := s.clockTaken_reports m
  obtain ⟨shown, minute, -⟩ := s.clockTaken_shows m hm
  have ticked := s.clockTaken_records m
  have untouched := s.clockTaken_records_untouched m
  rw [Clock.setRaisesTick_iff] at ticked untouched
  have own := s.clockTaken_records_own m
  generalize s.clockTaken m = u at *
  have keeps := u.keepsBytes_complete b .ok (leBytes 3 s.clock.minute ++ [byteOf s.clock.state.code])
  have clock : u.clock = { state := .running, minute := m, second := 0 } := reports.logs.clock
  obtain ⟨minuteWas, stateWas⟩ := State.setClock_result u b s.clock range.2.1
  have completes := State.completes_complete b .ok (leBytes 3 s.clock.minute ++ [byteOf s.clock.state.code]) reports.held
    (reports.cause (by simpa [EntryKind.isAlarm] using routine))
  have final : (u.complete b .ok (leBytes 3 s.clock.minute ++ [byteOf s.clock.state.code])).chooseOrder.records = u.records := by
    rw [State.chooseOrder_records, State.complete_records]
  have queue : (u.complete b .ok (leBytes 3 s.clock.minute ++ [byteOf s.clock.state.code])).chooseOrder.journal.queue =
    u.journal.queue := rfl
  replace keeps := State.KeepsBytes.chooseOrder keeps
  generalize (u.complete b .ok (leBytes 3 s.clock.minute ++ [byteOf s.clock.state.code])).chooseOrder = t at *
  have fresh : t.clock = { state := .running, minute := m, second := 0 } := (State.records_clock final).trans clock
  refine ⟨t, run, completes, fresh, ?_, fun r => ⟨?_, ?_⟩, ?_, ?_, ?_, minuteWas, stateWas, ?_, ?_, ?_⟩
  · rw [fresh, queue]
    exact reports.logs.queueAfter_prefix
  · rintro ⟨ticks, late⟩
    rw [State.records_rooms final, State.records_rooms (ticked ticks)]
    exact (overstayed_map _ _ _ r).trans (Room.overstayed_of _ _ _ late)
  · intro stays
    rw [State.records_rooms final]
    by_cases ticks : s.clock.state = .notSet ∨ s.clock.minute < m
    · rw [State.records_rooms (ticked ticks)]
      exact (overstayed_map _ _ _ r).trans (Room.overstayed_not _ _ _ fun late => stays ⟨ticks, late⟩)
    · rw [State.records_rooms (untouched ticks)]
  · intro ticks
    rw [State.records_revs final, State.records_revs (ticked ticks)]
  · intro ticks
    rw [State.records_revs final, State.records_revs (untouched ticks)]
  · rw [fresh, State.records_rooms final, State.records_revs final, final]
    exact own
  · rw [keeps _ (by simp [ofResult]; omega), shown, clock]
    rfl
  · have e : t.field 0x444 3 = u.field 0x444 3 := State.field_congr fun x hx _ => keeps x (by simp [ofResult]; omega)
    rw [e, minute, clock]
  · have put := s.keepsBytes_putClock { state := .running, minute := m, second := 0 }
    exact ((put.mono fun x hx => .inr (.inr (.inl hx))).trans (reports.bytes.mono fun x hx => by
      obtain hx | hx | hx := hx
      · exact .inr (.inr (.inr hx))
      · exact .inr (.inl hx)
      · exact .inr (.inr (.inl hx)))).trans (keeps.mono fun x => .inl)

end Sys2Proof.Machine

namespace Sys2Proof.Machine

open Sys2Proof

/-! ## The encoder's part of a second -/

/-- Nothing has changed but the encoder's record, shared RAM with the site mirror's count, the causes and the held orders. -/
def State.ByEncoder (s t : State) : Prop :=
  ∃ e r n c h, t = { s with encoder := e, ram := r, siteCount := n, cause := c, held := h }

theorem State.ByEncoder.refl (s : State) : s.ByEncoder s := ⟨_, _, _, _, _, rfl⟩

theorem State.ByEncoder.trans {s t u : State} (h : s.ByEncoder t) (h' : t.ByEncoder u) : s.ByEncoder u := by
  obtain ⟨e, r, n, c, k, rfl⟩ := h
  obtain ⟨e', r', n', c', k', rfl⟩ := h'
  exact ⟨e', r', n', c', k', rfl⟩

theorem State.byEncoder_setEncoder (s : State) (e : Encoder) : s.ByEncoder (s.setEncoder e) := ⟨_, _, _, _, _, rfl⟩

theorem State.byEncoder_endOrder (s : State) (o : EncOrder) (res : Result) : s.ByEncoder (s.endOrder o res) := ⟨_, _, _, _, _, rfl⟩

theorem State.byEncoder_takeUp (s : State) (o : EncOrder) : s.ByEncoder (s.takeUp o) := by
  unfold State.takeUp
  dsimp only
  split <;> exact ⟨_, _, _, _, _, rfl⟩

theorem State.byEncoder_arbitrate (fuel : Nat) (s : State) : s.ByEncoder (State.arbitrate fuel s) := by
  induction fuel generalizing s with
  | zero => exact .refl s
  | succ fuel ih =>
    unfold State.arbitrate
    split
    · exact .refl s
    · split
      · exact .refl s
      · dsimp only
        split
        · exact (s.byEncoder_takeUp _).trans (State.byEncoder_setEncoder _ _)
        · exact ((s.byEncoder_takeUp _).trans (State.byEncoder_endOrder _ _ _)).trans (ih _)

theorem State.byEncoder_encoderStep {s : State} {f : State → State} (h : s.ByEncoder (f s)) : s.ByEncoder (s.encoderStep f) := by
  obtain ⟨m, n, e⟩ := s.encoderStep_changes f
  rw [e]
  exact h.trans ⟨_, _, _, _, _, rfl⟩

theorem State.byEncoder_tickEncoder (s : State) : s.ByEncoder s.tickEncoder := by
  unfold State.tickEncoder
  split
  · exact .refl s
  · split
    · exact .refl s
    · split
      · exact State.byEncoder_encoderStep ((s.byEncoder_endOrder _ _).trans (State.byEncoder_arbitrate _ _))
      · exact s.byEncoder_setEncoder _

/-- The seconds tick's part before the encoder: the doors, the minibars, the rooms. -/
def State.tickTables (s : State) : State := allRooms.foldl State.tickRoom (allRooms.foldl State.tickMinibar (allDrops.foldl State.tickDoor s))

theorem State.secondsReceivers_eq (s : State) : s.secondsReceivers = s.tickTables.tickEncoder.search := by
  unfold State.secondsReceivers State.tickTables
  dsimp only

theorem State.work_tickTables {w : Breadth} (s : State) : State.Work w s s.tickTables := by
  unfold State.tickTables
  exact ((State.Work.foldl State.work_tickDoor allDrops s).trans (State.Work.foldl State.work_tickMinibar allRooms _)).trans
    (State.Work.foldl State.work_tickRoom allRooms _)

theorem State.tickEncoder_revs (s : State) : s.tickEncoder.revs = s.revs := by
  obtain ⟨e, r, n, c, h, eq⟩ := s.byEncoder_tickEncoder
  rw [eq]

theorem State.search_revs (s : State) : s.search.revs = s.revs := State.records_revs s.search_records

/-- No seconds tick changes the Revocation List. -/
theorem State.secondsReceivers_revs (s : State) : s.secondsReceivers.revs = s.revs :=
  calc s.secondsReceivers.revs
    _ = s.tickTables.tickEncoder.search.revs := congrArg State.revs s.secondsReceivers_eq
    _ = s.tickTables.tickEncoder.revs := State.search_revs _
    _ = s.tickTables.revs := State.tickEncoder_revs _
    _ = s.revs := State.Work.revs s.work_tickTables (w := .calm) nofun

/-! ## The clock moved by a second (R4, R5) -/

theorem Clock.addMinutes_of_ne (c : Clock) (n : Nat) (h : c.state ≠ .running) : c.addMinutes n = c := if_pos h

theorem Clock.addMinutes_zero (c : Clock) (h : c.state = .running → c.minute < 16777215) : c.addMinutes 0 = c := by
  by_cases run : c.state = .running
  · unfold Clock.addMinutes
    rw [if_neg (not_not_intro run), if_pos (show c.minute + 0 < Config.lastMinute from h run)]
    rfl
  · exact c.addMinutes_of_ne 0 run

theorem Clock.addMinutes_one (c : Clock) (run : c.state = .running) (h : c.minute < 16777215) :
    c.addMinutes 1 = { state := if c.minute + 1 = 16777215 then .ended else .running, minute := c.minute + 1, second := c.second } := by
  unfold Clock.addMinutes
  rw [if_neg (not_not_intro run)]
  by_cases last : c.minute + 1 = 16777215
  · rw [if_neg (show ¬c.minute + 1 < Config.lastMinute from fun e => by unfold Config.lastMinute at e; omega), if_pos last, last]
    rfl
  · rw [if_pos (show c.minute + 1 < Config.lastMinute by unfold Config.lastMinute; omega), if_neg last, ← run]

theorem Clock.addSeconds_one (c : Clock) (h : c.second < 60) (hm : c.state = .running → c.minute < 16777215) :
    c.addSeconds 1 = c.nextSecond := by
  unfold Clock.addSeconds Clock.nextSecond
  by_cases hs : c.second < 59
  · rw [if_pos hs, Nat.div_eq_of_lt (by omega), Nat.mod_eq_of_lt (by omega), Clock.addMinutes_zero { c with second := c.second + 1 } hm]
  · have wrap : c.second + 1 = 60 := by omega
    rw [if_neg hs, wrap]
    by_cases run : c.state = .running
    · rw [if_pos run]
      exact Clock.addMinutes_one { c with second := 0 } run (hm run)
    · rw [if_neg run]
      exact Clock.addMinutes_of_ne { c with second := 0 } 1 run

theorem State.ClockInv.addSeconds_one {s : State} (h : s.ClockInv) : s.clock.addSeconds 1 = s.clock.nextSecond :=
  s.clock.addSeconds_one h.1 h.2.2.1

/-- The clock a second later stays in its ranges. -/
theorem State.ClockInv.nextSecond {s : State} (h : s.ClockInv) : (s.putClock s.clock.nextSecond).ClockInv := by
  obtain ⟨hs, hm, hr, he⟩ := h
  show s.clock.nextSecond.second < 60 ∧ s.clock.nextSecond.minute ≤ 16777215 ∧
    (s.clock.nextSecond.state = .running → s.clock.nextSecond.minute < 16777215) ∧
    (s.clock.nextSecond.state = .ended → s.clock.nextSecond.minute = 16777215)
  unfold Clock.nextSecond
  split
  · next early => exact ⟨by dsimp only; omega, hm, hr, he⟩
  · split
    · next run =>
      have := hr run
      dsimp only
      split <;> simp <;> omega
    · exact ⟨(by decide : (0 : Nat) < 60), hm, hr, he⟩

/-- The part of a running second before its receivers: the clock, its mirror, CLOCK_END (R4, R5). -/
def State.secondBegins (s : State) : State :=
  let u := s.putClock (s.clock.addSeconds 1)
  if s.clock.state = .running ∧ u.clock.state = .ended then u.admitRequest { kind := .clockEnd } else u

theorem State.tickRunning_eq (s : State) : s.tickRunning =
    (if s.clock.wraps then s.secondBegins.secondsReceivers.minuteTick s.secondBegins.secondsReceivers.clock.minute
      else s.secondBegins.secondsReceivers).settle := by
  unfold State.tickRunning State.secondBegins
  dsimp only

theorem State.work_secondBegins (s : State) : State.Work .wide (s.putClock (s.clock.addSeconds 1)) s.secondBegins := by
  unfold State.secondBegins
  dsimp only
  split
  · exact State.work_admitRequest _ _
  · exact .refl _

theorem State.work_tickRunning (s : State) : State.Work .wide (s.putClock (s.clock.addSeconds 1)) s.tickRunning := by
  have begins := s.work_secondBegins.trans (State.work_secondsReceivers _)
  rw [s.tickRunning_eq]
  split
  · exact (begins.trans (State.work_minuteTick _ _)).trans (State.work_settle _).wide
  · exact begins.trans (State.work_settle _).wide

/-- After a second that wraps a running clock no entry stands that its new minute has expired, and no other is lost. -/
theorem State.tickRunning_revs (s : State) : s.tickRunning.revs =
    if s.clock.wraps then s.revs.filter fun e => !e.expired (s.clock.addSeconds 1).minute else s.revs := by
  have kept : s.secondBegins.secondsReceivers.revs = s.revs := by
    rw [State.secondsReceivers_revs]
    unfold State.secondBegins
    dsimp only
    split
    · exact State.records_revs (t := State.admitRequest _ _) (s := s.putClock _) (State.admitRequest_records _ _)
    · rfl
  have clock : s.secondBegins.secondsReceivers.clock = s.clock.addSeconds 1 :=
    (s.work_secondBegins.trans (State.work_secondsReceivers _)).clock
  rw [s.tickRunning_eq, (State.work_settle _).revs nofun, clock]
  generalize s.secondBegins.secondsReceivers = u at kept
  split
  · rw [State.records_revs (u.minuteTick_records _), kept]
  · exact kept

/-- In the second that ends the clock, CLOCK_END is asked for before any other entry. -/
theorem State.tickRunning_clockEnd (s : State) (h : s.clock.state = .running) (e : (s.clock.addSeconds 1).state = .ended) :
    (s.putClock (s.clock.addSeconds 1)).queueAfter { kind := .clockEnd } <+: s.tickRunning.journal.queue := by
  have begins : s.secondBegins = (s.putClock (s.clock.addSeconds 1)).admitRequest { kind := .clockEnd } := if_pos ⟨h, e⟩
  have first := (State.logs_admitRequest (s.putClock (s.clock.addSeconds 1)) { kind := .clockEnd }).queueAfter_prefix
  rw [← begins] at first
  have rest : State.Work .wide s.secondBegins s.tickRunning := by
    rw [s.tickRunning_eq]
    split
    · exact ((State.work_secondsReceivers _).trans (State.work_minuteTick _ _)).trans (State.work_settle _).wide
    · exact (State.work_secondsReceivers _).trans (State.work_settle _).wide
  exact first.trans rest.queue_prefix

theorem State.exec_secondsTick (s : State) : exec .secondsTick s = .next s.tickSecond := rfl

/-- With nothing that counts the seconds no tick is delivered (R7). -/
theorem State.tickSecond_stopped (s : State) (h : s.counting = false) : s.tickSecond = s := by
  simp [State.tickSecond, h]

theorem State.tickSecond_ready (s : State) (hr : s.ready = true) (hc : s.counting = true) : s.tickSecond = s.tickRunning := by
  simp [State.tickSecond, hr, hc]

theorem State.tickSecond_unready (s : State) (hr : s.ready = false) (hc : s.counting = true) : s.tickSecond = s.tickUnready := by
  simp [State.tickSecond, hr, hc]

/-- A crystal that has stopped stops every count that follows the seconds (R7). -/
theorem State.stopped (s : State) (h : s.counting = false) :
    exec .secondsTick s = .next s ∧ exec .clockEnd s = .next s ∧ exec .cardWaitExpiry s = .next s ∧
      (∀ r, exec (.departingWaitExpiry r) s = .next s ∧ exec (.minibarDeadlineExpiry r) s = .next s ∧
        exec (.scanExpiry r) s = .next s) ∧
      ∀ l a, exec (.grantDeadlineExpiry l a) s = .next s ∧ exec (.doorHeld l a) s = .next s := by
  have ticks : s.ticks = false := by simp [State.ticks, h]
  have second := s.tickSecond_stopped h
  refine ⟨by rw [State.exec_secondsTick, second], ?_, ?_, fun r => ⟨?_, ?_, ?_⟩, fun l a => ⟨?_, ?_⟩⟩
  · show Host.Outcome.next (if _ then _ else _) = _
    rw [second, ite_self]
  · show execCardWaitExpiry s = _
    simp [execCardWaitExpiry, ticks]
  · show execDepartingWaitExpiry r s = _
    simp [execDepartingWaitExpiry, ticks]
  · show execMinibarDeadlineExpiry r s = _
    simp [execMinibarDeadlineExpiry, ticks]
  · show execScanExpiry r s = _
    simp [execScanExpiry, ticks]
  · show execGrantDeadlineExpiry l a s = _
    simp [execGrantDeadlineExpiry, ticks]
  · show execDoorHeld l a s = _
    simp [execDoorHeld, ticks]

/-- Before READY a second moves the clock alone, and the site mirror where the start has written it (R4, R8). -/
theorem State.unready_second (s : State) (hr : s.ready = false) (hc : s.counting = true) (inv : s.ClockInv) :
    (s.mirrorsStand = true → exec .secondsTick s = .next (s.putClock s.clock.nextSecond)) ∧
    (s.mirrorsStand = false → exec .secondsTick s = .next { s with clock := s.clock.nextSecond }) := by
  rw [State.exec_secondsTick, s.tickSecond_unready hr hc, State.tickUnready, inv.addSeconds_one]
  constructor <;> intro h <;> simp [h]

/-- Settles O18: the clock's second before READY, in a part that runs, at its end, and with the crystal stopped. -/
theorem secondMovesTheClock : Obligations.SecondMovesTheClock := by
  refine ⟨fun s => ⟨rfl, fun hr hf => s.stopped (by simp [State.counting, hr, hf])⟩, fun s hr hc inv => ⟨fun stand => ?_, fun gone => ?_⟩,
    fun s hr hc inv => ⟨?_, fun last revs => ?_⟩⟩
  · exact ⟨_, (s.unready_second hr hc inv).1 stand, rfl, State.rewriteSite_showsClock _ inv.nextSecond, State.rewriteSite_showsCount _,
      s.keepsBytes_putClock _⟩
  · exact (s.unready_second hr hc inv).2 gone
  · have work := s.work_tickRunning
    rw [inv.addSeconds_one] at work
    refine ⟨s.tickRunning, by rw [State.exec_secondsTick, s.tickSecond_ready hr hc], work.clock, ?_, work.beyondTime.1⟩
    exact work.showsClock inv.nextSecond (State.rewriteSite_showsClock _ inv.nextSecond)
  · have next : s.clock.addSeconds 1 = { state := .ended, minute := 16777215, second := 0 } := by rw [last]; rfl
    have run : exec .clockEnd s = .next s.tickRunning := by
      rw [← s.tickSecond_ready hr hc]
      show Host.Outcome.next (if _ then _ else _) = _
      rw [if_pos ⟨hr, by rw [last], by rw [last]; rfl, by rw [last]⟩]
    have clock : s.tickRunning.clock = s.clock.addSeconds 1 := s.work_tickRunning.clock
    refine ⟨_, run, clock.trans next, ?_, fun n u hu => ?_⟩
    · rw [clock]
      exact s.tickRunning_clockEnd (by rw [last]) (by rw [next])
    · rw [s.tickRunning_revs, if_pos (by rw [last]; rfl), next] at hu
      obtain ⟨old, alive⟩ := List.mem_filter.1 hu
      obtain ⟨-, -, bound⟩ := revs.2.2 _ old
      simp [RevEntry.expired] at alive
      omega

end Sys2Proof.Machine

namespace Sys2Proof.Machine

open Sys2Proof

/-! ## Shared RAM with no order and no descriptor in it -/

/-- The order blocks and the descriptors are all 0, as a start leaves them (R177). -/
def State.Unarmed (s : State) : Prop := ∀ x, x < 0x440 → s.byte x = 0

theorem State.Unarmed.keeps {s t : State} {part : Nat → Prop} (h : s.Unarmed) (hk : s.KeepsBytes t part)
    (far : ∀ x, part x → 0x440 ≤ x) : t.Unarmed := fun x hx => by
  rw [hk x fun e => by have := far x e; omega]
  exact h x hx

theorem State.Unarmed.of_ram {s t : State} (h : s.Unarmed) (e : t.ram = s.ram) : t.Unarmed :=
  h.keeps (State.KeepsBytes.of_ram e fun _ => False) nofun

/-- With no descriptor armed, no search writes anything (R160). -/
theorem State.Unarmed.searchAt {s : State} (h : s.Unarmed) (d : Fin 4) : s.searchAt d = s := by
  have idle : s.byte (descriptorAddr d) ≠ DescriptorState.armed.code := by
    rw [h _ (by unfold descriptorAddr; omega)]
    decide
  unfold State.searchAt
  dsimp only
  rw [if_pos idle, ite_self]

theorem State.Unarmed.search {s : State} (h : s.Unarmed) : s.search = s := by
  unfold State.search
  dsimp only
  rw [h.searchAt, h.searchAt, h.searchAt, h.searchAt, ite_self]

theorem State.Unarmed.rewriteSite {s : State} (h : s.Unarmed) : s.rewriteSite.Unarmed :=
  h.keeps s.keepsBytes_rewriteSite fun _ e => e.1

theorem State.Unarmed.rewriteRoom {s : State} (h : s.Unarmed) (r : Fin 48) : (s.rewriteRoom r).Unarmed :=
  h.keeps (s.keepsBytes_rewriteRoom r) fun _ e => by have := ofRoomMirror_range e; omega

theorem State.Unarmed.admitOne {s : State} (h : s.Unarmed) (q : Request) : (s.admitOne q).Unarmed := by
  unfold State.admitOne
  dsimp only
  have written (j : Journal) : ({ s with journal := j } : State).Unarmed := h.of_ram rfl
  have caused (j : Journal) : (({ s with journal := j } : State).setCause causeAlarm).Unarmed := h.of_ram rfl
  split
  · rw [(caused _).search]
    split <;> exact h.of_ram rfl
  · rw [(written _).search]
    split <;> exact h.of_ram rfl

theorem State.Unarmed.admitRequest {s : State} (h : s.Unarmed) (q : Request) : (s.admitRequest q).Unarmed := by
  have gap : s.admitGap.Unarmed := by
    unfold State.admitGap
    dsimp only
    split
    · exact State.Unarmed.admitOne (s := { s with journal := { s.journal with gap := 0 } }) (h.of_ram rfl) _
    · exact h
  have take : (s.takeRequest q).Unarmed := by
    unfold State.takeRequest
    dsimp only
    split
    · exact gap.admitOne q
    · exact gap.of_ram rfl
  unfold State.admitRequest
  dsimp only
  split
  · exact take
  · exact take.rewriteSite

theorem State.Unarmed.putRoom {s : State} (h : s.Unarmed) (r : Fin 48) (x : Room) : (s.putRoom r x).Unarmed := by
  unfold State.putRoom
  dsimp only
  split
  · exact h.of_ram rfl
  · exact State.Unarmed.rewriteRoom (s := { s with rooms := s.rooms.set r x }) (h.of_ram rfl) r

theorem State.Unarmed.minuteTick {s : State} (h : s.Unarmed) (minute : Nat) : (s.minuteTick minute).Unarmed := by
  have tests : (allRooms.foldl (State.overstayTest minute) s).Unarmed := foldl_keeps (I := State.Unarmed) (fun u r hu => by
    unfold State.overstayTest
    dsimp only
    split
    · exact (hu.putRoom r _).admitRequest _
    · exact hu) allRooms h
  unfold State.minuteTick State.prune
  generalize allRooms.foldl (State.overstayTest minute) s = u at tests
  exact foldl_keeps (I := State.Unarmed) (fun u e hu => hu.admitRequest _) _ (State.Unarmed.of_ram tests rfl)

/-! ## The steps of a start -/

/-- Writing every mirror leaves the rest. -/
theorem State.writeMirrors_changes (s : State) :
    ∃ m n k, s.writeMirrors = { s with ram := m, siteCount := n, roomCounts := k, mirrorsStand := true } := by
  have h : ∃ m n k, allRooms.foldl State.rewriteRoom s.rewriteSite = { s with ram := m, siteCount := n, roomCounts := k } :=
    foldl_keeps (I := fun u : State => ∃ m n k, u = { s with ram := m, siteCount := n, roomCounts := k })
      (fun u r hu => by obtain ⟨m, n, k, rfl⟩ := hu; exact ⟨_, _, _, rfl⟩) allRooms ⟨_, _, _, rfl⟩
  obtain ⟨m, n, k, e⟩ := h
  exact ⟨m, n, k, by rw [State.writeMirrors, e]⟩

theorem State.Unarmed.writeMirrors {s : State} (h : s.Unarmed) : s.writeMirrors.Unarmed := by
  have mirrors : (allRooms.foldl State.rewriteRoom s.rewriteSite).Unarmed :=
    foldl_keeps (I := State.Unarmed) (fun _ r hu => hu.rewriteRoom r) allRooms h.rewriteSite
  unfold State.writeMirrors
  generalize allRooms.foldl State.rewriteRoom s.rewriteSite = u at mirrors
  exact mirrors.of_ram rfl

theorem State.unarmed_cleared (s : State) : ({ s with ram := s.ram.clear 0 0xB00 } : State).Unarmed := fun x hx => by
  show (s.ram.clear 0 0xB00).read x = 0
  rw [Memory.read_clear, if_neg (by omega)]

theorem State.restores_unarmed (s : State) : s.restores.Unarmed := by
  unfold State.restores
  exact (State.unarmed_cleared _).writeMirrors

/-- With the journal empty, the START entry is its first (R166). -/
theorem State.startEntry_first {s : State} (h : s.Unarmed) (hj : s.journal = Journal.cold) :
    s.startEntry = ({ s with journal := { Journal.cold with
      queue := [s.entryWith 0 { kind := .start, value := s.startFlags.toNat * 256 + s.selfTest.code }], sequence := 1 } } : State).rewriteSite := by
  have gap : s.admitGap = s := if_neg (by rw [hj]; decide)
  have take : s.takeRequest { kind := .start, value := twoItems s.startFlags.toNat s.selfTest.code } =
      { s with journal := { Journal.cold with
          queue := [s.entryWith 0 { kind := .start, value := s.startFlags.toNat * 256 + s.selfTest.code }], sequence := 1 } } := by
    unfold State.takeRequest
    dsimp only
    rw [gap, if_pos (by rw [hj]; decide)]
    unfold State.admitOne
    dsimp only
    have quiet (j : Journal) : ({ s with journal := j } : State).search = { s with journal := j } := State.Unarmed.search (h.of_ram rfl)
    have calm : ¬(EntryKind.start.isAlarm = true) := by decide
    rw [if_neg calm, quiet, if_neg (by rw [hj]; simp [Journal.cold])]
    simp only [State.entryOf, State.entryWith, twoItems, hj]
    rfl
  unfold State.startEntry State.admitRequest
  dsimp only
  rw [take, if_neg (by rw [hj]; simp [Journal.cold])]

/-- The state a start hands to its step 2: its beginning and its self-test, shared RAM being good (R176, R177). -/
def State.tested (s : State) (k : StartKind) (f : Findings) (elapsed : Nat) : State := (s.begins k elapsed).selfTests k f

/-- A start run to its end whose shared RAM is good. -/
theorem State.start_whole (s : State) (k : StartKind) (f : Findings) (elapsed : Nat) (ram : f.ramOk = true) :
    s.start k f { seconds := elapsed, reach := .ended } =
      ((if (s.tested k f elapsed).tableCheck then (s.tested k f elapsed).departing else []).foldl State.restartEntry
        (s.tested k f elapsed).restores.startEntry).endStart := by
  have good : ¬((k.testsRam && !f.ramOk) = true) := by simp [ram]
  unfold State.start State.tested
  dsimp only
  rw [if_neg (by decide), if_neg good, if_neg (by decide), if_neg (by decide), if_neg (by decide)]

end Sys2Proof.Machine

namespace Sys2Proof.Machine

open Sys2Proof

/-! ## Starts that write the battery domain anew (R177) -/

theorem Drop.restart_fresh (d : Drop) : d.restart.Fresh := by
  refine ⟨rfl, rfl, rfl, rfl, rfl, ?_⟩
  have binding : d.restart.binding = d.binding := rfl
  rw [binding]
  unfold Drop.restart
  cases d.binding with
  | none => rfl
  | some b => cases b <;> rfl

theorem Line.restart_drop (x : Line) (a : Fin 64) : x.restart.drops[a] = x.drops[a].restart := Vector.getElem_map _ _

theorem Line.restart_cold : Line.cold.restart = Line.cold := by
  have drops : (Vector.replicate 64 Drop.cold).map Drop.restart = Vector.replicate 64 Drop.cold := by
    rw [Vector.map_replicate]
    rfl
  unfold Line.restart
  rw [show Line.cold.drops.map Drop.restart = Line.cold.drops from drops]

/-- A part whose main domain is at its start values (R47, R84, R101, R134, R141, R168, R177). -/
theorem State.mainFresh_of {t : State} (fields : t.powered = true ∧ t.mask = 0 ∧ t.latch = false ∧ t.held = [] ∧ t.engine = none ∧
    t.intakeNext = 0 ∧ t.encoder = Encoder.cold ∧ t.lastDeny = Vector.replicate 48 none)
    (lines : ∀ l : Fin 2, ∃ x : Line, t.lines[l] = x.restart) : t.MainFresh := by
  obtain ⟨powered, mask, latch, held, engine, intake, encoder, deny⟩ := fields
  refine ⟨powered, mask, latch, held, engine, intake, encoder, deny, fun l => ?_⟩
  obtain ⟨x, e⟩ := lines l
  refine ⟨by rw [e]; rfl, by rw [e]; rfl, by rw [e]; rfl, by rw [e]; rfl, by rw [e]; rfl, by rw [e]; rfl, by rw [e]; rfl, fun a => ?_⟩
  have drop : t.drop l a = x.drops[a].restart := by
    rw [← x.restart_drop a, ← e]
    rfl
  rw [drop]
  exact Drop.restart_fresh _

theorem line_cold_restarted (l : Fin 2) : ∃ x : Line, (Vector.replicate 2 Line.cold)[l] = x.restart :=
  ⟨Line.cold, by rw [Line.restart_cold]; exact Vector.getElem_replicate _⟩

/-- The state a start that finds no tables leaves after its step 2, but for the mirrors. -/
def State.emptied (s : State) : State := { s.batteryCold with ram := s.ram.clear 0 0xB00 }

/-- A start that finds no tables, run to its end: the mirrors, the START entry, READY and START (R177). -/
theorem State.start_without_tables (s : State) (k : StartKind) (f : Findings) (elapsed : Nat) (ram : f.ramOk = true)
    (lost : (s.tested k f elapsed).tableCheck = false) (u : State) (mirrors : (s.tested k f elapsed).emptied.writeMirrors = u) :
    s.start k f { seconds := elapsed, reach := .ended } =
      { ({ u with journal := { Journal.cold with
            queue := [u.entryWith 0 { kind := .start, value := u.startFlags.toNat * 256 + u.selfTest.code }], sequence := 1 } } : State).rewriteSite
        with ready := true, cause := causeStart } := by
  have restores : (s.tested k f elapsed).restores = u := by
    rw [← mirrors, State.restores, lost]
    rfl
  have unarmed : u.Unarmed := restores ▸ State.restores_unarmed _
  obtain ⟨m, n, c, e⟩ := (s.tested k f elapsed).emptied.writeMirrors_changes
  rw [mirrors] at e
  have first := State.startEntry_first unarmed (by rw [e]; rfl)
  have still : ¬ u.startEntry.clock.state = .running := by
    rw [first, e]
    exact fun h => nomatch h
  rw [s.start_whole k f elapsed ram, lost, restores]
  show u.startEntry.endStart = _
  unfold State.endStart
  dsimp only
  rw [if_neg still, first]

/-- A SUPPLY, PIN or SOFT start whose shared RAM is good, run to its end, with the flag it adds (R176). -/
theorem State.start_kind {s : State} {tablesOk crystalOk : Bool} {elapsed : Nat} {c : Instr} {flag : BitVec 4}
    (starts : (c = .supplyStart true tablesOk crystalOk { seconds := elapsed, reach := .ended } ∧ flag = 2) ∨
      (c = .pinStart tablesOk crystalOk { seconds := elapsed, reach := .ended } ∧ flag = 4 ∧ s.powered = true) ∨
      ∃ v : Half, c = .softReset v tablesOk crystalOk { seconds := elapsed, reach := .ended } ∧ flag = 8 ∧ s.powered = true ∧
        v.getLsbD 0 = true) :
    ∃ k : StartKind, k ≠ .cold ∧ k.flags s.startFlags = s.startFlags ||| flag ∧
      exec c s = .next (s.start k { ramOk := true, tablesOk := tablesOk, crystalOk := crystalOk } { seconds := elapsed, reach := .ended }) := by
  obtain ⟨rfl, rfl⟩ | ⟨rfl, rfl, powered⟩ | ⟨v, rfl, rfl, powered, soft⟩ := starts
  · exact ⟨.supply, by decide, rfl, rfl⟩
  · exact ⟨.pin, by decide, rfl, congrArg Host.Outcome.next (if_pos powered)⟩
  · exact ⟨.soft, by decide, rfl, congrArg Host.Outcome.next (if_pos (by rw [powered, soft]; rfl))⟩

/-- Settles O16, field by field of the state such a start leaves. -/
theorem startWithTablesLost : Obligations.StartWithTablesLost := by
  intro s tablesOk crystalOk elapsed c flag lost
  dsimp only
  intro starts
  obtain ⟨k, hk, flags, run⟩ := State.start_kind starts
  have check : (s.tested k { ramOk := true, tablesOk := tablesOk, crystalOk := crystalOk } elapsed).tableCheck = false := by
    show ((s.tableCheck && decide (k ≠ .cold)) && tablesOk) = false
    rw [decide_eq_true hk, Bool.and_true, lost]
  have code : (s.tested k { ramOk := true, tablesOk := tablesOk, crystalOk := crystalOk } elapsed).selfTest = .tablesLost := by
    show codeOf (decide (k ≠ .cold) && !((s.tableCheck && decide (k ≠ .cold)) && tablesOk)) crystalOk = _
    rw [decide_eq_true hk, Bool.and_true, lost]
    rfl
  have whole := s.start_without_tables k _ elapsed rfl check _ rfl
  obtain ⟨m, n, r, e⟩ := (s.tested k { ramOk := true, tablesOk := tablesOk, crystalOk := crystalOk } elapsed).emptied.writeMirrors_changes
  rw [e] at whole
  rw [whole] at run
  exact ⟨_, run, State.mainFresh_of ⟨rfl, rfl, rfl, rfl, rfl, rfl, rfl, rfl⟩ line_cold_restarted, rfl, rfl, rfl, flags, code, rfl, rfl, rfl, rfl,
    rfl, rfl, rfl, rfl, rfl, rfl⟩

end Sys2Proof.Machine

namespace Sys2Proof.Machine

open Sys2Proof

/-! ## The mirrors a COLD start writes (R174, R177) -/

/-- Bytes written past every cell are added to them. -/
theorem Memory.write_past (m : Memory) (a : Nat) (bs : List Byte) (h : ∀ c ∈ m, c.1 < a) : m.write a bs = m ++ cellsOf a bs := by
  unfold Memory.write
  rw [List.filter_eq_self.2 fun c hc => decide_eq_true (h c hc),
    List.filter_eq_nil_iff.2 fun c hc => by have := h c hc; simp; omega, List.append_nil]

/-- The records a room mirror shows are at their COLD values. -/
def State.Blank (s : State) : Prop :=
  s.rooms = Vector.replicate 48 Room.cold ∧ s.minibars = Vector.replicate 48 Minibar.cold ∧ s.lastDeny = Vector.replicate 48 none ∧
    s.revs = [] ∧ s.lines = Vector.replicate 2 Line.cold

/-- A blank room's mirror: count 2, and presence 4 for each of its two drops. -/
def blankMirror : List Byte := [2] ++ List.replicate 24 0 ++ [4, 0, 4] ++ List.replicate 4 0

theorem State.Blank.findDrop {s : State} (h : s.Blank) (b : Binding) : s.findDrop b = none := by
  refine List.find?_eq_none.2 fun p _ => ?_
  have line : s.lines[p.1] = Line.cold := by rw [h.2.2.2.2]; exact Vector.getElem_replicate _
  have drop : s.drop p.1 p.2 = Drop.cold := by
    show s.lines[p.1].drops[p.2] = _
    rw [line]
    exact Vector.getElem_replicate _
  rw [drop]
  simp [Drop.cold]

theorem State.Blank.roomMirror {s : State} (h : s.Blank) (r : Fin 48) (count : s.roomCounts[r] = 2) : s.roomMirror r = blankMirror := by
  obtain ⟨rooms, minibars, deny, revs, -⟩ := id h
  have room : s.rooms[r] = Room.cold := by rw [rooms]; exact Vector.getElem_replicate _
  have minibar : s.minibars[r] = Minibar.cold := by rw [minibars]; exact Vector.getElem_replicate _
  have lastDeny : s.lastDeny[r] = none := by rw [deny]; exact Vector.getElem_replicate _
  have mask : revokedMask [] r = 0 := rfl
  simp only [State.roomMirror, State.doorOf, State.minibarDropOf, h.findDrop, room, minibar, lastDeny, revs, count, mask, State.shownPresence,
    State.shownDoor]
  decide

/-- The cells of a blank room's mirror. -/
def blankCells (r : Fin 48) : Memory := [(0x480 + 32 * r.val, 2), (0x480 + 32 * r.val + 25, 4), (0x480 + 32 * r.val + 27, 4)]

theorem cellsOf_blankMirror (r : Fin 48) : cellsOf (roomMirrorAddr r) blankMirror = blankCells r := by
  simp [cellsOf, blankMirror, blankCells, roomMirrorAddr, List.replicate]

/-- A blank room's mirror written past every cell, its count being 0. -/
theorem State.Blank.rewriteRoom {s : State} (h : s.Blank) (r : Fin 48) (count : s.roomCounts[r] = 0)
    (past : ∀ c ∈ s.ram, c.1 < roomMirrorAddr r) :
    s.rewriteRoom r = { s with ram := s.ram ++ blankCells r, roomCounts := s.roomCounts.set r 2 } := by
  have two : s.roomCounts[r] + 2 = 2 := by rw [count]; decide
  have mirror : ({ s with roomCounts := s.roomCounts.set r 2 } : State).roomMirror r = blankMirror :=
    State.Blank.roomMirror (s := { s with roomCounts := s.roomCounts.set r 2 }) h r (vector_set_same _ _ _)
  unfold State.rewriteRoom State.store
  dsimp only
  rw [two, mirror, Memory.write_past _ _ _ past, cellsOf_blankMirror]

/-- The mirrors of blank rooms, written by rising index past every cell. -/
theorem State.Blank.foldl_rewriteRoom (rs : List (Fin 48)) (rising : rs.Pairwise (· < ·)) {s : State} (h : s.Blank)
    (counts : ∀ r ∈ rs, s.roomCounts[r] = 0) (past : ∀ r ∈ rs, ∀ c ∈ s.ram, c.1 < roomMirrorAddr r) :
    rs.foldl State.rewriteRoom s =
      { s with ram := s.ram ++ rs.flatMap blankCells, roomCounts := rs.foldl (fun (k : Vector Half 48) (r : Fin 48) => k.set r 2) s.roomCounts } := by
  induction rs generalizing s with
  | nil => simp
  | cons r rs ih =>
    obtain ⟨first, rest⟩ := List.pairwise_cons.1 rising
    rw [List.foldl_cons, h.rewriteRoom r (counts r List.mem_cons_self) (past r List.mem_cons_self)]
    rw [ih rest (s := { s with ram := s.ram ++ blankCells r, roomCounts := s.roomCounts.set r 2 }) h (fun k hk => ?_) fun k hk c hc => ?_]
    · simp
    · exact (vector_set_ne _ _ (first k hk).ne').trans (counts k (List.mem_cons_of_mem _ hk))
    · obtain hc | hc := List.mem_append.1 hc
      · exact past k (List.mem_cons_of_mem _ hk) c hc
      · have := first k hk
        simp only [blankCells, List.mem_cons, List.not_mem_nil, or_false] at hc
        obtain rfl | rfl | rfl := hc <;> dsimp only [roomMirrorAddr] <;> omega

/-- The part emptied by a COLD start that finds nothing wrong, before its mirrors: the state after reset but for what the mirrors and the
START entry make of it. -/
def State.blank (s : State) : State :=
  { State.reset with
    pending := s.pending, freeCount := s.freeCount, ready := false, cause := 0, ram := [], mirrorsStand := false, siteCount := 0
    roomCounts := Vector.replicate 48 0, journal := Journal.cold }

theorem State.tested_cold (s : State) :
    (s.tested .cold { ramOk := true, tablesOk := true, crystalOk := true } 0).emptied = s.blank := rfl

/-- The cells of the site mirror a COLD start writes first. -/
def blankSite : Memory :=
  [(0x440, 2), (0x44A, 0x80), (0x44B, 0x25), (0x44E, 0x80), (0x44F, 0x25), (0x452, 0x80), (0x453, 0x25), (0x456, 0x80), (0x457, 0x25),
   (0x460, 1)]

theorem State.blank_rewriteSite (s : State) : s.blank.rewriteSite = { s.blank with siteCount := 2, ram := blankSite } := by
  have cells : Memory.write [] 0x440 ({ State.reset with siteCount := 2, journal := Journal.cold } : State).siteMirror = blankSite := by
    decide +kernel
  have e : s.blank.rewriteSite = { s.blank with
      siteCount := 2, ram := Memory.write [] 0x440 ({ State.reset with siteCount := 2, journal := Journal.cold } : State).siteMirror } := rfl
  rw [e, cells]

/-- Shared RAM after a COLD start's step 2. -/
def blankRam : Memory := blankSite ++ allRooms.flatMap blankCells

/-- The part after a COLD start's step 2. -/
def State.mirrored (s : State) : State :=
  { s.blank with siteCount := 2, ram := blankRam, roomCounts := Vector.replicate 48 2, mirrorsStand := true }

theorem State.blank_writeMirrors (s : State) : s.blank.writeMirrors = s.mirrored := by
  have rooms := State.Blank.foldl_rewriteRoom allRooms (by decide) (s := { s.blank with siteCount := 2, ram := blankSite })
    ⟨rfl, rfl, rfl, rfl, rfl⟩ (fun r _ => Vector.getElem_replicate _) (fun r _ c hc => by
      have low : ∀ c ∈ blankSite, c.1 < 0x480 := by decide
      have := low c hc
      unfold roomMirrorAddr
      omega)
  have counts : allRooms.foldl (fun (k : Vector Half 48) (r : Fin 48) => k.set r 2) (Vector.replicate 48 0) = Vector.replicate 48 2 := by
    decide +kernel
  have before : ({ s.blank with siteCount := 2, ram := blankSite } : State).roomCounts = Vector.replicate 48 0 := rfl
  rw [before, counts] at rooms
  unfold State.writeMirrors
  rw [s.blank_rewriteSite, rooms]
  rfl

theorem State.rewriteSite_eq (s : State) : s.rewriteSite = { s with
    siteCount := s.siteCount + 2, ram := s.ram.write 0x440 ({ s with siteCount := s.siteCount + 2 } : State).siteMirror } := rfl

/-- The journal of a COLD start, and the mirror of its queue. -/
theorem State.mirrored_journaled (s : State) :
    ({ s.mirrored with journal := { Journal.cold with queue := [Entry.coldStart], sequence := 1 } } : State).rewriteSite =
      { s.mirrored with journal := { Journal.cold with queue := [Entry.coldStart], sequence := 1 }, siteCount := 4, ram := resetRam } := by
  have count : (2 + 2 : Half) = 4 := by decide
  have ram : blankRam.write 0x440 ({ State.reset with siteCount := 4 } : State).siteMirror = resetRam := by decide +kernel
  rw [State.rewriteSite_eq]
  show ({ s.mirrored with
    journal := { Journal.cold with queue := [Entry.coldStart], sequence := 1 }, siteCount := 2 + 2
    ram := blankRam.write 0x440 ({ State.reset with siteCount := 2 + 2 } : State).siteMirror } : State) = _
  rw [count, ram]

/-- Settles O14: the mirrors, the START entry and the end of the start, one after another. -/
theorem coldStartGivesTheResetState : Obligations.ColdStartGivesTheResetState := by
  intro s
  have lost : (s.tested .cold { ramOk := true, tablesOk := true, crystalOk := true } 0).tableCheck = false := by
    show ((s.tableCheck && false) && true) = false
    rw [Bool.and_false, Bool.false_and]
  have whole := s.start_without_tables .cold _ 0 rfl lost s.mirrored (by rw [s.tested_cold, s.blank_writeMirrors])
  have entry : s.mirrored.entryWith 0 { kind := .start, value := s.mirrored.startFlags.toNat * 256 + s.mirrored.selfTest.code } =
      Entry.coldStart := by
    have flags : s.mirrored.startFlags = 1 := rfl
    have code : s.mirrored.selfTest = .ok := rfl
    have clock : s.mirrored.clock = Clock.cold := rfl
    rw [State.entryWith, flags, code, clock]
    decide
  rw [entry, s.mirrored_journaled] at whole
  have run : exec (.coldStart { ramOk := true, crystalOk := true } .ended) s =
      .next (s.start .cold { ramOk := true, tablesOk := true, crystalOk := true } { seconds := 0, reach := .ended }) := rfl
  rw [run, whole]
  rfl

end Sys2Proof.Machine

namespace Sys2Proof.Machine

open Sys2Proof

/-! ## Starts that find the tables good (R33, R177) -/

/-- The state without what step 3 of a start and its end reach: READY, the causes, shared RAM, the journal, the rooms, the list. -/
def State.sansTick (s : State) : State :=
  { s with
    ready := false, cause := 0, ram := [], siteCount := 0, roomCounts := Vector.replicate 48 0, rooms := Vector.replicate 48 Room.cold
    revs := [], journal := Journal.cold }

theorem State.sansTick_of_records {s t : State} {x : Vector Room 48} {y : List RevEntry}
    (h : t.records = ({ s with rooms := x, revs := y } : State).records) (held : t.held = s.held) (engine : t.engine = s.engine) :
    t.sansTick = s.sansTick := by
  have e : ({ t.records with held := t.held, engine := t.engine } : State).sansTick =
      ({ ({ s with rooms := x, revs := y } : State).records with held := s.held, engine := s.engine } : State).sansTick := by
    rw [h, held, engine]
  exact e

theorem State.minuteTick_sansTick (s : State) (minute : Nat) : (s.minuteTick minute).sansTick = s.sansTick := by
  obtain ⟨qs, -, reports⟩ := s.minuteTick_routine minute
  exact State.sansTick_of_records (s.minuteTick_records minute) reports.held reports.engine

/-- The ROOM_STATE entries of the rooms a start made VACANT, one after another (R33). -/
theorem State.restartEntries_reports (rs : List (Fin 48)) (s : State) (part : Nat → Prop) :
    s.Reports (rs.foldl State.restartEntry s) part (rs.map fun r => roomStateRequest r s.rooms[r] .departing true) ∧
      (rs.foldl State.restartEntry s).records = s.records := by
  induction rs generalizing s with
  | nil => exact ⟨.refl s part, rfl⟩
  | cons r rs ih =>
    have asked : (s.restartEntry r).records = s.records := State.admitRequest_records _ _
    obtain ⟨reports, records⟩ := ih (s.restartEntry r)
    rw [State.records_rooms asked] at reports
    exact ⟨(State.reports_admitRequest s _ part).trans reports, records.trans asked⟩

/-- What a start that finds the tables good asks for at its step 3 (R33, R166, R177). -/
def State.restartRequests (s : State) (rs : List (Fin 48)) : List Request :=
  { kind := .start, value := twoItems s.startFlags.toNat s.selfTest.code } ::
    rs.map fun r => roomStateRequest r s.rooms[r] .departing true

/-- Step 3 of a start (R177). -/
theorem State.journaled_reports (s : State) (rs : List (Fin 48)) (part : Nat → Prop) :
    s.Reports (rs.foldl State.restartEntry s.startEntry) part (s.restartRequests rs) ∧
      (rs.foldl State.restartEntry s.startEntry).records = s.records := by
  have start : s.startEntry.records = s.records := State.admitRequest_records _ _
  obtain ⟨reports, records⟩ := State.restartEntries_reports rs s.startEntry part
  rw [State.records_rooms start] at reports
  exact ⟨(State.reports_admitRequest s _ part).trans reports, records.trans start⟩

theorem State.Unarmed.journaled {s : State} (h : s.Unarmed) (rs : List (Fin 48)) : (rs.foldl State.restartEntry s.startEntry).Unarmed :=
  foldl_keeps (I := State.Unarmed) (fun _ _ hu => hu.admitRequest _) rs (h.admitRequest _)

/-- READY and START set, and the minute tick of R8: what a start's end leaves as it was, and what the tick reaches. -/
theorem State.endStart_spec (s : State) : s.endStart.sansTick = s.sansTick ∧ s.endStart.ready = true ∧
    s.endStart.cause.getLsbD 4 = true ∧
    s.endStart.rooms = (if s.clock.state = .running then s.rooms.map (Room.overstayed s.site.checkoutGrace s.clock.minute) else s.rooms) ∧
    s.endStart.revs = (if s.clock.state = .running then s.revs.filter fun e => !e.expired s.clock.minute else s.revs) ∧
    s.journal.queue <+: s.endStart.journal.queue ∧ (s.Unarmed → s.endStart.Unarmed) := by
  have set : causeStart.getLsbD 4 = true := by decide
  unfold State.endStart
  dsimp only
  by_cases running : s.clock.state = .running
  · rw [if_pos running, if_pos running, if_pos running]
    have base : ({ s with ready := true, cause := causeStart } : State).sansTick = s.sansTick := rfl
    have rooms : ({ s with ready := true, cause := causeStart } : State).rooms = s.rooms := rfl
    have revs : ({ s with ready := true, cause := causeStart } : State).revs = s.revs := rfl
    have site : ({ s with ready := true, cause := causeStart } : State).site = s.site := rfl
    have queue : ({ s with ready := true, cause := causeStart } : State).journal = s.journal := rfl
    have unarmed (h : s.Unarmed) : ({ s with ready := true, cause := causeStart } : State).Unarmed := h.of_ram rfl
    have ready : ({ s with ready := true, cause := causeStart } : State).ready = true := rfl
    have cause : ({ s with ready := true, cause := causeStart } : State).cause.getLsbD 4 = true := set
    generalize ({ s with ready := true, cause := causeStart } : State) = u at *
    obtain ⟨qs, routine, reports⟩ := u.minuteTick_routine s.clock.minute
    have records := u.minuteTick_records s.clock.minute
    have readied := State.records_ready records
    have tested := State.records_rooms records
    have pruned := State.records_revs records
    have queued := reports.logs.queue_prefix
    rw [queue] at queued
    refine ⟨(u.minuteTick_sansTick _).trans base, readied.trans ready, ?_, by rw [tested, rooms, site], by rw [pruned, revs], queued,
      fun h => (unarmed h).minuteTick _⟩
    obtain e | e := reports.cause routine <;> rw [e]
    · exact cause
    · rw [BitVec.getLsbD_or, cause, Bool.true_or]
  · rw [if_neg running, if_neg running, if_neg running]
    exact ⟨rfl, rfl, set, rfl, rfl, List.prefix_rfl, fun h => h.of_ram rfl⟩

/-- A room after a start that finds the tables good: its step 2, then the minute tick of R8. -/
theorem Room.restarted_overstayed (s : State) (c : Clock) (r : Fin 48) :
    s.roomAfter c r =
      if c.state = .running then ({ s.rooms[r] with wait := 0 } : Room).restarted.overstayed s.site.checkoutGrace c.minute
      else ({ s.rooms[r] with wait := 0 } : Room).restarted := by
  unfold State.roomAfter
  generalize s.rooms[r] = x
  unfold Room.restarted Room.overstayed
  dsimp only
  by_cases departing : x.state = .departing
  · simp [departing]
  · by_cases running : c.state = .running <;> simp [departing, running]

theorem Room.restarted_request (x : Room) (r : Fin 48) (h : x.state = .departing) :
    roomStateRequest r ({ x with wait := 0 } : Room).restarted .departing true =
      { kind := .roomState, room := r.val, reason := 1, subject := x.generation, value := 1 * 256 + 4 } := by
  simp [roomStateRequest, Room.restarted, h, twoItems, RoomState.code, flagBit]

/-- The part after step 2 of a start that finds the tables good, but for shared RAM and the counts of the mirrors. -/
def State.carried (s : State) (k : StartKind) (f : Findings) (elapsed : Nat) : State :=
  { (s.tested k f elapsed).batteryKept with mirrorsStand := true }

section
variable (s : State) (k : StartKind) (f : Findings) (elapsed : Nat)

theorem State.carried_rooms (r : Fin 48) :
    (s.carried k f elapsed).rooms[r] = ({ s.rooms[r] with wait := 0 } : Room).restarted := by
  show (((s.rooms.map fun x => { x with wait := 0 }).map Room.restarted)[r] : Room) = _
  simp

theorem State.carried_minibars (r : Fin 48) : (s.carried k f elapsed).minibars[r] = s.minibars[r].offline.applyMark := by
  show ((s.minibars.map Minibar.offline).map Minibar.applyMark)[r] = _
  simp

theorem State.carried_lines (l : Fin 2) : (s.carried k f elapsed).lines[l] = s.lines[l].restart := by
  show (s.lines.map Line.restart)[l] = _
  simp

theorem State.tested_departing :
    (s.tested k f elapsed).departing = (List.finRange 48).filter fun r => decide (s.rooms[r].state = .departing) := by
  have rooms (r : Fin 48) : (s.tested k f elapsed).rooms[r].state = s.rooms[r].state := by
    show ((s.rooms.map fun x : Room => { x with wait := 0 })[r]).state = _
    simp
  unfold State.departing
  rw [allRooms_eq]
  simp only [rooms]

/-- The entries step 3 asks for are those of R33 and R166. -/
theorem State.carried_requests :
    (s.carried k f elapsed).restartRequests (s.tested k f elapsed).departing =
      s.startEntries (k.flags s.startFlags) (s.tested k f elapsed).selfTest.code := by
  unfold State.restartRequests State.startEntries
  rw [s.tested_departing]
  congr 1
  refine List.map_congr_left fun r hr => ?_
  rw [s.carried_rooms, Room.restarted_request _ _ (by simpa using hr)]

theorem State.tested_restores (good : (s.tested k f elapsed).tableCheck = true) :
    ∃ m n c, (s.tested k f elapsed).restores = { s.carried k f elapsed with ram := m, siteCount := n, roomCounts := c } := by
  obtain ⟨m, n, c, e⟩ := ({ (s.tested k f elapsed).batteryKept with ram := (s.tested k f elapsed).ram.clear 0 0xB00 } : State).writeMirrors_changes
  refine ⟨m, n, c, ?_⟩
  unfold State.restores
  dsimp only
  rw [if_pos good]
  exact e
end

/-- A state whose parts beyond a start's tick are the carried ones keeps the tables, with the main domain fresh. -/
theorem State.carried_keeps {s t : State} {k : StartKind} {f : Findings} {elapsed : Nat}
    (h : t.sansTick = (s.carried k f elapsed).sansTick) : t.MainFresh ∧ s.KeepsTables t := by
  have lines (l : Fin 2) : t.lines[l] = s.lines[l].restart := by
    have same : t.lines = (s.carried k f elapsed).lines := (congrArg State.lines h :)
    rw [same]
    exact s.carried_lines k f elapsed l
  have drop (l : Fin 2) (a : Fin 64) : t.drop l a = (s.drop l a).restart := by
    show t.lines[l].drops[a] = _
    rw [lines]
    exact Line.restart_drop _ _
  refine ⟨State.mainFresh_of ⟨(congrArg State.powered h :), (congrArg State.mask h :), (congrArg State.latch h :), (congrArg State.held h :),
    (congrArg State.engine h :), (congrArg State.intakeNext h :), (congrArg State.encoder h :), (congrArg State.lastDeny h :)⟩
    fun l => ⟨_, lines l⟩, (congrArg State.site h :), (congrArg State.zones h :), (congrArg State.serial h :),
    fun l => ⟨by rw [lines]; rfl, fun a => ?_⟩⟩
  rw [drop]
  exact ⟨rfl, rfl, rfl, rfl⟩

theorem State.entriesFrom_congr {s t : State} (h : t.clock = s.clock) (seq : Nat) (qs : List Request) :
    t.entriesFrom seq qs = s.entriesFrom seq qs := by
  induction qs generalizing seq with
  | nil => rfl
  | cons q qs ih => simp only [State.entriesFrom, State.entryWith, h, ih]

theorem State.entriesFrom_take (s : State) (n seq : Nat) (qs : List Request) :
    (s.entriesFrom seq qs).take n = s.entriesFrom seq (qs.take n) := by
  induction qs generalizing n seq with
  | nil => simp [State.entriesFrom]
  | cons q qs ih => cases n <;> simp [State.entriesFrom, ih]

/-- Of requests made of an empty journal, the first 28 become entries (R155). -/
theorem State.Logs.first {s t : State} {qs : List Request} (h : s.Logs t qs) (hj : s.journal = Journal.cold) :
    (s.entriesFrom 0 qs).take 28 <+: t.journal.queue := by
  have parts : s.Logs t (qs.take 28 ++ qs.drop 28) := by rw [List.take_append_drop]; exact h
  have stands := parts.admits_prefix ⟨by rw [hj]; rfl, by rw [hj]; simp [Journal.cold]⟩
  rw [hj] at stands
  rw [s.entriesFrom_take]
  exact stands

/-- Steps 3 and 4 of a start, from a state whose journal is empty and whose shared RAM holds no order and no descriptor: what they leave, what
the minute tick reaches, and the entries. -/
structure State.Started (u t : State) (entries : List Request) : Prop where
  rest : t.sansTick = u.sansTick
  ready : t.ready = true
  cause : t.cause.getLsbD 4 = true
  rooms : t.rooms = if u.clock.state = .running then u.rooms.map (Room.overstayed u.site.checkoutGrace u.clock.minute) else u.rooms
  revs : t.revs = if u.clock.state = .running then u.revs.filter fun e => !e.expired u.clock.minute else u.revs
  queue : ∀ v : State, v.clock = u.clock → (v.entriesFrom 0 entries).take 28 <+: t.journal.queue
  unarmed : t.Unarmed

theorem State.journaled_started {u : State} (unarmed : u.Unarmed) (hj : u.journal = Journal.cold) (rs : List (Fin 48)) :
    u.Started (rs.foldl State.restartEntry u.startEntry).endStart (u.restartRequests rs) := by
  obtain ⟨reports, records⟩ := u.journaled_reports rs fun _ => False
  have quiet := unarmed.journaled rs
  generalize rs.foldl State.restartEntry u.startEntry = j at *
  obtain ⟨rest, ready, cause, rooms, revs, queue, keeps⟩ := j.endStart_spec
  have same : j.sansTick = u.sansTick := State.sansTick_of_records records reports.held reports.engine
  rw [State.records_clock records, State.records_rooms records, State.records_site records] at rooms
  rw [State.records_clock records, State.records_revs records] at revs
  refine ⟨rest.trans same, ready, cause, rooms, revs, fun v hv => ?_, keeps quiet⟩
  rw [State.entriesFrom_congr hv]
  exact (reports.logs.first hj).trans queue

/-- A start that finds the tables good, run to its end. -/
theorem State.start_with_tables (s : State) (k : StartKind) (f : Findings) (elapsed : Nat) (ram : f.ramOk = true)
    (good : (s.tested k f elapsed).tableCheck = true) :
    (s.carried k f elapsed).Started (s.start k f { seconds := elapsed, reach := .ended })
      (s.startEntries (k.flags s.startFlags) (s.tested k f elapsed).selfTest.code) := by
  have started := State.journaled_started (s.tested k f elapsed).restores_unarmed
    (by obtain ⟨m, n, c, e⟩ := s.tested_restores k f elapsed good; rw [e]; rfl) (s.tested k f elapsed).departing
  rw [s.start_whole k f elapsed ram, good, if_pos rfl]
  generalize (List.foldl State.restartEntry (s.tested k f elapsed).restores.startEntry (s.tested k f elapsed).departing).endStart = t at *
  obtain ⟨m, n, c, restores⟩ := s.tested_restores k f elapsed good
  have requests : (s.tested k f elapsed).restores.restartRequests (s.tested k f elapsed).departing =
      s.startEntries (k.flags s.startFlags) (s.tested k f elapsed).selfTest.code := by
    rw [restores]
    exact s.carried_requests k f elapsed
  rw [requests, restores] at started
  obtain ⟨rest, ready, cause, rooms, revs, queue, unarmed⟩ := started
  exact ⟨rest, ready, cause, rooms, revs, queue, unarmed⟩

/-- A list that begins with the first entries of another begins with its first. -/
theorem head?_of_take_prefix {α : Type} {x : α} {xs ys : List α} (h : (x :: xs).take 28 <+: ys) : ys.head? = some x := by
  obtain ⟨rest, e⟩ := h
  rw [← e]
  rfl

/-- Settles O15: what step 2 carries over, and what steps 3 and 4 make of it. -/
theorem startWithTablesGood : Obligations.StartWithTablesGood := by
  intro s crystalOk elapsed c flag good
  dsimp only
  intro starts
  obtain ⟨k, hk, flags, run⟩ := State.start_kind starts
  generalize hf : ({ ramOk := true, tablesOk := true, crystalOk := crystalOk } : Findings) = f at run
  have check : (s.tested k f elapsed).tableCheck = true := by
    show ((s.tableCheck && decide (k ≠ .cold)) && f.tablesOk) = true
    rw [decide_eq_true hk, good, ← hf]
    rfl
  have code : (s.tested k f elapsed).selfTest = if crystalOk then .ok else .crystalFault := by
    show codeOf (decide (k ≠ .cold) && !((s.tableCheck && decide (k ≠ .cold)) && f.tablesOk)) f.crystalOk = _
    rw [decide_eq_true hk, good, ← hf]
    cases crystalOk <;> rfl
  have number : (s.tested k f elapsed).selfTest.code = if crystalOk then 0 else 3 := by
    rw [code]
    cases crystalOk <;> rfl
  obtain ⟨rest, ready, cause, rooms, revs, queue, unarmed⟩ := s.start_with_tables k f elapsed (by rw [← hf]) check
  generalize s.start k f { seconds := elapsed, reach := .ended } = t at *
  obtain ⟨fresh, keeps⟩ := State.carried_keeps rest
  have startFlags : t.startFlags = s.startFlags ||| flag := (congrArg State.startFlags rest :).trans flags
  have clock : t.clock = (s.carried k f elapsed).clock := (congrArg State.clock rest :)
  have clockAfter : (s.carried k f elapsed).clock = s.clockAfter crystalOk elapsed := by rw [← hf]; rfl
  have minibars : t.minibars = (s.carried k f elapsed).minibars := (congrArg State.minibars rest :)
  rw [number, flags, ← startFlags] at queue
  replace queue := queue t clock
  refine ⟨t, run, fresh, ready, (congrArg State.mirrorsStand rest :), cause, startFlags, (congrArg State.selfTest rest :).trans code,
    (congrArg State.crystalFault rest :).trans (by rw [← hf]; rfl), clock.trans clockAfter, keeps, fun r => ⟨?_, ?_⟩, ?_,
    head?_of_take_prefix queue, queue, unarmed⟩
  · rw [Room.restarted_overstayed, clock, rooms]
    split
    · exact (overstayed_map _ _ _ r).trans (by rw [s.carried_rooms]; rfl)
    · exact s.carried_rooms k f elapsed r
  · rw [minibars]
    exact s.carried_minibars k f elapsed r
  · rw [revs, clock]
    rfl

end Sys2Proof.Machine

namespace Sys2Proof.Machine

open Sys2Proof

/-! ## A line that goes on to its next exchange (R138) -/

/-- On no line is a LINE_GO in progress due to act: a running line that has one has something open (R145). -/
def State.NoGoDue (s : State) : Prop := ∀ (l : Fin 2) (m : GoMark), s.lines[l].state = .run → s.lines[l].mark = some m → s.lines[l].activity ≠ .idle

/-- From `s` to `t` each idle running line has gone on to its next exchange, or stayed: nothing else has changed, and every message that stood
in a queue stands in it still. -/
def State.GoesOn (s t : State) : Prop :=
  ∃ lines, t = { s with lines := lines } ∧ ∀ l : Fin 2,
    (∃ activity queue pointer round, lines[l] =
      { s.lines[l] with activity := activity, queue := queue, pointer := pointer, round := round }) ∧
    (s.lines[l].activity ≠ .idle → lines[l] = s.lines[l]) ∧
    ∀ m, s.Sends l m → ({ s with lines := lines } : State).Sends l m

theorem State.GoesOn.refl (s : State) : s.GoesOn s := ⟨s.lines, rfl, fun _ => ⟨⟨_, _, _, _, rfl⟩, fun _ => rfl, fun _ h => h⟩⟩

theorem State.GoesOn.noGoDue {s t : State} (h : s.GoesOn t) (hs : s.NoGoDue) : t.NoGoDue := by
  obtain ⟨lines, rfl, each⟩ := h
  intro l m run mark
  obtain ⟨⟨activity, queue, pointer, round, e⟩, busy, -⟩ := each l
  have run' : lines[l].state = .run := run
  have mark' : lines[l].mark = some m := mark
  rw [e] at run' mark'
  have open_ := hs l m run' mark'
  show lines[l].activity ≠ .idle
  rw [busy open_]
  exact open_

theorem State.GoesOn.trans {s t u : State} (h : s.GoesOn t) (h' : t.GoesOn u) : s.GoesOn u := by
  obtain ⟨lines, rfl, each⟩ := h
  obtain ⟨lines', rfl, each'⟩ := h'
  refine ⟨lines', rfl, fun l => ?_⟩
  obtain ⟨⟨a, q, p, r, e⟩, busy, sends⟩ := each l
  obtain ⟨⟨a', q', p', r', e'⟩, busy', sends'⟩ := each' l
  refine ⟨⟨a', q', p', r', ?_⟩, fun open_ => ?_, fun m hm => sends' m (sends m hm)⟩
  · rw [e']
    show { lines[l] with activity := a', queue := q', pointer := p', round := r' } = _
    rw [e]
  · have same := busy open_
    exact (busy' (by show lines[l].activity ≠ .idle; rw [same]; exact open_)).trans same

theorem Line.inExchange_idle {x : Line} (h : x.activity = .idle) : x.inExchange = none := by
  unfold Line.inExchange
  rw [h]

/-- A step on one line that changes no more than the choice of its next exchange does. -/
theorem State.goesOn_setLine (s : State) (l : Fin 2) (activity : Activity) (queue : List QMsg) (pointer round : Nat)
    (idle : s.lines[l].activity = .idle)
    (sends : ∀ m ∈ s.lines[l].queue, m ∈ queue ∨
      ({ s.lines[l] with activity := activity, queue := queue, pointer := pointer, round := round } : Line).inExchange = some m) :
    s.GoesOn (s.setLine l { s.lines[l] with activity := activity, queue := queue, pointer := pointer, round := round }) := by
  refine ⟨_, rfl, fun k => ?_⟩
  by_cases hk : k = l
  · subst hk
    rw [vector_set_same]
    refine ⟨⟨_, _, _, _, rfl⟩, fun open_ => absurd idle open_, fun m hm => ?_⟩
    have queued : m ∈ s.lines[k].queue := hm.resolve_right (by rw [Line.inExchange_idle idle]; nofun)
    show m ∈ (s.lines.set k _)[k].queue ∨ (s.lines.set k _)[k].inExchange = some m
    rw [vector_set_same]
    exact sends m queued
  · rw [vector_set_ne _ _ hk]
    refine ⟨⟨_, _, _, _, rfl⟩, fun _ => rfl, fun m hm => ?_⟩
    show m ∈ (s.lines.set l _)[k].queue ∨ (s.lines.set l _)[k].inExchange = some m
    rw [vector_set_ne _ _ hk]
    exact hm

/-- Moving the pointer to the next address polled changes the pointer and the round count alone. -/
theorem Line.nextPoll_eq (fuel : Nat) (x : Line) (a : Fin 64) (y : Line) (h : Line.nextPoll fuel x = some (a, y)) :
    ∃ pointer round, y = { x with pointer := pointer, round := round } := by
  have moved (x : Line) : ∃ pointer round, x.movePointer = { x with pointer := pointer, round := round } := by
    unfold Line.movePointer
    split <;> exact ⟨_, _, rfl⟩
  induction fuel generalizing x with
  | zero => cases h
  | succ fuel ih =>
    unfold Line.nextPoll at h
    split at h
    · cases h
    · split at h
      · cases h
        exact moved x
      · obtain ⟨p, r, e⟩ := moved x
        obtain ⟨p', r', e'⟩ := ih _ h
        rw [e] at e'
        exact ⟨p', r', e'⟩

theorem State.setLine_setLine (s : State) (l : Fin 2) (x y : Line) : (s.setLine l x).setLine l y = s.setLine l y := by
  unfold State.setLine
  simp

theorem State.chooseExchange_goesOn (s : State) (l : Fin 2) (idle : s.lines[l].activity = .idle) : s.GoesOn (s.chooseExchange l) := by
  unfold State.chooseExchange
  dsimp only
  split
  · exact s.goesOn_setLine l _ _ _ _ idle fun m hm => .inl hm
  · split
    · next m rest e =>
      unfold State.openExchange State.setActivity State.setQueue
      rw [State.setLine_same, State.setLine_setLine]
      refine s.goesOn_setLine l _ rest _ _ idle fun k hk => ?_
      rw [e] at hk
      obtain rfl | hk := List.mem_cons.1 hk
      · exact .inr rfl
      · exact .inl hk
    · split
      · exact .refl s
      · next a y e =>
        obtain ⟨pointer, round, rfl⟩ := Line.nextPoll_eq _ _ _ _ e
        unfold State.openExchange State.setActivity
        rw [State.setLine_same, State.setLine_setLine]
        exact s.goesOn_setLine l _ s.lines[l].queue pointer round idle fun m hm => .inl hm

theorem State.pump_goesOn (s : State) (l : Fin 2) (h : s.NoGoDue) : s.GoesOn (s.pump l) := by
  unfold State.pump
  dsimp only
  split
  · next due =>
    obtain ⟨run, idle⟩ := due
    have none_ : s.lines[l].mark = none := Option.eq_none_iff_forall_not_mem.2 fun m hm => h l m run hm idle
    rw [none_]
    exact s.chooseExchange_goesOn l idle
  · exact .refl s

/-- With no LINE_GO due, the end of a command lets each idle running line go on, and nothing else. -/
theorem State.settle_goesOn (s : State) (h : s.NoGoDue) : s.GoesOn s.settle := by
  have first := s.pump_goesOn 0 h
  exact first.trans (State.pump_goesOn _ 1 (first.noGoDue h))

theorem State.LineInv.noGoDue {s : State} (h : s.LineInv) : s.NoGoDue := fun l m run mark => ((h l).2.2 m run mark).1

/-- What the lines are in and do decides whether a LINE_GO is due. -/
theorem State.NoGoDue.of_course {s t : State} (h : s.NoGoDue) (course : ∀ l : Fin 2, t.lines[l].course = s.lines[l].course) : t.NoGoDue := by
  intro l m run mark
  have state : t.lines[l].state = s.lines[l].state := congrArg Prod.fst (course l)
  have go : t.lines[l].mark = s.lines[l].mark := congrArg (fun c => c.2.1) (course l)
  have activity : t.lines[l].activity = s.lines[l].activity := congrArg (fun c => c.2.2.1) (course l)
  rw [activity]
  exact h l m (state ▸ run) (go ▸ mark)

/-! What the going on of the lines leaves. -/

section
variable {s t : State} (h : s.GoesOn t)
include h

theorem State.GoesOn.sends {l : Fin 2} {m : QMsg} (hm : s.Sends l m) : t.Sends l m := by
  obtain ⟨lines, rfl, each⟩ := h
  exact (each l).2.2 m hm

theorem State.GoesOn.drop (l : Fin 2) (a : Fin 64) : t.drop l a = s.drop l a := by
  obtain ⟨lines, rfl, each⟩ := h
  obtain ⟨activity, queue, pointer, round, e⟩ := (each l).1
  show lines[l].drops[a] = _
  rw [e]
  rfl

theorem State.GoesOn.busy (l : Fin 2) (open_ : s.lines[l].activity ≠ .idle) : t.lines[l] = s.lines[l] := by
  obtain ⟨lines, rfl, each⟩ := h
  exact (each l).2.1 open_

theorem State.GoesOn.rest : t = { s with lines := t.lines } := by
  obtain ⟨lines, rfl, each⟩ := h
  rfl

theorem State.GoesOn.byte (x : Nat) : t.byte x = s.byte x := by
  obtain ⟨lines, rfl, each⟩ := h
  rfl

theorem State.GoesOn.resultAt (b : Fin 16) (i n : Nat) : t.resultAt b i n = s.resultAt b i n := State.field_congr fun x _ _ => h.byte x

theorem State.GoesOn.journal : t.journal = s.journal := (congrArg State.journal h.rest :)
theorem State.GoesOn.rooms : t.rooms = s.rooms := (congrArg State.rooms h.rest :)
theorem State.GoesOn.minibars : t.minibars = s.minibars := (congrArg State.minibars h.rest :)
theorem State.GoesOn.engine : t.engine = s.engine := (congrArg State.engine h.rest :)
theorem State.GoesOn.zones : t.zones = s.zones := (congrArg State.zones h.rest :)

theorem State.GoesOn.beyondLines : t.beyondLines = s.beyondLines := (congrArg State.beyondLines h.rest :)

theorem State.GoesOn.ended {b : Fin 16} {res : Result} (he : s.Ended b res) : t.Ended b res := by
  obtain ⟨lines, rfl, each⟩ := h
  exact he

theorem State.GoesOn.completes {u : State} {b : Fin 16} {res : Result} (he : u.Completes s b res) : u.Completes t b res := by
  obtain ⟨lines, rfl, each⟩ := h
  exact he
end

end Sys2Proof.Machine

namespace Sys2Proof.Machine

open Sys2Proof

/-! ## What a line has of one of its drops -/

/-- A drop's record, the messages that wait for it, and the state of its line. -/
def State.view (s : State) (p : Fin 2 × Fin 64) : Drop × List QMsg × LineState :=
  (s.drop p.1 p.2, s.lines[p.1].queue.filter (fun m => decide (m.addr = p.2)), s.lines[p.1].state)

theorem State.view_of_lines {s t : State} (h : t.lines = s.lines) (p : Fin 2 × Fin 64) : t.view p = s.view p := by
  unfold State.view State.drop
  rw [h]

theorem State.drop_setDrop_other (s : State) {l k : Fin 2} {a c : Fin 64} (d : Drop) (h : (k, c) ≠ (l, a)) :
    (s.setDrop l a d).drop k c = s.drop k c := by
  show (s.lines.set l { s.lines[l] with drops := s.lines[l].drops.set a d })[k].drops[c] = s.lines[k].drops[c]
  by_cases hk : k = l
  · subst hk
    rw [vector_set_same]
    exact vector_set_ne _ _ fun e => h (by rw [e])
  · rw [vector_set_ne _ _ hk]

/-- A drop's record written leaves the queue and the state of every line. -/
theorem State.queue_setDrop (s : State) (l k : Fin 2) (a : Fin 64) (d : Drop) : (s.setDrop l a d).lines[k].queue = s.lines[k].queue := by
  show (s.lines.set l { s.lines[l] with drops := s.lines[l].drops.set a d })[k].queue = s.lines[k].queue
  by_cases hk : k = l
  · subst hk
    rw [vector_set_same]
  · rw [vector_set_ne _ _ hk]

theorem State.state_setDrop (s : State) (l k : Fin 2) (a : Fin 64) (d : Drop) : (s.setDrop l a d).lines[k].state = s.lines[k].state := by
  show (s.lines.set l { s.lines[l] with drops := s.lines[l].drops.set a d })[k].state = s.lines[k].state
  by_cases hk : k = l
  · subst hk
    rw [vector_set_same]
  · rw [vector_set_ne _ _ hk]

theorem State.view_setDrop_other (s : State) {l : Fin 2} {a : Fin 64} (d : Drop) {p : Fin 2 × Fin 64} (h : p ≠ (l, a)) :
    (s.setDrop l a d).view p = s.view p := by
  unfold State.view
  rw [s.queue_setDrop, s.state_setDrop, s.drop_setDrop_other d h]

theorem State.view_setDrop_same (s : State) (l : Fin 2) (a : Fin 64) (d : Drop) :
    (s.setDrop l a d).view (l, a) = (d, (s.view (l, a)).2) := by
  unfold State.view
  rw [s.queue_setDrop, s.state_setDrop, State.setDrop_same]

theorem State.drop_setQueue (s : State) (l k : Fin 2) (c : Fin 64) (q : List QMsg) : (s.setQueue l q).drop k c = s.drop k c := by
  show (s.lines.set l { s.lines[l] with queue := q })[k].drops[c] = s.lines[k].drops[c]
  by_cases hk : k = l
  · subst hk
    rw [vector_set_same]
  · rw [vector_set_ne _ _ hk]

theorem State.queue_setQueue (s : State) (l : Fin 2) (q : List QMsg) : (s.setQueue l q).lines[l].queue = q := by
  show (s.lines.set l { s.lines[l] with queue := q })[l].queue = q
  rw [vector_set_same]

theorem State.state_setQueue (s : State) (l k : Fin 2) (q : List QMsg) : (s.setQueue l q).lines[k].state = s.lines[k].state := by
  show (s.lines.set l { s.lines[l] with queue := q })[k].state = s.lines[k].state
  by_cases hk : k = l
  · subst hk
    rw [vector_set_same]
  · rw [vector_set_ne _ _ hk]

/-- A queue in which the messages to a drop are as they were. -/
theorem State.view_setQueue (s : State) (l : Fin 2) (q : List QMsg) (p : Fin 2 × Fin 64)
    (h : p.1 = l → q.filter (fun m => decide (m.addr = p.2)) = s.lines[l].queue.filter fun m => decide (m.addr = p.2)) :
    (s.setQueue l q).view p = s.view p := by
  have queue : (s.setQueue l q).lines[p.1].queue.filter (fun m => decide (m.addr = p.2)) =
      s.lines[p.1].queue.filter fun m => decide (m.addr = p.2) := by
    by_cases hp : p.1 = l
    · obtain ⟨k, c⟩ := p
      obtain rfl : k = l := hp
      rw [s.queue_setQueue]
      exact h rfl
    · show (s.lines.set l { s.lines[l] with queue := q })[p.1].queue.filter _ = _
      rw [vector_set_ne _ _ hp]
  unfold State.view
  rw [s.drop_setQueue, s.state_setQueue, queue]

/-- One message in the place of those to its drop leaves the messages to the others. -/
theorem filter_replaced (xs : List QMsg) (m : QMsg) {c : Fin 64} (h : c ≠ m.addr) :
    (xs.map fun q => if q.addr = m.addr then m else q).filter (fun q => decide (q.addr = c)) =
      xs.filter fun q => decide (q.addr = c) := by
  induction xs with
  | nil => rfl
  | cons x xs ih =>
    rw [List.map_cons, List.filter_cons, List.filter_cons, ih]
    by_cases hx : x.addr = m.addr
    · simp [hx, h.symm]
    · simp [hx]

theorem filter_appended (xs : List QMsg) (m : QMsg) {c : Fin 64} (h : c ≠ m.addr) :
    (xs ++ [m]).filter (fun q => decide (q.addr = c)) = xs.filter fun q => decide (q.addr = c) := by
  simp [List.filter_append, h.symm]

theorem State.view_openLost_other (s : State) {l : Fin 2} {a : Fin 64} (asker : Asker) (cause : Nat) {p : Fin 2 × Fin 64} (h : p ≠ (l, a)) :
    (s.openLost l a asker cause).view p = s.view p := by
  obtain e | ⟨d, e⟩ := s.openLost_lines l a asker cause
  · exact State.view_of_lines e p
  · exact (State.view_of_lines e p).trans (s.view_setDrop_other _ h)

theorem State.view_owe_other (s : State) (l : Fin 2) (m : QMsg) {p : Fin 2 × Fin 64} (h : p ≠ (l, m.addr)) : (s.owe l m).1.view p = s.view p := by
  unfold State.owe
  split
  · rfl
  · exact s.view_setDrop_other _ h

/-- A request to a drop reaches no other (R139). -/
theorem State.view_request_other (s : State) (l : Fin 2) (m : QMsg) {p : Fin 2 × Fin 64} (h : p ≠ (l, m.addr)) :
    (s.request l m).1.view p = s.view p := by
  have addr (hp : p.1 = l) : p.2 ≠ m.addr := fun e => h (Prod.ext hp e)
  unfold State.request
  dsimp only
  split
  · exact s.view_owe_other l m h
  · split
    · rfl
    · split
      · have queued : ((s.setQueue l (s.lines[l].queue.map fun q => if q.addr = m.addr then m else q)).setOwed l m.addr none).view p = s.view p :=
          (State.view_setDrop_other _ _ h).trans (s.view_setQueue l _ p fun hp => filter_replaced _ _ (addr hp))
        split
        · exact (State.view_openLost_other _ _ _ h).trans queued
        · exact queued
      · split
        · exact (State.view_setDrop_other _ _ h).trans (s.view_setQueue l _ p fun hp => filter_appended _ _ (addr hp))
        · exact s.view_owe_other l m h

theorem State.view_ask_other (s : State) (l : Fin 2) (a : Fin 64) (msg : Directed) (asker : Asker) {p : Fin 2 × Fin 64} (h : p ≠ (l, a)) :
    (s.ask l a msg asker).view p = s.view p := s.view_request_other l _ h

theorem State.putDoor_lines (s : State) (l : Fin 2) (a : Fin 64) (x : Option DoorSide) :
    (s.putDoor l a x).lines = (s.setDrop l a { s.drop l a with door := x }).lines := State.records_lines (s.putDoor_records l a x)

theorem State.view_putDoor_other (s : State) {l : Fin 2} {a : Fin 64} (x : Option DoorSide) {p : Fin 2 × Fin 64} (h : p ≠ (l, a)) :
    (s.putDoor l a x).view p = s.view p := (State.view_of_lines (s.putDoor_lines l a x) p).trans (s.view_setDrop_other _ h)

theorem State.putDoor_drop (s : State) (l : Fin 2) (a : Fin 64) (x : Option DoorSide) :
    (s.putDoor l a x).drop l a = { s.drop l a with door := x } := by
  unfold State.drop
  rw [s.putDoor_lines]
  exact s.setDrop_same l a _

/-! ## A directed message that takes the place of an OPEN (R139, R140) -/

/-- The entry of the grant that stands at a door-side record, if its OPEN is lost (R63). -/
def lostEntries (place cause : Nat) (x : Option DoorSide) : List Request := ((x.bind DoorSide.pending).map fun g => g.lostEntry place cause).toList

theorem State.setDrop_self (s : State) (l : Fin 2) (a : Fin 64) : (s.setDrop l a (s.drop l a)).lines = s.lines := by
  have drops : s.lines[l].drops.set a s.lines[l].drops[a] = s.lines[l].drops := Vector.set_getElem_self a.isLt
  show s.lines.set l { s.lines[l] with drops := s.lines[l].drops.set a s.lines[l].drops[a] } = s.lines
  rw [drops]
  exact Vector.set_getElem_self l.isLt

theorem State.doorGrantLost_none (s : State) (l : Fin 2) (a : Fin 64) (cause : Nat) (h : (s.drop l a).door.bind DoorSide.pending = none) :
    s.doorGrantLost l a cause = s := by
  unfold State.doorGrantLost
  split
  · rfl
  · next d hd =>
    have hp : d.pending = none := by rwa [hd] at h
    rw [hp]

theorem State.doorGrantLost_some (s : State) (l : Fin 2) (a : Fin 64) (cause : Nat) (d : DoorSide) (g : Grant)
    (hd : (s.drop l a).door = some d) (hp : d.pending = some g) :
    s.doorGrantLost l a cause = (s.admitRequest (g.lostEntry (placeOf l a) cause)).putDoor l a (some d.withoutGrant) := by
  have gone : d.withoutGrant = { d with pending := none, latch := if d.latch = .granted ∧ d.deadline.isNone then .latched else d.latch } := by
    simp [DoorSide.withoutGrant, hp]
  unfold State.doorGrantLost
  rw [hd, gone]
  simp only [hp]
  rfl

theorem DoorSide.withoutGrant_none {x : Option DoorSide} (h : x.bind DoorSide.pending = none) : x.map DoorSide.withoutGrant = x := by
  cases x with
  | none => rfl
  | some d =>
    have hp : d.pending = none := h
    simp [DoorSide.withoutGrant, hp]

/-- The Door Decision Unit told of a lost OPEN (R63). -/
theorem State.doorGrantLost_reports (s : State) (l : Fin 2) (a : Fin 64) (cause : Nat) :
    s.Reports (s.doorGrantLost l a cause) (ofMirrorOf (s.drop l a).binding) (lostEntries (placeOf l a) cause (s.drop l a).door) ∧
    (s.doorGrantLost l a cause).lines = (s.setDrop l a { s.drop l a with door := (s.drop l a).door.map DoorSide.withoutGrant }).lines := by
  cases hg : (s.drop l a).door.bind DoorSide.pending with
  | none =>
    rw [s.doorGrantLost_none l a cause hg, DoorSide.withoutGrant_none hg, lostEntries, hg]
    exact ⟨.refl _ _, (s.setDrop_self l a).symm⟩
  | some g =>
    obtain ⟨d, hd, hp⟩ := Option.bind_eq_some_iff.1 hg
    rw [s.doorGrantLost_some l a cause d g hd hp, lostEntries, hg, hd]
    have drop : (s.admitRequest (g.lostEntry (placeOf l a) cause)).drop l a = s.drop l a := State.records_drop (s.admitRequest_records _) l a
    have lines : (s.admitRequest (g.lostEntry (placeOf l a) cause)).lines = s.lines := State.records_lines (s.admitRequest_records _)
    constructor
    · have put := State.reports_putDoor (s.admitRequest (g.lostEntry (placeOf l a) cause)) l a (some d.withoutGrant)
      rw [drop] at put
      exact (s.reports_admitRequest _ _).trans_nil put
    · rw [State.putDoor_lines, drop]
      unfold State.setDrop State.setLine
      rw [lines]
      rfl

/-! ## Work on one drop after another -/

/-- Requests made at index after index, where no turn reaches beyond its own: those each index asks for as it stood. -/
theorem foldl_reports {ι β : Type} {f : State → ι → State} {look : State → ι → β} {part : Nat → Prop} {reqs : ι → β → List Request}
    (asks : ∀ (u : State) i, u.Reports (f u i) part (reqs i (look u i))) (far : ∀ u i k, k ≠ i → look (f u i) k = look u k) {xs : List ι} (nd : xs.Nodup)
    (s : State) : s.Reports (xs.foldl f s) part (xs.flatMap fun i => reqs i (look s i)) := by
  induction xs generalizing s with
  | nil => exact .refl s part
  | cons x xs ih =>
    obtain ⟨hx, nd⟩ := List.nodup_cons.1 nd
    have rest := ih nd (f s x)
    have same : (xs.flatMap fun i => reqs i (look (f s x) i)) = xs.flatMap fun i => reqs i (look s i) :=
      List.flatMap_congr fun i hi => by rw [far s x i fun e => hx (e ▸ hi)]
    rw [same] at rest
    exact (asks s x).trans rest

end Sys2Proof.Machine

namespace Sys2Proof.Machine

open Sys2Proof

/-! ## HOLD and LATCH asked for at a gate (R13, R14, R139, R140) -/

/-- A message of another kind, queued for the drop, takes the place of an OPEN the door unit asked for. -/
def losesOpen (v : Drop × List QMsg × LineState) : Bool :=
  decide (v.2.2 = .run) && v.2.1.head?.any fun q => decide (q.asker = .doorUnit) && q.msg.isOpen

/-- A door-side record after that. -/
def doorKept (v : Drop × List QMsg × LineState) : Option DoorSide := if losesOpen v then v.1.door.map DoorSide.withoutGrant else v.1.door

theorem Line.waitingFor_eq (x : Line) (a : Fin 64) : x.waitingFor a = (x.queue.filter fun m => decide (m.addr = a)).head? :=
  List.head?_filter.symm

theorem ofMirrorOf_gate (z : Fin 8) : ofMirrorOf (some (.gate z)) = fun _ => False := by
  funext x
  simp [ofMirrorOf, Binding.shownRoom]

theorem State.minibarAt_gate (s : State) (l : Fin 2) (a : Fin 64) (z : Fin 8) (hg : (s.drop l a).binding = some (.gate z)) : s.minibarAt l a = none := by
  unfold State.minibarAt
  rw [hg]

/-- A mark of owing set, or cleared, reports nothing. -/
theorem State.reports_setOwed (s : State) (l : Fin 2) (a : Fin 64) (o : Option Owed) (part : Nat → Prop) : s.Reports (s.setOwed l a o) part [] :=
  s.reports_setDrop l a _ part

theorem State.reports_setQueue (s : State) (l : Fin 2) (q : List QMsg) (part : Nat → Prop) : s.Reports (s.setQueue l q) part [] :=
  s.reports_setLine l _ part

theorem State.setOwed_drop (s : State) (l : Fin 2) (a : Fin 64) (o : Option Owed) : (s.setOwed l a o).drop l a = { s.drop l a with owed := o } :=
  s.setDrop_same l a _

/-- What a HOLD or LATCH of the zone table does at a gate: an OPEN of the door unit it takes the place of is lost. -/
theorem State.askZone_spec (s : State) (l : Fin 2) (a : Fin 64) (msg : Directed) (z : Fin 8) (other : msg.isOpenOrDeny = false)
    (hg : (s.drop l a).binding = some (.gate z)) :
    s.Reports (s.ask l a msg .zoneTable) (fun _ => False)
      (if losesOpen (s.view (l, a)) then lostEntries (placeOf l a) 3 (s.drop l a).door else []) ∧
    ∃ o, (s.ask l a msg .zoneTable).drop l a = { s.drop l a with owed := o, door := doorKept (s.view (l, a)) } := by
  have notOpen : msg.isOpen = false := by cases msg <;> simp_all [Directed.isOpenOrDeny, Directed.isOpen]
  have head : s.lines[l].waitingFor a = (s.view (l, a)).2.1.head? := s.lines[l].waitingFor_eq a
  have state : (s.view (l, a)).2.2 = s.lines[l].state := rfl
  have door : (s.view (l, a)).1.door = (s.drop l a).door := rfl
  generalize s.view (l, a) = v at *
  have owed : losesOpen v = false →
      s.Reports (s.owe l { addr := a, msg := msg, asker := .zoneTable }).1 (fun _ => False)
        (if losesOpen v then lostEntries (placeOf l a) 3 (s.drop l a).door else []) ∧
      ∃ o, (s.owe l { addr := a, msg := msg, asker := .zoneTable }).1.drop l a = { s.drop l a with owed := o, door := doorKept v } := fun kept => by
    have owe : (s.owe l { addr := a, msg := msg, asker := .zoneTable }).1 = s.setOwed l a (some { msg := msg, asker := .zoneTable }) := by
      simp [State.owe, other]
    rw [owe, doorKept, kept, s.setOwed_drop, door]
    exact ⟨s.reports_setOwed _ _ _ _, _, rfl⟩
  have queued (q : List QMsg) : s.Reports ((s.setQueue l q).setOwed l a none) (fun _ => False) [] ∧
      ((s.setQueue l q).setOwed l a none).drop l a = { s.drop l a with owed := none } := by
    refine ⟨(s.reports_setQueue l q _).trans_nil (State.reports_setOwed _ _ _ _ _), ?_⟩
    rw [State.setOwed_drop, s.drop_setQueue]
  unfold State.ask State.request
  dsimp only
  rw [other, head]
  by_cases run : s.lines[l].state = .run
  · have running := state.trans run
    rw [if_neg (not_not_intro run), if_neg (by simp)]
    cases waits : v.2.1.head? with
    | none =>
      have kept : losesOpen v = false := by simp [losesOpen, waits]
      dsimp only
      split
      · obtain ⟨reports, drop⟩ := queued (s.lines[l].queue ++ [{ addr := a, msg := msg, asker := .zoneTable }])
        rw [doorKept, kept, drop, door]
        exact ⟨reports, _, rfl⟩
      · exact owed kept
    | some old =>
      dsimp only
      rw [notOpen]
      obtain ⟨reports, drop⟩ := queued (s.lines[l].queue.map fun q => if q.addr = a then { addr := a, msg := msg, asker := .zoneTable } else q)
      generalize (s.setQueue l _).setOwed l a none = t at reports drop
      have loses : losesOpen v = (decide (old.asker = .doorUnit) && old.msg.isOpen) := by simp [losesOpen, waits, running]
      have binding : (t.drop l a).binding = some (.gate z) := by rw [drop]; exact hg
      by_cases opens : old.msg.isOpen = true
      · rw [if_pos ⟨opens, by decide⟩, doorKept, door, loses, opens, Bool.and_true]
        cases old.asker with
        | doorUnit =>
          obtain ⟨lost, lines⟩ := t.doorGrantLost_reports l a 3
          rw [binding, ofMirrorOf_gate, drop] at lost
          refine ⟨reports.trans lost, none, ?_⟩
          have after : (t.openLost l a .doorUnit 3).drop l a = { t.drop l a with door := (t.drop l a).door.map DoorSide.withoutGrant } := by
            show (t.doorGrantLost l a 3).lines[l].drops[a] = _
            rw [lines]
            exact t.setDrop_same l a _
          rw [after, drop]
          rfl
        | minibarUnit =>
          have same : t.openLost l a .minibarUnit 3 = t := by
            unfold State.openLost
            rw [t.minibarAt_gate l a z binding]
          exact ⟨by rw [same]; exact reports, none, by rw [same, drop]; rfl⟩
        | zoneTable => exact ⟨reports, none, by rw [show t.openLost l a .zoneTable 3 = t from rfl, drop]; rfl⟩
      · rw [Bool.not_eq_true] at opens
        rw [opens, if_neg (by simp), doorKept, door, loses, opens, Bool.and_false]
        exact ⟨reports, none, by rw [drop]; rfl⟩
  · have resting : v.2.2 ≠ .run := fun e => run (state.symm.trans e)
    have kept : losesOpen v = false := by simp [losesOpen, resting]
    rw [if_pos run]
    exact owed kept

/-- The entries of the OPENs lost at a gate of a zone. -/
def gateLoss (z : Fin 8) (p : Fin 2 × Fin 64) (v : Drop × List QMsg × LineState) : List Request :=
  if v.1.binding = some (.gate z) ∧ losesOpen v = true then lostEntries (placeOf p.1 p.2) 3 v.1.door else []

theorem State.askGate_reports (z : Fin 8) (msg : Directed) (other : msg.isOpenOrDeny = false) (s : State) (p : Fin 2 × Fin 64) :
    s.Reports (State.askGate z msg s p) (fun _ => False) (gateLoss z p (s.view p)) := by
  unfold State.askGate gateLoss
  have same : (s.view p).1 = s.drop p.1 p.2 := rfl
  rw [same]
  by_cases hg : (s.drop p.1 p.2).binding = some (.gate z)
  · simp only [hg, if_true, true_and]
    exact (s.askZone_spec p.1 p.2 msg z other hg).1
  · simp only [hg, if_false, false_and]
    exact .refl s _

theorem State.view_askGate_other (z : Fin 8) (msg : Directed) (s : State) (p k : Fin 2 × Fin 64) (h : k ≠ p) :
    (State.askGate z msg s p).view k = s.view k := by
  unfold State.askGate
  split
  · exact s.view_ask_other _ _ _ _ h
  · rfl

/-- A drop has been told HOLD or LATCH: the message stands in its line's queue or is owed. -/
def State.Told (s : State) (p : Fin 2 × Fin 64) (msg : Directed) : Prop :=
  { addr := p.2, msg := msg, asker := .zoneTable } ∈ (s.view p).2.1 ∨ (s.view p).1.owed = some { msg := msg, asker := .zoneTable }

/-- Every gate of the zone asked (R13). -/
theorem State.askGates_spec (z : Fin 8) (msg : Directed) (other : msg.isOpenOrDeny = false) (s : State) :
    s.Reports (allDrops.foldl (State.askGate z msg) s) (fun _ => False) (allDrops.flatMap fun p => gateLoss z p (s.view p)) ∧
    ∀ p, ((s.drop p.1 p.2).binding = some (.gate z) → p.2 ≠ 0 →
        (∃ o, (allDrops.foldl (State.askGate z msg) s).drop p.1 p.2 = { s.drop p.1 p.2 with owed := o, door := doorKept (s.view p) }) ∧
        (allDrops.foldl (State.askGate z msg) s).Told p msg) ∧
      ((s.drop p.1 p.2).binding ≠ some (.gate z) → (allDrops.foldl (State.askGate z msg) s).view p = s.view p) := by
  refine ⟨foldl_reports (fun u i => State.askGate_reports z msg other u i) (fun u i k hk => State.view_askGate_other z msg u i k hk)
    allDrops_nodup s, fun p => ⟨fun hg ha => ?_, fun hg => ?_⟩⟩
  · obtain ⟨u, -, before, after⟩ := foldl_visits (look := State.view) (I := fun _ => True) (f := State.askGate z msg) (fun _ _ _ => trivial)
      (fun u i k _ hk => State.view_askGate_other z msg u i k hk) allDrops_nodup (s := s) trivial ((mem_allDrops p.1 p.2).2 ha)
    have drop : u.drop p.1 p.2 = s.drop p.1 p.2 := congrArg Prod.fst before
    have asked : State.askGate z msg u p = u.ask p.1 p.2 msg .zoneTable := if_pos (by rw [drop]; exact hg)
    obtain ⟨-, o, told⟩ := u.askZone_spec p.1 p.2 msg z other (by rw [drop]; exact hg)
    rw [asked] at after
    generalize allDrops.foldl (State.askGate z msg) s = t at after ⊢
    have final : t.drop p.1 p.2 = (u.ask p.1 p.2 msg .zoneTable).drop p.1 p.2 := congrArg Prod.fst after
    refine ⟨⟨o, ?_⟩, ?_⟩
    · rw [final, told, drop]
      exact congrArg (fun v => { s.drop p.1 p.2 with owed := o, door := doorKept v }) before
    · unfold State.Told
      rw [after]
      obtain h | h := u.ask_stands p.1 p.2 msg .zoneTable other
      · exact .inl (List.mem_filter.2 ⟨h, by simp⟩)
      · exact .inr h
  · by_cases ha : p.2 = 0
    · exact foldl_skips (look := State.view) (I := fun _ => True) (f := State.askGate z msg) (fun _ _ _ => trivial)
        (fun u i k _ hk => State.view_askGate_other z msg u i k hk) trivial fun hp => (mem_allDrops p.1 p.2).1 hp ha
    · obtain ⟨u, -, before, after⟩ := foldl_visits (look := State.view) (I := fun _ => True) (f := State.askGate z msg) (fun _ _ _ => trivial)
        (fun u i k _ hk => State.view_askGate_other z msg u i k hk) allDrops_nodup (s := s) trivial ((mem_allDrops p.1 p.2).2 ha)
      have drop : u.drop p.1 p.2 = s.drop p.1 p.2 := congrArg Prod.fst before
      have skipped : State.askGate z msg u p = u := if_neg (by rw [drop]; exact hg)
      rw [skipped] at after
      exact after.trans before

end Sys2Proof.Machine

namespace Sys2Proof.Machine

open Sys2Proof

/-! ## The notice of a zone to its gates (R68) -/

/-- A GATE record of a zone that becomes held, and of one that is no longer held (R68). -/
def DoorSide.zoneHeld (d : DoorSide) : DoorSide :=
  if d.latch = .latched ∨ d.latch = .granted then
    { d with latch := .held, deadline := none, timer := false, heldCount := 0, alarm := false }
  else d

def DoorSide.zoneFreed (d : DoorSide) : DoorSide :=
  if d.latch = .held then
    if d.leaf = .opened then { d with latch := .latched, timer := true, heldCount := 0, alarm := false } else { d with latch := .latched }
  else d

/-- The end of a held alarm that the notice brings, if any (R67, R68). -/
def DoorSide.heldEnd (place : Nat) (d : DoorSide) : Option Request :=
  if (d.latch = .latched ∨ d.latch = .granted) ∧ d.alarm = true then
    some { kind := .doorHeldEnd, place := place, room := 255, value := d.heldCount }
  else none

/-- What one drop's notice does: at a gate of the zone `g` is done to the door-side record and `ends` asked for; no other drop is reached. -/
structure NoticesGate (z : Fin 8) (g : DoorSide → DoorSide) (ends : Nat → DoorSide → Option Request)
    (f : State → Fin 2 × Fin 64 → State) (s : State) (p : Fin 2 × Fin 64) : Prop where
  reports : s.Reports (f s p) (fun _ => False)
    (if (s.view p).1.binding = some (.gate z) then ((s.view p).1.door.bind (ends (placeOf p.1 p.2))).toList else [])
  own : (f s p).view p = if (s.view p).1.binding = some (.gate z) then ({ (s.view p).1 with door := (s.view p).1.door.map g }, (s.view p).2)
    else s.view p
  far : ∀ k, k ≠ p → (f s p).view k = s.view k

theorem State.view_putDoor_same (s : State) (l : Fin 2) (a : Fin 64) (x : Option DoorSide) :
    (s.putDoor l a x).view (l, a) = ({ s.drop l a with door := x }, (s.view (l, a)).2) :=
  (State.view_of_lines (s.putDoor_lines l a x) _).trans (s.view_setDrop_same l a _)

/-- A record that the notice leaves as it is. -/
theorem noticesGate_idle {z : Fin 8} {g : DoorSide → DoorSide} {ends : Nat → DoorSide → Option Request}
    {f : State → Fin 2 × Fin 64 → State} {s : State} {p : Fin 2 × Fin 64} (same : f s p = s)
    (kept : ∀ d, (s.drop p.1 p.2).binding = some (.gate z) → (s.drop p.1 p.2).door = some d → g d = d ∧ ends (placeOf p.1 p.2) d = none) :
    NoticesGate z g ends f s p := by
  have drop : (s.view p).1 = s.drop p.1 p.2 := rfl
  have cases : (s.drop p.1 p.2).binding = some (.gate z) →
      (s.drop p.1 p.2).door.map g = (s.drop p.1 p.2).door ∧ (s.drop p.1 p.2).door.bind (ends (placeOf p.1 p.2)) = none := fun hg => by
    cases hd : (s.drop p.1 p.2).door with
    | none => exact ⟨rfl, rfl⟩
    | some d => exact ⟨congrArg some (kept d hg hd).1, (kept d hg hd).2⟩
  refine ⟨?_, ?_, fun k _ => by rw [same]⟩
  · rw [same, drop]
    split
    · next hg => rw [(cases hg).2]; exact .refl s _
    · exact .refl s _
  · rw [same, drop]
    split
    · next hg => rw [(cases hg).1]; rfl
    · rfl

/-- A record that the notice writes, with the entry that follows. -/
theorem noticesGate_writes {z : Fin 8} {g : DoorSide → DoorSide} {ends : Nat → DoorSide → Option Request}
    {f : State → Fin 2 × Fin 64 → State} {s : State} {p : Fin 2 × Fin 64} {d : DoorSide}
    (hg : (s.drop p.1 p.2).binding = some (.gate z)) (hd : (s.drop p.1 p.2).door = some d)
    (writes : f s p = match ends (placeOf p.1 p.2) d with
      | none => s.putDoor p.1 p.2 (some (g d))
      | some q => (s.putDoor p.1 p.2 (some (g d))).admitRequest q) : NoticesGate z g ends f s p := by
  have drop : (s.view p).1 = s.drop p.1 p.2 := rfl
  have put := s.reports_putDoor p.1 p.2 (some (g d))
  rw [hg, ofMirrorOf_gate] at put
  have lines : (f s p).lines = (s.putDoor p.1 p.2 (some (g d))).lines := by
    rw [writes]
    cases ends (placeOf p.1 p.2) d with
    | none => rfl
    | some q => exact State.records_lines (State.admitRequest_records _ q)
  refine ⟨?_, ?_, fun k hk => (State.view_of_lines lines k).trans (s.view_putDoor_other _ hk)⟩
  · rw [writes, drop, if_pos hg, hd, Option.bind_some]
    cases ends (placeOf p.1 p.2) d with
    | none => exact put
    | some q => exact put.trans (State.reports_admitRequest _ q _)
  · rw [State.view_of_lines lines p, drop, if_pos hg, hd]
    exact s.view_putDoor_same p.1 p.2 _

theorem State.zoneHeldAt_notices (z : Fin 8) (s : State) (p : Fin 2 × Fin 64) :
    NoticesGate z DoorSide.zoneHeld DoorSide.heldEnd (State.zoneHeldAt z) s p := by
  cases hd : (s.drop p.1 p.2).door with
  | none => exact noticesGate_idle (by unfold State.zoneHeldAt; simp [hd]) fun d _ h => by rw [hd] at h; cases h
  | some d =>
    by_cases hg : (s.drop p.1 p.2).binding = some (.gate z)
    · by_cases locks : d.latch = .latched ∨ d.latch = .granted
      · refine noticesGate_writes hg hd ?_
        have held : d.zoneHeld = { d with latch := .held, deadline := none, timer := false, heldCount := 0, alarm := false } := if_pos locks
        have drop := s.putDoor_drop p.1 p.2 (some d.zoneHeld)
        have run : State.zoneHeldAt z s p = if d.alarm then (s.putDoor p.1 p.2 (some d.zoneHeld)).doorEntry p.1 p.2 .doorHeldEnd d.heldCount
            else s.putDoor p.1 p.2 (some d.zoneHeld) := by
          unfold State.zoneHeldAt
          dsimp only
          rw [hg, hd]
          dsimp only
          rw [if_pos ⟨rfl, locks⟩, held]
        generalize s.putDoor p.1 p.2 (some d.zoneHeld) = t at *
        rw [run]
        by_cases alarm : d.alarm = true
        · rw [if_pos alarm, DoorSide.heldEnd, if_pos ⟨locks, alarm⟩]
          unfold State.doorEntry
          rw [drop, hg]
          rfl
        · rw [if_neg alarm, DoorSide.heldEnd, if_neg fun x => alarm x.2]
      · exact noticesGate_idle (by unfold State.zoneHeldAt; simp [hd, hg, locks]) fun e _ h => by
          obtain rfl : d = e := Option.some.inj (hd.symm.trans h)
          exact ⟨if_neg locks, if_neg fun x => locks x.1⟩
    · refine noticesGate_idle ?_ fun e h => absurd h hg
      unfold State.zoneHeldAt
      dsimp only
      split
      · next y e hb _ =>
        have ne : ¬y = z := fun h => hg (by rw [hb, h])
        rw [if_neg fun h => ne h.1]
      · rfl

theorem State.zoneFreedAt_notices (z : Fin 8) (s : State) (p : Fin 2 × Fin 64) :
    NoticesGate z DoorSide.zoneFreed (fun _ _ => none) (State.zoneFreedAt z) s p := by
  cases hd : (s.drop p.1 p.2).door with
  | none => exact noticesGate_idle (by unfold State.zoneFreedAt; simp [hd]) fun d _ h => by rw [hd] at h; cases h
  | some d =>
    by_cases hg : (s.drop p.1 p.2).binding = some (.gate z)
    · by_cases held : d.latch = .held
      · refine noticesGate_writes hg hd ?_
        unfold State.zoneFreedAt
        dsimp only
        rw [hg, hd]
        dsimp only
        rw [if_pos ⟨rfl, held⟩, DoorSide.zoneFreed, if_pos held]
      · exact noticesGate_idle (by unfold State.zoneFreedAt; simp [hd, hg, held]) fun e _ h => by
          obtain rfl : d = e := Option.some.inj (hd.symm.trans h)
          exact ⟨if_neg held, rfl⟩
    · refine noticesGate_idle ?_ fun e h => absurd h hg
      unfold State.zoneFreedAt
      dsimp only
      split
      · next y e hb _ =>
        have ne : ¬y = z := fun h => hg (by rw [hb, h])
        rw [if_neg fun h => ne h.1]
      · rfl

/-! ## A zone that enters or leaves HELD_OPEN (R13, R68) -/

/-- The gates of a zone have been asked `msg` and then given the notice: the entries of the OPENs lost and of the alarms ended; at each gate the
message, and the record without the OPEN it lost, after the notice; no other drop is reached. -/
structure State.ZoneNoticed (s t : State) (z : Fin 8) (msg : Directed) (g : DoorSide → DoorSide) (ends : Nat → DoorSide → Option Request) : Prop where
  reports : s.Reports t (fun _ => False) ((allDrops.flatMap fun p => gateLoss z p (s.view p)) ++ allDrops.flatMap fun p =>
    if (s.view p).1.binding = some (.gate z) then ((doorKept (s.view p)).bind (ends (placeOf p.1 p.2))).toList else [])
  gates : ∀ p : Fin 2 × Fin 64, (s.drop p.1 p.2).binding = some (.gate z) → p.2 ≠ 0 →
    (∃ o, t.drop p.1 p.2 = { s.drop p.1 p.2 with owed := o, door := (doorKept (s.view p)).map g }) ∧ t.Told p msg
  others : ∀ p : Fin 2 × Fin 64, (s.drop p.1 p.2).binding ≠ some (.gate z) → t.drop p.1 p.2 = s.drop p.1 p.2

theorem State.zoneNoticed (s : State) (z : Fin 8) (msg : Directed) (other : msg.isOpenOrDeny = false) (g : DoorSide → DoorSide)
    (ends : Nat → DoorSide → Option Request) (f : State → Fin 2 × Fin 64 → State) (notices : ∀ u p, NoticesGate z g ends f u p) :
    s.ZoneNoticed (allDrops.foldl f (allDrops.foldl (State.askGate z msg) s)) z msg g ends := by
  obtain ⟨asked, each⟩ := s.askGates_spec z msg other
  generalize allDrops.foldl (State.askGate z msg) s = t at *
  have told := foldl_reports (f := f) (look := State.view) (part := fun _ => False)
    (reqs := fun p v => if v.1.binding = some (.gate z) then (v.1.door.bind (ends (placeOf p.1 p.2))).toList else [])
    (fun u p => (notices u p).reports) (fun u p k hk => (notices u p).far k hk) allDrops_nodup t
  have own (p : Fin 2 × Fin 64) : (allDrops.foldl f t).view p =
      if (t.view p).1.binding = some (.gate z) ∧ p ∈ allDrops then ({ (t.view p).1 with door := (t.view p).1.door.map g }, (t.view p).2)
      else t.view p := by
    by_cases hp : p ∈ allDrops
    · obtain ⟨u, -, before, after⟩ := foldl_visits (look := State.view) (I := fun _ => True) (f := f) (fun _ _ _ => trivial)
        (fun u i k _ hk => (notices u i).far k hk) allDrops_nodup (s := t) trivial hp
      rw [after, (notices u p).own, before]
      simp only [hp, and_true]
    · rw [if_neg fun h => hp h.2]
      exact foldl_skips (look := State.view) (I := fun _ => True) (f := f) (fun _ _ _ => trivial)
        (fun u i k _ hk => (notices u i).far k hk) trivial hp
  generalize allDrops.foldl f t = w at *
  have first (p : Fin 2 × Fin 64) (hp : p.2 ≠ 0) : (if (t.view p).1.binding = some (.gate z) then
      ((t.view p).1.door.bind (ends (placeOf p.1 p.2))).toList else []) =
      if (s.view p).1.binding = some (.gate z) then ((doorKept (s.view p)).bind (ends (placeOf p.1 p.2))).toList else [] := by
    by_cases hg : (s.drop p.1 p.2).binding = some (.gate z)
    · obtain ⟨⟨o, e⟩, -⟩ := (each p).1 hg hp
      have tv : (t.view p).1 = { s.drop p.1 p.2 with owed := o, door := doorKept (s.view p) } := e
      have sv : (s.view p).1 = s.drop p.1 p.2 := rfl
      rw [tv, sv, if_pos hg]
    · have sv : (s.view p).1 = s.drop p.1 p.2 := rfl
      rw [(each p).2 hg, sv, if_neg hg, if_neg hg]
  refine ⟨?_, fun p hg hp => ?_, fun p hg => ?_⟩
  · have same := List.flatMap_congr fun p hp => first p ((mem_allDrops p.1 p.2).1 hp)
    rw [same] at told
    exact asked.trans told
  · obtain ⟨⟨o, e⟩, stands⟩ := (each p).1 hg hp
    have tv : (t.view p).1 = { s.drop p.1 p.2 with owed := o, door := doorKept (s.view p) } := e
    have final := own p
    rw [if_pos ⟨by rw [tv]; exact hg, (mem_allDrops p.1 p.2).2 hp⟩, tv] at final
    refine ⟨⟨o, congrArg Prod.fst final⟩, ?_⟩
    unfold State.Told at stands ⊢
    rw [final]
    rw [tv] at stands
    exact stands
  · have same := (each p).2 hg
    have final := own p
    rw [if_neg (by rw [same]; exact fun h => hg h.1), same] at final
    exact congrArg Prod.fst final

end Sys2Proof.Machine

namespace Sys2Proof.Machine

open Sys2Proof

/-! ## A table order that completes, after which the lines go on -/

/-- From `u` to `t` the order of block `b` has completed, the engine has chosen, and the lines have gone on. -/
structure State.Settled (u t : State) (b : Fin 16) (res : Result) (data : List Byte) : Prop where
  ended : t.Ended b res
  held : t.held = u.held.filter fun h => decide (h.block ≠ b)
  cause : t.cause = u.cause ||| causeOrderDone
  journal : t.journal = u.journal
  zones : t.zones = u.zones
  rooms : t.rooms = u.rooms
  minibars : t.minibars = u.minibars
  drop : ∀ (l : Fin 2) (a : Fin 64), t.drop l a = u.drop l a
  sends : ∀ (l : Fin 2) (m : QMsg), u.Sends l m → t.Sends l m
  rest : t.beyondLines = ({ u with engine := t.engine } : State).beyondLines
  bytes : u.KeepsBytes t (ofResult b)
  results : ∀ i n, t.resultAt b i n = (u.complete b res data).resultAt b i n

theorem State.complete_chooses (u : State) (b : Fin 16) (res : Result) (data : List Byte) :
    ∃ r e, (u.complete b res data).chooseOrder =
      { u with ram := r, engine := e, held := u.held.filter fun h => decide (h.block ≠ b), cause := u.cause ||| causeOrderDone } :=
  ⟨_, _, rfl⟩

theorem State.settled_complete (u : State) (b : Fin 16) (res : Result) (data : List Byte) (no : u.NoGoDue) :
    u.Settled (u.complete b res data).chooseOrder.settle b res data := by
  have on := State.settle_goesOn (u.complete b res data).chooseOrder no
  have ended := (u.complete_ended b res data).chooseOrder
  have bytes := State.KeepsBytes.chooseOrder (u.keepsBytes_complete b res data)
  have results := fun i n => State.chooseOrder_resultAt (u.complete b res data) b i n
  obtain ⟨r, e, changes⟩ := u.complete_chooses b res data
  generalize (u.complete b res data).chooseOrder = v at *
  generalize v.settle = t at *
  subst changes
  obtain ⟨lines, rfl, -⟩ := id on
  exact ⟨on.ended ended, rfl, rfl, rfl, rfl, rfl, rfl, fun l a => on.drop l a, fun l m h => on.sends h, rfl,
    fun x hx => (on.byte x).trans (bytes x hx), fun i n => (on.resultAt b i n).trans (results i n)⟩

theorem State.Settled.completes {s u t : State} {b : Fin 16} {res : Result} {data : List Byte} (h : u.Settled t b res data)
    (held : u.held = s.held) (cause : s.MaySetJournal u) : s.Completes t b res :=
  ⟨h.ended, by rw [h.held, held], cause.causesAfter h.cause⟩

/-! ## ZONE_SET (R13, R68) -/

theorem nodup_head_any {xs : List QMsg} {a : Fin 64} (nd : (xs.map QMsg.addr).Nodup) (f : QMsg → Bool) :
    (xs.any fun q => decide (q.addr = a) && f q) = (xs.filter fun q => decide (q.addr = a)).head?.any f := by
  induction xs with
  | nil => rfl
  | cons x xs ih =>
    obtain ⟨hx, nd⟩ := List.nodup_cons.1 nd
    by_cases h : x.addr = a
    · have none_ : (xs.any fun q => decide (q.addr = a) && f q) = false := by
        rw [List.any_eq_false]
        intro q hq e
        have : q.addr = a := by simp at e; exact e.1
        exact hx (List.mem_map.2 ⟨q, hq, this.trans h.symm⟩)
      simp [h, none_]
    · simp [h, ih nd]

/-- Under the laws of the queue, an OPEN of the door unit is lost where one waits for the drop. -/
theorem losesOpen_eq {s : State} {p : Fin 2 × Fin 64} (law : s.lines[p.1].QueueLaw) :
    losesOpen (s.view p) = s.lines[p.1].queue.any fun q => decide (q.addr = p.2 ∧ q.asker = .doorUnit) && q.msg.isOpen := by
  obtain ⟨empty, -, nd, -, -⟩ := law
  have split : (fun q : QMsg => decide (q.addr = p.2 ∧ q.asker = .doorUnit) && q.msg.isOpen) =
      fun q => decide (q.addr = p.2) && (decide (q.asker = .doorUnit) && q.msg.isOpen) := by
    funext q
    rw [← Bool.and_assoc, Bool.decide_and]
  rw [split, nodup_head_any nd]
  by_cases run : s.lines[p.1].state = .run
  · have running : (s.view p).2.2 = .run := run
    rw [losesOpen, running]
    rfl
  · have resting : (s.view p).2.2 ≠ .run := run
    rw [losesOpen, decide_eq_false resting, empty run]
    rfl

theorem placeOf_eq (l : Fin 2) (a : Fin 64) : placeOf l a = 128 * l.val + a.val := by
  unfold placeOf
  omega

/-- The record of a drop that lost an OPEN reads as before but for its grant and a GRANTED latch. -/
theorem doorKept_some {v : Drop × List QMsg × LineState} {d : DoorSide} (h : v.1.door = some d) :
    ∃ e, doorKept v = some e ∧ e.pending = (if losesOpen v then none else d.pending) ∧ e.leaf = d.leaf ∧ e.bolt = d.bolt ∧
      e.timer = d.timer ∧ e.alarm = d.alarm ∧ e.heldCount = d.heldCount ∧
      (e.latch = d.latch ∨ (d.latch = .granted ∧ e.latch = .latched)) := by
  unfold doorKept
  rw [h]
  split
  · refine ⟨d.withoutGrant, rfl, ?_⟩
    unfold DoorSide.withoutGrant
    by_cases hp : d.pending.isSome = true
    · rw [if_pos hp]
      refine ⟨rfl, rfl, rfl, rfl, rfl, rfl, ?_⟩
      dsimp only
      split
      · next hl => exact .inr ⟨hl.1, rfl⟩
      · exact .inl rfl
    · rw [if_neg hp]
      exact ⟨by simpa using hp, rfl, rfl, rfl, rfl, rfl, .inl rfl⟩
  · exact ⟨d, rfl, rfl, rfl, rfl, rfl, rfl, rfl, .inl rfl⟩

theorem heldEnd_kept (v : Drop × List QMsg × LineState) (place : Nat) :
    (doorKept v).bind (DoorSide.heldEnd place) = v.1.door.bind (DoorSide.heldEnd place) := by
  cases h : v.1.door with
  | none => simp [doorKept, h]
  | some d =>
    obtain ⟨e, he, -, -, -, -, alarm, count, latch⟩ := doorKept_some h
    have locks : (e.latch = .latched ∨ e.latch = .granted) ↔ (d.latch = .latched ∨ d.latch = .granted) := by
      obtain l | ⟨l, l'⟩ := latch
      · rw [l]
      · simp [l, l']
    rw [he]
    simp only [Option.bind_some, DoorSide.heldEnd, locks, alarm, count]

/-- ZONE_SET with a field out of range. -/
theorem State.zoneSet_bad (s : State) (h : Held)
    (bad : 8 ≤ leAt h.params 0 1 ∨ 3 ≤ leAt h.params 1 1 ∨ 1439 < leAt h.params 2 2 ∨ 1439 < leAt h.params 4 2) :
    s.zoneSet h = s.complete h.block .badParam [] := by
  unfold State.zoneSet
  dsimp only
  split
  · next z mode hz hm =>
    have zone : leAt h.params 0 1 < 8 := by
      unfold asFin at hz
      split at hz
      · assumption
      · cases hz
    have code : leAt h.params 1 1 < 3 := by
      unfold ZoneMode.ofCode at hm
      split at hm <;> first | omega | cases hm
    rw [if_pos (by omega)]
  · rfl

/-- ZONE_SET taken: the record, the entry, the notice to the gates. -/
theorem State.zoneSet_taken (s : State) (h : Held) (z : Fin 8) (mode : ZoneMode) (hz : leAt h.params 0 1 = z.val)
    (hm : leAt h.params 1 1 = mode.code) (from_ : leAt h.params 2 2 ≤ 1439) (to_ : leAt h.params 4 2 ≤ 1439) :
    s.zoneSet h =
      ((({ s with zones := s.zones.set z { mode := mode, openFrom := leAt h.params 2 2, openTo := leAt h.params 4 2 } } : State).admitRequest
        { kind := .zoneSet, subject := leAt h.params 2 2 * 65536 + leAt h.params 4 2, value := z.val * 256 + mode.code }).zoneModeChanged z
          s.zones[z].mode mode).complete h.block .ok [] := by
  have zone : asFin 8 (leAt h.params 0 1) = some z := by
    rw [hz]
    exact dif_pos z.isLt
  have code : ZoneMode.ofCode (leAt h.params 1 1) = some mode := by
    rw [hm]
    cases mode <;> rfl
  unfold State.zoneSet
  dsimp only
  rw [zone, code]
  dsimp only
  rw [if_neg (by omega)]
  rfl

theorem State.work_zoneModeChanged {w : Breadth} (s : State) (z : Fin 8) (old new : ZoneMode) : State.Work w s (s.zoneModeChanged z old new) := by
  have asks (msg : Directed) (u : State) (p : Fin 2 × Fin 64) : State.Work w u (State.askGate z msg u p) := by
    unfold State.askGate
    split
    · exact u.work_ask _ _ _ _
    · exact .refl u
  have holds (u : State) (p : Fin 2 × Fin 64) : State.Work w u (State.zoneHeldAt z u p) := by
    unfold State.zoneHeldAt
    dsimp only
    split
    · split
      · split
        · exact (u.work_putDoor _ _ _).trans (State.work_admitRequest _ _)
        · exact u.work_putDoor _ _ _
      · exact .refl u
    · exact .refl u
  have frees (u : State) (p : Fin 2 × Fin 64) : State.Work w u (State.zoneFreedAt z u p) := by
    unfold State.zoneFreedAt
    dsimp only
    split
    · split
      · exact u.work_putDoor _ _ _
      · exact .refl u
    · exact .refl u
  unfold State.zoneModeChanged
  split
  · exact (State.Work.foldl (asks .hold) _ s).trans (State.Work.foldl holds _ _)
  · split
    · exact (State.Work.foldl (asks .latch) _ s).trans (State.Work.foldl frees _ _)
    · exact .refl s

theorem State.Told.sends {s : State} {p : Fin 2 × Fin 64} {msg : Directed} (h : s.Told p msg) :
    s.Sends p.1 { addr := p.2, msg := msg, asker := .zoneTable } ∨ (s.drop p.1 p.2).owed = some { msg := msg, asker := .zoneTable } :=
  h.imp_left fun hm => .inl (List.mem_of_mem_filter hm)

end Sys2Proof.Machine

namespace Sys2Proof.Machine

open Sys2Proof

/-! ## What ZONE_SET asks the journal for -/

/-- An OPEN of the door unit waits for the drop. -/
def State.doorOpenWaits (s : State) (l : Fin 2) (a : Fin 64) : Bool :=
  s.lines[l].queue.any fun q => decide (q.addr = a ∧ q.asker = .doorUnit) && q.msg.isOpen

/-- The entries of the OPENs lost to the messages of a zone's gates (R63, R140). -/
def State.zoneLosses (s : State) (z : Fin 8) : List Request := allDrops.filterMap fun x =>
  if (s.drop x.1 x.2).binding = some (.gate z) ∧ s.doorOpenWaits x.1 x.2 = true then
    ((s.drop x.1 x.2).door.bind DoorSide.pending).map fun g => g.lostEntry (128 * x.1.val + x.2.val) 3
  else none

/-- The entries of the held alarms a zone's notice ends (R68). -/
def State.zoneEnds (s : State) (z : Fin 8) : List Request := allDrops.filterMap fun x =>
  if (s.drop x.1 x.2).binding = some (.gate z) then (s.drop x.1 x.2).door.bind (DoorSide.heldEnd (128 * x.1.val + x.2.val)) else none

theorem State.gateLosses_eq {s : State} (law : s.LineInv) (z : Fin 8) :
    (allDrops.flatMap fun p => gateLoss z p (s.view p)) = s.zoneLosses z := by
  rw [State.zoneLosses, List.filterMap_eq_flatMap_toList]
  refine List.flatMap_congr fun p _ => ?_
  have drop : (s.view p).1 = s.drop p.1 p.2 := rfl
  rw [gateLoss, drop, losesOpen_eq (law p.1).1, lostEntries, placeOf_eq]
  have waits : (s.lines[p.1].queue.any fun q => decide (q.addr = p.2 ∧ q.asker = .doorUnit) && q.msg.isOpen) = s.doorOpenWaits p.1 p.2 := rfl
  rw [waits]
  by_cases h : (s.drop p.1 p.2).binding = some (.gate z) ∧ s.doorOpenWaits p.1 p.2 = true
  · rw [if_pos h, if_pos h]
  · rw [if_neg h, if_neg h]
    rfl

theorem State.gateEnds_eq (s : State) (z : Fin 8) : (allDrops.flatMap fun p => if (s.view p).1.binding = some (.gate z) then
    ((doorKept (s.view p)).bind (DoorSide.heldEnd (placeOf p.1 p.2))).toList else []) = s.zoneEnds z := by
  rw [State.zoneEnds, List.filterMap_eq_flatMap_toList]
  refine List.flatMap_congr fun p _ => ?_
  have drop : (s.view p).1 = s.drop p.1 p.2 := rfl
  rw [heldEnd_kept, placeOf_eq, drop]
  split <;> rfl

theorem flatMap_nil_ite {α β : Type} (xs : List α) (f : α → Prop) [DecidablePred f] (g : α → Option DoorSide) :
    (xs.flatMap fun x => if f x then ((g x).bind fun _ => (none : Option β)).toList else []) = [] := by
  refine List.flatMap_eq_nil_iff.2 fun x _ => ?_
  cases g x <;> simp

theorem State.zoneLosses_routine (s : State) (z : Fin 8) : ∀ q ∈ s.zoneLosses z, q.kind.isAlarm = false := by
  intro q hq
  obtain ⟨p, -, e⟩ := List.mem_filterMap.1 hq
  split at e
  · obtain ⟨g, -, rfl⟩ := Option.map_eq_some_iff.1 e
    rfl
  · cases e

theorem State.zoneEnds_routine (s : State) (z : Fin 8) : ∀ q ∈ s.zoneEnds z, q.kind.isAlarm = false := by
  intro q hq
  obtain ⟨p, -, e⟩ := List.mem_filterMap.1 hq
  split at e
  · obtain ⟨d, -, e⟩ := Option.bind_eq_some_iff.1 e
    unfold DoorSide.heldEnd at e
    split at e
    · cases e; rfl
    · cases e
  · cases e

/-! ## The gates of a zone after the notice -/

theorem DoorSide.zoneHeld_pending (d : DoorSide) : d.zoneHeld.pending = d.pending := by
  unfold DoorSide.zoneHeld
  split <;> rfl

theorem DoorSide.zoneFreed_pending (d : DoorSide) : d.zoneFreed.pending = d.pending := by
  unfold DoorSide.zoneFreed
  split
  · split <;> rfl
  · rfl

/-- A drop with a binding has an address. -/
theorem State.BindingInv.addr {s : State} (h : s.BindingInv) {l : Fin 2} {a : Fin 64} {b : Binding} (hb : (s.drop l a).binding = some b) : a ≠ 0 := by
  rintro rfl
  rw [h.1 l] at hb
  cases hb

section
variable {s t : State} {z : Fin 8} {msg : Directed} {g : DoorSide → DoorSide} {ends : Nat → DoorSide → Option Request}
  (h : s.ZoneNoticed t z msg g ends) {l : Fin 2} {a : Fin 64} (hg : (s.drop l a).binding = some (.gate z)) (ha : a ≠ 0)
include h hg ha

theorem State.ZoneNoticed.told : t.Sends l { addr := a, msg := msg, asker := .zoneTable } ∨
    (t.drop l a).owed = some { msg := msg, asker := .zoneTable } := (h.gates (l, a) hg ha).2.sends

theorem State.ZoneNoticed.door {d : DoorSide} (hd : (s.drop l a).door = some d) :
    ∃ e, (t.drop l a).door = some (g e) ∧ e.pending = (if losesOpen (s.view (l, a)) then none else d.pending) ∧ e.leaf = d.leaf ∧
      e.bolt = d.bolt ∧ e.timer = d.timer ∧ (e.latch = d.latch ∨ (d.latch = .granted ∧ e.latch = .latched)) := by
  obtain ⟨⟨o, drop⟩, -⟩ := h.gates (l, a) hg ha
  obtain ⟨e, kept, pending, leaf, bolt, timer, -, -, latch⟩ := doorKept_some (v := s.view (l, a)) hd
  refine ⟨e, ?_, pending, leaf, bolt, timer, latch⟩
  rw [show t.drop l a = { s.drop l a with owed := o, door := (doorKept (s.view (l, a))).map g } from drop, kept]
  rfl

theorem State.ZoneNoticed.pending (law : s.LineInv) (keeps : ∀ d, (g d).pending = d.pending) {d : DoorSide} (hd : (s.drop l a).door = some d) :
    (t.drop l a).door.map DoorSide.pending = some (if s.doorOpenWaits l a then none else d.pending) := by
  obtain ⟨e, door, pending, -⟩ := h.door hg ha hd
  rw [door, Option.map_some, keeps, pending, losesOpen_eq (law l).1]
  rfl
end

theorem DoorSide.zoneHeld_of {d e : DoorSide} (locks : d.latch = .latched ∨ d.latch = .granted)
    (latch : e.latch = d.latch ∨ (d.latch = .granted ∧ e.latch = .latched)) :
    e.zoneHeld = { e with latch := .held, deadline := none, timer := false, heldCount := 0, alarm := false } := by
  refine if_pos ?_
  obtain l | ⟨-, l⟩ := latch
  · rw [l]; exact locks
  · exact .inl l

/-- A LATCH asked for and the notice that the zone is no longer held, at a HELD gate (R68). -/
theorem DoorSide.zoneFreed_of {d e : DoorSide} (held : d.latch = .held) (leaf : e.leaf = d.leaf) (timer : e.timer = d.timer)
    (latch : e.latch = d.latch ∨ (d.latch = .granted ∧ e.latch = .latched)) :
    e.zoneFreed.latch = .latched ∧ e.zoneFreed.leaf = d.leaf ∧
      (d.leaf = .opened → e.zoneFreed.timer = true ∧ e.zoneFreed.heldCount = 0 ∧ e.zoneFreed.alarm = false) ∧
      (d.leaf ≠ .opened → e.zoneFreed.timer = d.timer) := by
  have eHeld : e.latch = .held := latch.elim (fun l => l.trans held) fun l => by rw [held] at l; exact absurd l.1 (by decide)
  unfold DoorSide.zoneFreed
  rw [if_pos eHeld]
  by_cases opened : e.leaf = .opened
  · rw [if_pos opened]
    exact ⟨rfl, leaf, fun _ => ⟨rfl, rfl, rfl⟩, fun h => absurd (leaf.symm.trans opened) h⟩
  · rw [if_neg opened]
    exact ⟨rfl, leaf, fun h => absurd (leaf.trans h) opened, fun _ => timer⟩

/-! ## The three courses of a ZONE_SET -/

theorem State.zoneModeChanged_entered (s : State) (z : Fin 8) {old new : ZoneMode} (ho : old ≠ .heldOpen) (hn : new = .heldOpen) :
    s.ZoneNoticed (s.zoneModeChanged z old new) z .hold DoorSide.zoneHeld DoorSide.heldEnd := by
  rw [State.zoneModeChanged, if_pos ⟨ho, hn⟩]
  exact s.zoneNoticed z .hold rfl _ _ _ (State.zoneHeldAt_notices z)

theorem State.zoneModeChanged_left (s : State) (z : Fin 8) {old new : ZoneMode} (ho : old = .heldOpen) (hn : new ≠ .heldOpen) :
    s.ZoneNoticed (s.zoneModeChanged z old new) z .latch DoorSide.zoneFreed fun _ _ => none := by
  rw [State.zoneModeChanged, if_neg fun h => h.1 ho, if_pos ⟨ho, hn⟩]
  exact s.zoneNoticed z .latch rfl _ _ _ (State.zoneFreedAt_notices z)

theorem State.zoneModeChanged_kept (s : State) (z : Fin 8) {old new : ZoneMode} (h : ¬(old = .heldOpen ↔ new ≠ .heldOpen)) :
    s.zoneModeChanged z old new = s := by
  rw [State.zoneModeChanged, if_neg (fun e => h (by simp [e.1, e.2])), if_neg fun e => h (by simp [e.1, e.2])]

/-- A drop's record reads no zone. -/
theorem State.zoneLosses_of_lines {s t : State} (h : t.lines = s.lines) (z : Fin 8) : t.zoneLosses z = s.zoneLosses z := by
  unfold State.zoneLosses State.doorOpenWaits State.drop
  rw [h]

theorem State.zoneEnds_of_lines {s t : State} (h : t.lines = s.lines) (z : Fin 8) : t.zoneEnds z = s.zoneEnds z := by
  unfold State.zoneEnds State.drop
  rw [h]

/-- The notice of a zone's mode asks for ROUTINE entries, those of the OPENs lost and then of the alarms ended. -/
theorem State.zoneModeChanged_reports (s : State) (law : s.LineInv) (z : Fin 8) (old new : ZoneMode) :
    ∃ qs, (∀ q ∈ qs, q.kind.isAlarm = false) ∧ s.Reports (s.zoneModeChanged z old new) (fun _ => False) qs ∧
      ((old = .heldOpen ↔ new ≠ .heldOpen) → ∃ rs, qs = s.zoneLosses z ++ rs) ∧
      (old ≠ .heldOpen → new = .heldOpen → qs = s.zoneLosses z ++ s.zoneEnds z) ∧
      (old = .heldOpen → new ≠ .heldOpen → qs = s.zoneLosses z) := by
  by_cases ho : old = .heldOpen
  · by_cases hn : new = .heldOpen
    · rw [s.zoneModeChanged_kept z fun h => h.1 ho hn]
      exact ⟨[], nofun, .refl s _, fun h => absurd hn (h.1 ho), fun h => absurd ho h, fun _ h => absurd hn h⟩
    · have reports := (s.zoneModeChanged_left z ho hn).reports
      rw [State.gateLosses_eq law, flatMap_nil_ite, List.append_nil] at reports
      exact ⟨_, s.zoneLosses_routine z, reports, fun _ => ⟨[], by simp⟩, fun h => absurd ho h, fun _ _ => rfl⟩
  · by_cases hn : new = .heldOpen
    · have reports := (s.zoneModeChanged_entered z ho hn).reports
      rw [State.gateLosses_eq law, State.gateEnds_eq] at reports
      refine ⟨_, fun q hq => ?_, reports, fun _ => ⟨_, rfl⟩, fun _ _ => rfl, fun h => absurd h ho⟩
      exact (List.mem_append.1 hq).elim (s.zoneLosses_routine z q) (s.zoneEnds_routine z q)
    · rw [s.zoneModeChanged_kept z fun h => ho (h.2 hn)]
      exact ⟨[], nofun, .refl s _, fun h => absurd (h.2 hn) ho, fun _ h => absurd h hn, fun h => absurd h ho⟩

/-- Settles O26: the record and its entry, then the notice of the zone to its gates, in the three courses of the mode. -/
theorem zoneSetWritesTheZone : Obligations.ZoneSetWritesTheZone := by
  intro s b h now law bound
  have hb : h.block = b := now.block
  have run : exec (.zoneSet b) s = .next (s.zoneSet h).chooseOrder.settle := by
    show Host.Outcome.next (s.serve b .zoneSet State.zoneSet State.settle) = _
    rw [now.serve]
  dsimp only
  refine ⟨fun bad => ⟨_, by rw [run, s.zoneSet_bad h bad, hb], s.refuses_complete b .badParam []⟩, fun z mode hz hm from_ to_ => ?_⟩
  rw [s.zoneSet_taken h z mode hz hm from_ to_, hb] at run
  generalize leAt h.params 2 2 = openFrom at *
  generalize leAt h.params 4 2 = openTo at *
  generalize hZ : s.zones.set z.val { mode := mode, openFrom := openFrom, openTo := openTo } = zones at *
  generalize hq : ({ kind := .zoneSet, subject := openFrom * 65536 + openTo, value := z.val * 256 + mode.code } : Request) = entry at *
  have asked := State.reports_admitRequest { s with zones := zones } entry fun _ => False
  have records := State.admitRequest_records { s with zones := zones } entry
  have written : State.Work .calm { s with zones := zones } (({ s with zones := zones } : State).admitRequest entry) := State.work_admitRequest _ _
  generalize ({ s with zones := zones } : State).admitRequest entry = v at *
  have lines : v.lines = s.lines := (State.records_lines records :)
  have drop (l : Fin 2) (a : Fin 64) : v.drop l a = s.drop l a := (State.records_drop records l a :)
  have law' : v.LineInv := by unfold State.LineInv; rw [lines]; exact law
  have view (p : Fin 2 × Fin 64) : v.view p = s.view p := State.view_of_lines lines p
  have entered := v.zoneModeChanged_entered z (old := s.zones[z].mode) (new := mode)
  have left := v.zoneModeChanged_left z (old := s.zones[z].mode) (new := mode)
  have kept := v.zoneModeChanged_kept z (old := s.zones[z].mode) (new := mode)
  obtain ⟨qs, routine, noticed, changed, entering, leaving⟩ := v.zoneModeChanged_reports law' z s.zones[z].mode mode
  have work := written.trans (v.work_zoneModeChanged z s.zones[z].mode mode)
  generalize v.zoneModeChanged z s.zones[z].mode mode = m at *
  rw [State.zoneLosses_of_lines lines] at changed entering leaving
  rw [State.zoneEnds_of_lines lines] at entering
  have reports := asked.trans noticed
  have logs : s.Logs m (entry :: qs) := reports.logs
  have cause : s.MaySetJournal m := reports.cause fun q h => by
    obtain rfl | h := List.mem_cons.1 h
    · rw [← hq]; rfl
    · exact routine q h
  have quiet : m.NoGoDue := State.NoGoDue.of_course (s := s) law.noGoDue work.course
  have settled := m.settled_complete b .ok [] quiet
  generalize (m.complete b .ok []).chooseOrder.settle = t at *
  have journal : t.journal.queue = m.journal.queue := congrArg Journal.queue settled.journal
  have zonesAt : t.zones = zones := settled.zones.trans work.zones
  refine ⟨t, run, settled.completes reports.held cause, zonesAt, ?_, journal ▸ logs.queueAfter_prefix, fun changes room => ?_,
    fun ho hn room => ?_, fun ho hn room => ?_, fun changes l a hg d hd => ?_, fun l a hg => ⟨fun ho hn => ⟨?_, fun d hd locks => ?_⟩, fun ho hn => ⟨?_, fun d hd held => ?_⟩⟩,
    fun l a hg => ?_, ?_⟩
  · have rest := congrArg (fun u : State => ({ u with engine := t.engine } : State)) (work.beyondLines nofun)
    rw [settled.rest, zonesAt]
    exact rest
  · obtain ⟨rs, rfl⟩ := changed changes
    rw [journal]
    exact State.Logs.admits_prefix (qs := entry :: s.zoneLosses z) logs (by rw [List.length_cons, Nat.add_comm]; exact room)
  · rw [entering ho hn] at logs
    unfold State.Admits
    rw [journal]
    refine logs.admits ?_
    rw [List.length_cons, List.length_append, Nat.add_right_comm, Nat.add_comm _ 1]
    exact room
  · rw [leaving ho hn] at logs
    unfold State.Admits
    rw [journal]
    exact logs.admits (by rw [List.length_cons, Nat.add_comm]; exact room)
  · rw [settled.drop]
    have hg' : (v.drop l a).binding = some (.gate z) := by rw [drop]; exact hg
    have hd' : (v.drop l a).door = some d := by rw [drop]; exact hd
    have waits : v.doorOpenWaits l a = s.doorOpenWaits l a := by unfold State.doorOpenWaits; rw [lines]
    by_cases ho : s.zones[z].mode = .heldOpen
    · have pending := (left ho (changes.1 ho)).pending hg' (bound.addr hg) law' DoorSide.zoneFreed_pending hd'
      rw [waits] at pending
      exact pending
    · have pending := (entered ho (by_contra fun hn => ho (changes.2 hn))).pending hg' (bound.addr hg) law' DoorSide.zoneHeld_pending hd'
      rw [waits] at pending
      exact pending
  · rw [settled.drop]
    exact ((entered ho hn).told (by rw [drop]; exact hg) (bound.addr hg)).imp_left (settled.sends _ _)
  · obtain ⟨e, door, -, leaf, bolt, -, latch⟩ := (entered ho hn).door (by rw [drop]; exact hg) (bound.addr hg) (d := d) (by rw [drop]; exact hd)
    rw [settled.drop, door, DoorSide.zoneHeld_of locks latch]
    exact ⟨_, rfl, rfl, rfl, rfl, rfl, rfl, leaf, bolt⟩
  · rw [settled.drop]
    exact ((left ho hn).told (by rw [drop]; exact hg) (bound.addr hg)).imp_left (settled.sends _ _)
  · obtain ⟨e, door, -, leaf, -, timer, latch⟩ := (left ho hn).door (by rw [drop]; exact hg) (bound.addr hg) (d := d) (by rw [drop]; exact hd)
    rw [settled.drop, door]
    exact ⟨_, rfl, DoorSide.zoneFreed_of held leaf timer latch⟩
  · have other : (v.drop l a).binding ≠ some (.gate z) := by rw [drop]; exact hg
    rw [settled.drop, ← drop]
    by_cases ho : s.zones[z].mode = .heldOpen
    · by_cases hn : mode = .heldOpen
      · rw [kept fun h => h.1 ho hn]
      · exact (left ho hn).others (l, a) other
    · by_cases hn : mode = .heldOpen
      · exact (entered ho hn).others (l, a) other
      · rw [kept fun h => ho (h.2 hn)]
  · have bytes : s.KeepsBytes m _ := reports.bytes
    exact (bytes.mono fun x h => .inr (h.resolve_left id)).trans (settled.bytes.mono fun x => .inl)

end Sys2Proof.Machine

namespace Sys2Proof.Machine

open Sys2Proof

/-! ## Work on the lines' records alone -/

/-- From `s` to `t` no record has changed but those of the lines. -/
def State.OnLines (s t : State) : Prop := t.records = ({ s with lines := t.lines } : State).records

theorem State.OnLines.of_records {s t : State} (h : t.records = s.records) : s.OnLines t := by
  unfold State.OnLines
  rw [State.records_lines h]
  exact h

theorem State.OnLines.refl (s : State) : s.OnLines s := .of_records rfl

theorem State.OnLines.trans {s t u : State} (h : s.OnLines t) (h' : t.OnLines u) : s.OnLines u :=
  Eq.trans h' (congrArg (fun x : State => ({ x with lines := u.lines } : State)) h)

theorem State.onLines_setLine (s : State) (l : Fin 2) (x : Line) : s.OnLines (s.setLine l x) := rfl

theorem State.onLines_setDrop (s : State) (l : Fin 2) (a : Fin 64) (d : Drop) : s.OnLines (s.setDrop l a d) := rfl

theorem State.onLines_setOwed (s : State) (l : Fin 2) (a : Fin 64) (o : Option Owed) : s.OnLines (s.setOwed l a o) := rfl

theorem State.onLines_setQueue (s : State) (l : Fin 2) (q : List QMsg) : s.OnLines (s.setQueue l q) := rfl

theorem State.onLines_admitRequest (s : State) (q : Request) : s.OnLines (s.admitRequest q) := .of_records (s.admitRequest_records q)

theorem State.onLines_putDoor (s : State) (l : Fin 2) (a : Fin 64) (x : Option DoorSide) : s.OnLines (s.putDoor l a x) := by
  unfold State.OnLines
  rw [s.putDoor_lines, s.putDoor_records]
  rfl

section
variable {s t : State} (h : s.OnLines t)
include h

theorem State.OnLines.rooms : t.rooms = s.rooms := (congrArg State.rooms h :)
theorem State.OnLines.minibars : t.minibars = s.minibars := (congrArg State.minibars h :)
theorem State.OnLines.zones : t.zones = s.zones := (congrArg State.zones h :)
theorem State.OnLines.site : t.site = s.site := (congrArg State.site h :)
theorem State.OnLines.clock : t.clock = s.clock := (congrArg State.clock h :)
theorem State.OnLines.revs : t.revs = s.revs := (congrArg State.revs h :)

theorem State.OnLines.gateHeld (b : Option Binding) : t.gateHeld b = s.gateHeld b := by
  unfold State.gateHeld
  rw [h.zones]

theorem State.OnLines.latchFor (b : Option Binding) (p : Presence) : t.latchFor b p = s.latchFor b p := by
  unfold State.latchFor
  rw [h.gateHeld]
end

theorem State.doorGrantLost_onLines (s : State) (l : Fin 2) (a : Fin 64) (cause : Nat) : s.OnLines (s.doorGrantLost l a cause) := by
  cases hg : (s.drop l a).door.bind DoorSide.pending with
  | none => rw [s.doorGrantLost_none l a cause hg]; exact .refl s
  | some g =>
    obtain ⟨d, hd, hp⟩ := Option.bind_eq_some_iff.1 hg
    rw [s.doorGrantLost_some l a cause d g hd hp]
    exact (s.onLines_admitRequest _).trans (State.onLines_putDoor _ _ _ _)

theorem State.openLost_onLines (s : State) (l : Fin 2) (a : Fin 64) (asker : Asker) (cause : Nat) (none_ : s.minibarAt l a = none) :
    s.OnLines (s.openLost l a asker cause) := by
  unfold State.openLost
  cases asker with
  | doorUnit => exact s.doorGrantLost_onLines l a cause
  | minibarUnit => rw [none_]; exact .refl s
  | zoneTable => exact .refl s

theorem State.minibarAt_congr {s t : State} {l : Fin 2} {a : Fin 64} (h : (t.drop l a).binding = (s.drop l a).binding) :
    t.minibarAt l a = s.minibarAt l a := by
  unfold State.minibarAt
  rw [h]

/-- A request at a drop that is no minibar's touches the lines alone (R139). -/
theorem State.request_onLines (s : State) (l : Fin 2) (m : QMsg) (none_ : s.minibarAt l m.addr = none) : s.OnLines (s.request l m).1 := by
  have owe : s.OnLines (s.owe l m).1 := by
    unfold State.owe
    split
    · exact .refl s
    · exact s.onLines_setOwed _ _ _
  unfold State.request
  dsimp only
  split
  · exact owe
  · split
    · exact .refl s
    · split
      · have queued := (s.onLines_setQueue l (s.lines[l].queue.map fun q => if q.addr = m.addr then m else q)).trans
          (State.onLines_setOwed _ l m.addr none)
        have binding : (((s.setQueue l (s.lines[l].queue.map fun q => if q.addr = m.addr then m else q)).setOwed l m.addr none).drop l m.addr).binding =
            (s.drop l m.addr).binding := by rw [State.setOwed_drop, s.drop_setQueue]
        split
        · exact queued.trans (State.openLost_onLines _ _ _ _ _ ((State.minibarAt_congr binding).trans none_))
        · exact queued
      · split
        · exact (s.onLines_setQueue _ _).trans (State.onLines_setOwed _ _ _ _)
        · exact owe

/-! ## Work at one drop -/

/-- From `s` to `t` the journal has taken `qs`, and no record has changed but that of one drop and the messages that wait for it. -/
structure State.AtDrop (s t : State) (l : Fin 2) (a : Fin 64) (part : Nat → Prop) (qs : List Request) : Prop where
  reports : s.Reports t part qs
  onLines : s.OnLines t
  others : ∀ p, p ≠ (l, a) → t.view p = s.view p

theorem State.AtDrop.refl (s : State) (l : Fin 2) (a : Fin 64) (part : Nat → Prop) : s.AtDrop s l a part [] :=
  ⟨.refl s part, .refl s, fun _ _ => rfl⟩

theorem State.AtDrop.trans {s t u : State} {l : Fin 2} {a : Fin 64} {part : Nat → Prop} {qs rs : List Request} (h : s.AtDrop t l a part qs)
    (h' : t.AtDrop u l a part rs) : s.AtDrop u l a part (qs ++ rs) :=
  ⟨h.reports.trans h'.reports, h.onLines.trans h'.onLines, fun p hp => (h'.others p hp).trans (h.others p hp)⟩

theorem State.AtDrop.trans_nil {s t u : State} {l : Fin 2} {a : Fin 64} {part : Nat → Prop} {qs : List Request} (h : s.AtDrop t l a part qs)
    (h' : t.AtDrop u l a part []) : s.AtDrop u l a part qs := List.append_nil qs ▸ h.trans h'

theorem State.AtDrop.mono {s t : State} {l : Fin 2} {a : Fin 64} {part part' : Nat → Prop} {qs : List Request} (h : s.AtDrop t l a part qs)
    (sub : ∀ x, part x → part' x) : s.AtDrop t l a part' qs := ⟨h.reports.mono sub, h.onLines, h.others⟩

theorem State.atDrop_setDrop (s : State) (l : Fin 2) (a : Fin 64) (d : Drop) (part : Nat → Prop) : s.AtDrop (s.setDrop l a d) l a part [] :=
  ⟨s.reports_setDrop l a d part, s.onLines_setDrop l a d, fun _ hp => s.view_setDrop_other d hp⟩

theorem State.atDrop_admitRequest (s : State) (l : Fin 2) (a : Fin 64) (q : Request) (part : Nat → Prop) : s.AtDrop (s.admitRequest q) l a part [q] :=
  ⟨s.reports_admitRequest q part, s.onLines_admitRequest q, fun p _ => State.view_of_lines (State.records_lines (s.admitRequest_records q)) p⟩

theorem ofMirrorOf_rooms {b : Option Binding} {x : Nat} (h : ofMirrorOf b x) : ofRoomMirrors x :=
  let ⟨r, _, hx⟩ := h
  ⟨r, hx⟩

theorem State.atDrop_putDoor (s : State) (l : Fin 2) (a : Fin 64) (x : Option DoorSide) : s.AtDrop (s.putDoor l a x) l a ofRoomMirrors [] :=
  ⟨(s.reports_putDoor l a x).mono fun _ => ofMirrorOf_rooms, s.onLines_putDoor l a x, fun _ hp => s.view_putDoor_other x hp⟩

theorem State.atDrop_rewriteRoomOf (s : State) (l : Fin 2) (a : Fin 64) (b : Option Binding) :
    s.AtDrop (s.rewriteRoomOf b) l a ofRoomMirrors [] :=
  ⟨(s.reports_rewriteRoomOf b).mono fun _ => ofMirrorOf_rooms, .of_records (s.rewriteRoomOf_records b),
    fun p _ => State.view_of_lines (State.records_lines (s.rewriteRoomOf_records b)) p⟩

theorem State.rewriteRoomOf_drop (s : State) (b : Option Binding) (l : Fin 2) (a : Fin 64) : (s.rewriteRoomOf b).drop l a = s.drop l a :=
  State.records_drop (s.rewriteRoomOf_records b) l a

/-- The parts of shared RAM that show rooms and the drop. -/
def ofMirrors (l : Fin 2) (a : Fin 64) (x : Nat) : Prop := ofRoomMirrors x ∨ ofDropMirror l a x

theorem State.atDrop_rewriteDrop (s : State) (l : Fin 2) (a : Fin 64) : s.AtDrop (s.rewriteDrop l a) l a (ofMirrors l a) [] :=
  ⟨⟨rfl, rfl, .nil rfl, fun _ => .inl rfl, (s.keepsBytes_rewriteDrop l a).mono fun _ h => .inl (.inr h), fun _ => rfl⟩, .of_records rfl, fun _ _ => rfl⟩

theorem State.rewriteDrop_shows (s : State) (l : Fin 2) (a : Fin 64) :
    (s.rewriteDrop l a).byte (0xA80 + 64 * l.val + a.val) = byteOf (s.drop l a).presence.code := by
  refine (State.byte_store_in s _ _ _ le_rfl (by simp)).trans ?_
  simp

/-- Work that writes no drop mirror leaves what a drop's mirror shows. -/
theorem State.Reports.dropMirror {s t : State} {qs : List Request} (h : s.Reports t ofRoomMirrors qs) (l : Fin 2) (a : Fin 64) :
    t.byte (0xA80 + 64 * l.val + a.val) = s.byte (0xA80 + 64 * l.val + a.val) := by
  refine h.bytes _ fun e => ?_
  obtain ⟨r, e⟩ | e | e := e
  · have := ofRoomMirror_range e
    omega
  · unfold ofDescriptors at e; omega
  · unfold ofSiteMirror at e; omega

/-! ## HOLD and LATCH asked for where nothing is lost (R14, R139) -/

theorem losesOpen_congr {v w : Drop × List QMsg × LineState} (h : v.2 = w.2) : losesOpen v = losesOpen w := by
  unfold losesOpen
  rw [h]

/-- At the drop no OPEN of the door unit can be lost. -/
def State.NothingLost (s : State) (l : Fin 2) (a : Fin 64) : Prop := losesOpen (s.view (l, a)) = false ∨ (s.drop l a).door.bind DoorSide.pending = none

theorem State.NothingLost.entries {s : State} {l : Fin 2} {a : Fin 64} (h : s.NothingLost l a) (place cause : Nat) :
    (if losesOpen (s.view (l, a)) then lostEntries place cause (s.drop l a).door else []) = [] := by
  obtain h | h := h
  · rw [h]; rfl
  · simp [lostEntries, h]

theorem State.NothingLost.kept {s : State} {l : Fin 2} {a : Fin 64} (h : s.NothingLost l a) : doorKept (s.view (l, a)) = (s.drop l a).door := by
  have door : (s.view (l, a)).1.door = (s.drop l a).door := rfl
  unfold doorKept
  rw [door]
  obtain h | h := h
  · rw [h]; rfl
  · rw [DoorSide.withoutGrant_none h, ite_self]

/-- A drop whose line's queue is empty. -/
theorem State.losesOpen_of_empty {s : State} {l : Fin 2} (a : Fin 64) (h : s.lines[l].queue = []) : losesOpen (s.view (l, a)) = false := by
  have empty : (s.view (l, a)).2.1 = [] := by
    show s.lines[l].queue.filter _ = []
    rw [h]; rfl
  rw [losesOpen, empty]
  simp

theorem State.askZone_quiet (s : State) (l : Fin 2) (a : Fin 64) (msg : Directed) (z : Fin 8) (other : msg.isOpenOrDeny = false)
    (hg : (s.drop l a).binding = some (.gate z)) (quiet : s.NothingLost l a) :
    s.AtDrop (s.ask l a msg .zoneTable) l a ofRoomMirrors [] ∧
    (∃ o, (s.ask l a msg .zoneTable).drop l a = { s.drop l a with owed := o }) ∧ (s.ask l a msg .zoneTable).Told (l, a) msg := by
  obtain ⟨reports, o, drop⟩ := s.askZone_spec l a msg z other hg
  rw [quiet.entries] at reports
  rw [quiet.kept] at drop
  refine ⟨⟨reports.mono fun _ => False.elim, s.request_onLines l _ (s.minibarAt_gate l a z hg), fun p hp => s.view_ask_other l a msg .zoneTable hp⟩,
    ⟨o, drop⟩, ?_⟩
  exact (s.ask_stands l a msg .zoneTable other).imp_left fun h => List.mem_filter.2 ⟨h, by simp⟩

theorem State.gateHeld_gate {s : State} {b : Option Binding} (h : s.gateHeld b = true) : ∃ z, b = some (.gate z) := by
  unfold State.gateHeld at h
  split at h
  · exact ⟨_, rfl⟩
  · cases h

/-- A gate asks for its zone's mode (R14). -/
theorem State.askZoneHold_spec (s : State) (l : Fin 2) (a : Fin 64) (quiet : s.NothingLost l a) :
    s.AtDrop (s.askZoneHold l a) l a ofRoomMirrors [] ∧
    (∃ o, (s.askZoneHold l a).drop l a = { s.drop l a with owed := o }) ∧
    (s.gateHeld (s.drop l a).binding = true → (s.askZoneHold l a).Told (l, a) .hold) ∧
    (s.gateHeld (s.drop l a).binding = false → s.askZoneHold l a = s) := by
  unfold State.askZoneHold
  by_cases h : s.gateHeld (s.drop l a).binding = true
  · obtain ⟨z, hg⟩ := State.gateHeld_gate h
    obtain ⟨work, drop, told⟩ := s.askZone_quiet l a .hold z rfl hg quiet
    rw [if_pos h]
    exact ⟨work, drop, fun _ => told, fun e => by rw [h] at e; cases e⟩
  · rw [if_neg h]
    exact ⟨.refl s l a _, ⟨_, rfl⟩, fun e => absurd e h, fun _ => rfl⟩

/-! ## The owner of a drop told of its presence (R48, R103, R132) -/

/-- A door-side record told of a presence (R48). -/
def DoorSide.toldOf (latch : Latch) (p : Presence) (d : DoorSide) : DoorSide :=
  if p = .present then { d with latch := latch, deadline := none, timer := false, heldCount := 0, alarm := false }
  else { d with latch := latch, deadline := none, timer := false, heldCount := 0, alarm := false, leaf := .unknown, bolt := .unknown }

theorem DoorSide.toldOf_pending (latch : Latch) (p : Presence) (d : DoorSide) : (d.toldOf latch p).pending = d.pending := by
  unfold DoorSide.toldOf
  split <;> rfl

theorem State.doorPresence_spec (s : State) (l : Fin 2) (a : Fin 64) (p : Presence) :
    s.AtDrop (s.doorPresence l a p) l a ofRoomMirrors [] ∧
    (s.doorPresence l a p).drop l a =
      { s.drop l a with door := (s.drop l a).door.map (DoorSide.toldOf (s.latchFor (s.drop l a).binding p) p) } ∧
    ∀ k : Fin 2, (s.doorPresence l a p).lines[k].queue = s.lines[k].queue ∧ (s.doorPresence l a p).lines[k].state = s.lines[k].state := by
  unfold State.doorPresence
  dsimp only
  split
  · next h =>
    refine ⟨.refl s l a _, ?_, fun _ => ⟨rfl, rfl⟩⟩
    rw [h, Option.map_none, ← h]
  · next d h =>
    refine ⟨s.atDrop_putDoor l a _, ?_, fun k => ?_⟩
    · rw [s.putDoor_drop, h, Option.map_some, DoorSide.toldOf]
    · rw [s.putDoor_lines]
      exact ⟨s.queue_setDrop l k a _, s.state_setDrop l k a _⟩

/-- A minibar's record as its reach begins (R103, R120). -/
def Minibar.reached (m : Minibar) : Minibar := if m.state = .offline then (m.rest .locked).applyMark else m

theorem State.minibarReached_spec (s : State) (r : Fin 48) :
    s.Reports (s.minibarReached r) ofRoomMirrors [] ∧
    (s.minibarReached r).records = ({ s with minibars := s.minibars.set r s.minibars[r].reached } : State).records := by
  unfold State.minibarReached Minibar.reached
  dsimp only
  split
  · exact ⟨(s.reports_putMinibar r _).mono fun x h => ⟨r, h⟩, s.putMinibar_records r _⟩
  · refine ⟨.refl s _, ?_⟩
    rw [show s.minibars.set r.val s.minibars[r] = s.minibars from Vector.set_getElem_self r.isLt]

theorem Drop.doorless {s : State} {l : Fin 2} {a : Fin 64} (h : s.BindingInv)
    (hb : ∀ b, (s.drop l a).binding = some b → b.hasDoor = false) : (s.drop l a).door = none := by
  rw [← Option.not_isSome_iff_eq_none]
  intro some_
  obtain ⟨b, e, hasDoor⟩ := (h.2.2 l a).1 some_
  rw [hb b e] at hasDoor
  cases hasDoor

/-- The owner of drop `d`, at its place in `s`, has been told of its presence: the door-side record, a gate of a held zone, a minibar. -/
structure State.OwnerTold (s t : State) (l : Fin 2) (a : Fin 64) : Prop where
  reports : s.Reports t ofRoomMirrors []
  others : ∀ p, p ≠ (l, a) → t.view p = s.view p
  drop : ∃ o, t.drop l a = { s.drop l a with
    owed := o, door := (s.drop l a).door.map (DoorSide.toldOf (s.latchFor (s.drop l a).binding (s.drop l a).presence) (s.drop l a).presence) }
  told : (s.drop l a).presence = .present → s.gateHeld (s.drop l a).binding = true → t.Told (l, a) .hold
  still : (s.drop l a).presence ≠ .present ∨ s.gateHeld (s.drop l a).binding = false →
    (t.drop l a).owed = (s.drop l a).owed ∧ ∀ k : Fin 2, t.lines[k].queue = s.lines[k].queue
  rooms : t.rooms = s.rooms
  minibars : (∀ r, (s.drop l a).binding = some (.minibar r) → (s.drop l a).presence ≠ .present ∨ s.lines[l].state ≠ .run) → t.minibars = s.minibars
  reached : ∀ r, (s.drop l a).binding = some (.minibar r) → (s.drop l a).presence = .present → s.lines[l].state = .run →
    t.minibars = s.minibars.set r s.minibars[r].reached

/-- An owner that has nothing to do. -/
theorem State.ownerTold_idle (s : State) (l : Fin 2) (a : Fin 64) (doorless : (s.drop l a).door = none)
    (noGate : s.gateHeld (s.drop l a).binding = false)
    (far : ∀ r, (s.drop l a).binding = some (.minibar r) → (s.drop l a).presence ≠ .present ∨ s.lines[l].state ≠ .run) :
    s.OwnerTold s l a where
  reports := .refl s _
  others _ _ := rfl
  drop := ⟨_, by rw [doorless, Option.map_none, ← doorless]⟩
  told _ h := by rw [noGate] at h; cases h
  still _ := ⟨rfl, fun _ => rfl⟩
  rooms := rfl
  minibars _ := rfl
  reached r hr hp hs := ((far r hr).elim (fun h => h hp) fun h => h hs).elim

theorem State.ownerTold_door (s : State) (l : Fin 2) (a : Fin 64) (noMinibar : ∀ r, (s.drop l a).binding ≠ some (.minibar r))
    (idle : (s.drop l a).presence ≠ .present ∨ s.gateHeld (s.drop l a).binding = false) :
    s.OwnerTold (s.doorPresence l a (s.drop l a).presence) l a := by
  obtain ⟨work, drop, queue⟩ := s.doorPresence_spec l a (s.drop l a).presence
  exact {
    reports := work.reports
    others := work.others
    drop := ⟨_, drop⟩
    told := fun hp hg => absurd idle (by simp [hp, hg])
    still := fun _ => ⟨by rw [drop], fun k => (queue k).1⟩
    rooms := work.onLines.rooms
    minibars := fun _ => work.onLines.minibars
    reached := fun r hr => absurd hr (noMinibar r) }

theorem State.tellOwner_spec (s : State) (l : Fin 2) (a : Fin 64) (quiet : s.NothingLost l a)
    (doorless : (∀ b, (s.drop l a).binding = some b → b.hasDoor = false) → (s.drop l a).door = none)
    (far : ∀ r, (s.drop l a).binding = some (.minibar r) → (s.drop l a).presence ≠ .present → s.minibars[r].state = .offline) :
    s.OwnerTold (s.tellOwner l a) l a := by
  unfold State.tellOwner
  dsimp only
  cases hb : (s.drop l a).binding with
  | none => exact s.ownerTold_idle l a (doorless (by simp [hb])) (by rw [hb]; rfl) (by simp [hb])
  | some b =>
    cases b with
    | door r =>
      dsimp only
      exact s.ownerTold_door l a (by simp [hb]) (.inr (by rw [hb]; rfl))
    | gate z =>
      dsimp only
      by_cases hp : (s.drop l a).presence = .present
      · rw [if_pos hp]
        obtain ⟨work, drop, queue⟩ := s.doorPresence_spec l a (s.drop l a).presence
        generalize s.doorPresence l a (s.drop l a).presence = u at *
        have binding : (u.drop l a).binding = (s.drop l a).binding := by rw [drop]
        have waits : (u.view (l, a)).2 = (s.view (l, a)).2 := by
          unfold State.view
          rw [(queue l).1, (queue l).2]
        have still : u.NothingLost l a := by
          refine quiet.imp (fun h => (losesOpen_congr waits).trans h) fun h => ?_
          rw [drop]
          cases hd : (s.drop l a).door with
          | none => rfl
          | some d => rw [hd] at h; exact (DoorSide.toldOf_pending _ _ _).trans h
        obtain ⟨held, ⟨o, owes⟩, told, idle⟩ := u.askZoneHold_spec l a still
        rw [binding, work.onLines.gateHeld] at told idle
        generalize u.askZoneHold l a = t at *
        rw [hb] at told idle
        exact {
          reports := work.reports.trans held.reports
          others := fun p h => (held.others p h).trans (work.others p h)
          drop := ⟨o, by rw [owes, drop, hp]⟩
          told := fun _ h => told (by rw [← hb]; exact h)
          still := fun h => by
            obtain rfl := idle (by rw [← hb]; exact h.resolve_left (not_not_intro hp))
            exact ⟨by rw [drop], fun k => (queue k).1⟩
          rooms := (work.onLines.trans held.onLines).rooms
          minibars := fun _ => (work.onLines.trans held.onLines).minibars
          reached := fun r h => by rw [hb] at h; cases h }
      · rw [if_neg hp]
        exact s.ownerTold_door l a (by simp [hb]) (.inl hp)
    | minibar r =>
      dsimp only
      have doorless := doorless (by simp [hb, Binding.hasDoor])
      have noGate : s.gateHeld (s.drop l a).binding = false := by rw [hb]; rfl
      by_cases hp : (s.drop l a).presence = .present
      · rw [if_pos hp]
        by_cases run : s.lines[l].state = .run
        · rw [if_pos run]
          obtain ⟨reports, records⟩ := s.minibarReached_spec r
          generalize s.minibarReached r = t at *
          have lines : t.lines = s.lines := (State.records_lines records :)
          have drop : t.drop l a = s.drop l a := (State.records_drop records l a :)
          exact {
            reports := reports
            others := fun p _ => State.view_of_lines lines p
            drop := ⟨_, by rw [drop, doorless, Option.map_none, ← doorless]⟩
            told := fun _ h => by rw [noGate] at h; cases h
            still := fun _ => ⟨by rw [drop], fun k => by rw [lines]⟩
            rooms := (State.records_rooms records :)
            minibars := fun h => absurd (h r hb) (by simp [hp, show s.lines[l.val].state = .run from run])
            reached := fun k hk _ _ => by
              obtain rfl : r = k := by rw [hb] at hk; cases hk; rfl
              exact (State.records_minibars records :) }
        · rw [if_neg run]
          exact s.ownerTold_idle l a doorless noGate fun _ _ => .inr run
      · rw [if_neg hp]
        have lost : s.minibarLost r (placeOf l a) = s := by
          unfold State.minibarLost
          dsimp only
          rw [far r hb hp]
        rw [lost]
        exact s.ownerTold_idle l a doorless noGate fun _ _ => .inl hp

end Sys2Proof.Machine

namespace Sys2Proof.Machine

open Sys2Proof

/-! ## A change of presence (R131, R132) -/

theorem presenceRequest_eq (l : Fin 2) (a : Fin 64) (b : Option Binding) (kind : EntryKind) (left : Presence) (reported : Nat) :
    presenceRequest l a b kind left reported =
      { kind := kind, place := 128 * l.val + a.val, room := ((b.bind Binding.shownRoom).map Fin.val).getD 255
        value := left.code * 256 + reported } := by
  unfold presenceRequest presenceRoom twoItems
  rw [placeOf_eq]
  cases b.bind Binding.shownRoom <;> rfl

/-- Drop record `d` has taken the place of one of another presence: its entry `q`, its mirrors, its owner told (R132). -/
structure State.Moved (s t : State) (l : Fin 2) (a : Fin 64) (d : Drop) (q : Request) : Prop where
  reports : s.Reports t (ofMirrors l a) [q]
  mirror : t.byte (0xA80 + 64 * l.val + a.val) = byteOf d.presence.code
  others : ∀ p, p ≠ (l, a) → t.view p = s.view p
  drop : ∃ o, t.drop l a = { d with owed := o, door := d.door.map (DoorSide.toldOf (s.latchFor d.binding d.presence) d.presence) }
  told : d.presence = .present → s.gateHeld d.binding = true → t.Told (l, a) .hold
  still : d.presence ≠ .present ∨ s.gateHeld d.binding = false → (t.drop l a).owed = d.owed ∧ ∀ k : Fin 2, t.lines[k].queue = s.lines[k].queue
  rooms : t.rooms = s.rooms
  minibars : (∀ r, d.binding = some (.minibar r) → d.presence ≠ .present ∨ s.lines[l].state ≠ .run) → t.minibars = s.minibars
  reached : ∀ r, d.binding = some (.minibar r) → d.presence = .present → s.lines[l].state = .run →
    t.minibars = s.minibars.set r s.minibars[r].reached

/-- A drop record of the same presence is written, and nothing else. -/
theorem State.changeDrop_same (s : State) (l : Fin 2) (a : Fin 64) (d : Drop) (entry : Option (EntryKind × Nat))
    (h : d.presence = (s.drop l a).presence) : s.changeDrop l a d entry = s.setDrop l a d := if_pos h

/-- A drop record of another presence, up to the telling of its owner. -/
theorem State.changeDrop_tells (s : State) (l : Fin 2) (a : Fin 64) (d : Drop) (kind : EntryKind) (reported : Nat)
    (h : d.presence ≠ (s.drop l a).presence) :
    ∃ u, s.changeDrop l a d (some (kind, reported)) = u.tellOwner l a ∧
      s.AtDrop u l a (ofMirrors l a) [presenceRequest l a d.binding kind (s.drop l a).presence reported] ∧
      u.lines = (s.setDrop l a d).lines ∧ u.byte (0xA80 + 64 * l.val + a.val) = byteOf d.presence.code := by
  refine ⟨_, if_neg h, ?_⟩
  dsimp only
  have written := s.atDrop_setDrop l a d (ofMirrors l a)
  have drop := s.setDrop_same l a d
  generalize s.setDrop l a d = v at *
  generalize presenceRequest l a d.binding kind (s.drop l a).presence reported = q
  have asked := v.atDrop_admitRequest l a q (ofMirrors l a)
  have lines : (v.admitRequest q).lines = v.lines := State.records_lines (v.admitRequest_records q)
  generalize v.admitRequest q = w at *
  have shown : (w.rewriteDrop l a).byte (0xA80 + 64 * l.val + a.val) = byteOf d.presence.code := by
    rw [w.rewriteDrop_shows, State.drop, lines]
    exact congrArg (fun x : Drop => byteOf x.presence.code) drop
  have work := (written.trans asked).trans_nil (w.atDrop_rewriteDrop l a)
  have same : (w.rewriteDrop l a).lines = v.lines := lines
  generalize w.rewriteDrop l a = x at *
  have room := x.atDrop_rewriteRoomOf l a d.binding
  exact ⟨work.trans_nil (room.mono fun _ => .inl), (State.records_lines (x.rewriteRoomOf_records d.binding)).trans same,
    (room.reports.dropMirror l a).trans shown⟩

theorem State.changeDrop_moved (s : State) (l : Fin 2) (a : Fin 64) (d : Drop) (kind : EntryKind) (reported : Nat)
    (h : d.presence ≠ (s.drop l a).presence) (quiet : losesOpen (s.view (l, a)) = false ∨ d.door.bind DoorSide.pending = none)
    (doorless : (∀ b, d.binding = some b → b.hasDoor = false) → d.door = none)
    (far : ∀ r, d.binding = some (.minibar r) → d.presence ≠ .present → s.minibars[r].state = .offline) :
    s.Moved (s.changeDrop l a d (some (kind, reported))) l a d (presenceRequest l a d.binding kind (s.drop l a).presence reported) := by
  obtain ⟨u, e, work, lines, shown⟩ := s.changeDrop_tells l a d kind reported h
  rw [e]
  have drop : u.drop l a = d := by
    rw [State.drop, lines]
    exact s.setDrop_same l a d
  have queue (k : Fin 2) : u.lines[k].queue = s.lines[k].queue := by rw [lines]; exact s.queue_setDrop l k a d
  have state (k : Fin 2) : u.lines[k].state = s.lines[k].state := by rw [lines]; exact s.state_setDrop l k a d
  have waits : (u.view (l, a)).2 = (s.view (l, a)).2 := by
    unfold State.view
    rw [queue, state]
  have told := u.tellOwner_spec l a (quiet.imp (losesOpen_congr waits).trans fun h => by rw [drop]; exact h)
    (by rw [drop]; exact doorless) (by rw [drop, work.onLines.minibars]; exact far)
  generalize u.tellOwner l a = t at *
  obtain ⟨reports, others, after, asked, still, rooms, minibars, reached⟩ := told
  rw [drop, work.onLines.latchFor] at after
  rw [drop, work.onLines.gateHeld] at asked still
  rw [drop, work.onLines.minibars, state] at minibars reached
  exact {
    reports := work.reports.trans_nil (reports.mono fun _ => .inl)
    mirror := (reports.dropMirror l a).trans shown
    others := fun p hp => (others p hp).trans (work.others p hp)
    drop := after
    told := asked
    still := fun idle => ⟨(still idle).1, fun k => ((still idle).2 k).trans (queue k)⟩
    rooms := rooms.trans work.onLines.rooms
    minibars := minibars
    reached := reached }

end Sys2Proof.Machine

namespace Sys2Proof.Machine

open Sys2Proof

/-! ## Orders that have ended, with their result data -/

/-- The order of block `k` has ended with a result and result data (R172). -/
def State.EndedWith (t : State) (k : Fin 16) (res : Result) (data : List Byte) : Prop :=
  t.Ended k res ∧ ∀ i n, i + n ≤ data.length → i + n ≤ 20 → t.resultAt k i n = leNat ((data.drop i).take n)

/-- The bytes an order's end is read in. -/
def ofBlock (k : Fin 16) (x : Nat) : Prop := 64 * k.val ≤ x ∧ x < 64 * k.val + 64

theorem State.EndedWith.congr {s t : State} {k : Fin 16} {res : Result} {data : List Byte} (h : s.EndedWith k res data)
    (bytes : ∀ x, ofBlock k x → t.byte x = s.byte x) (held : t.heldIn k = none) (cause : s.cause.getLsbD 0 = true → t.cause.getLsbD 0 = true) :
    t.EndedWith k res data := by
  obtain ⟨⟨done, code, -, told⟩, results⟩ := h
  refine ⟨⟨?_, ?_, held, cause told⟩, fun i n hi hn => ?_⟩
  · rw [bytes _ (by unfold ofBlock; omega), done]
  · rw [bytes _ (by unfold ofBlock; omega), code]
  · rw [← results i n hi hn]
    exact State.field_congr fun x h1 h2 => bytes x (by unfold ofBlock; omega)

theorem or_getLsbD_zero {c d e : Half} (h : e = c ||| d) (told : c.getLsbD 0 = true) : e.getLsbD 0 = true := by
  rw [h, BitVec.getLsbD_or, told, Bool.true_or]

theorem State.MaySetJournal.told {s t : State} (h : s.MaySetJournal t) (told : s.cause.getLsbD 0 = true) : t.cause.getLsbD 0 = true :=
  h.elim (fun e => by rw [e]; exact told) fun e => or_getLsbD_zero e told

theorem State.heldIn_congr {s t : State} (h : t.held = s.held) (k : Fin 16) : t.heldIn k = s.heldIn k := by
  unfold State.heldIn
  rw [h]

/-- An end stands through work that asks for ROUTINE entries. -/
theorem State.EndedWith.reports {s t : State} {k : Fin 16} {res : Result} {data : List Byte} {qs : List Request} (h : s.EndedWith k res data)
    (work : s.Reports t ofRoomMirrors qs) (routine : ∀ q ∈ qs, q.kind.isAlarm = false) : t.EndedWith k res data := by
  refine h.congr (fun x hx => work.bytes x ?_) ((State.heldIn_congr work.held k).trans h.1.2.2.1) (work.cause routine).told
  unfold ofBlock at hx
  rintro (⟨r, e⟩ | e | e)
  · have := ofRoomMirror_range e
    omega
  · unfold ofDescriptors at e; omega
  · unfold ofSiteMirror at e; omega

theorem heldIn_filter {held : List Held} {b k : Fin 16} (h : (held.find? fun x => decide (x.block = k)) = none) :
    ((held.filter fun x => decide (x.block ≠ b)).find? fun x => decide (x.block = k)) = none := by
  rw [List.find?_eq_none] at h ⊢
  exact fun x hx => h x (List.mem_of_mem_filter hx)

theorem ofResult_block {b : Fin 16} {x : Nat} (h : ofResult b x) : ofBlock b x := by
  unfold ofResult at h
  unfold ofBlock
  omega

theorem ofBlock_inj {b k : Fin 16} {x : Nat} (h : ofBlock b x) (h' : ofBlock k x) : b = k := by
  unfold ofBlock at h h'
  omega

/-- An end stands through the end of an order in another block. -/
theorem State.EndedWith.complete {s : State} {k b : Fin 16} {res res' : Result} {data data' : List Byte} (h : s.EndedWith k res data) (ne : b ≠ k) :
    (s.complete b res' data').EndedWith k res data :=
  h.congr (fun x hx => s.keepsBytes_complete b res' data' x fun e => ne (ofBlock_inj (ofResult_block e) hx)) (heldIn_filter h.1.2.2.1)
    (or_getLsbD_zero (s.complete_cause b res' data'))

theorem State.complete_endedWith (s : State) (b : Fin 16) (res : Result) (data : List Byte) : (s.complete b res data).EndedWith b res data :=
  ⟨s.complete_ended b res data, fun i n hi hn => s.complete_resultAt b res data i n hi hn⟩

theorem State.heldBy_some {s : State} {o : Owner} {h : Held} (e : s.heldBy o = some h) : h ∈ s.held ∧ h.owner = o :=
  ⟨List.mem_of_find?_eq_some e, by simpa using List.find?_some e⟩

theorem State.completeFor_endedWith {s : State} {o : Owner} {h : Held} (e : s.heldBy o = some h) (res : Result) (data : List Byte) :
    (s.completeFor o res data).EndedWith h.block res data := by
  unfold State.completeFor
  rw [e]
  exact s.complete_endedWith _ _ _

/-- An end stands through the end of an order that is held. -/
theorem State.EndedWith.completeFor {s : State} {k : Fin 16} {res res' : Result} {data data' : List Byte} (h : s.EndedWith k res data) (o : Owner) :
    (s.completeFor o res' data').EndedWith k res data := by
  unfold State.completeFor
  split
  · exact h
  · next x e =>
    refine h.complete fun same => ?_
    have gone := List.find?_eq_none.1 h.1.2.2.1 x (State.heldBy_some e).1
    exact gone (by simpa using same)

theorem State.completeFor_books (s : State) (o : Owner) (res : Result) (data : List Byte) : (s.completeFor o res data).books = s.books := by
  unfold State.completeFor
  split
  · rfl
  · rfl

theorem find?_filter_of {α : Type} {p q : α → Bool} {xs : List α} {x : α} (h : xs.find? p = some x) (hx : q x = true) :
    (xs.filter q).find? p = some x := by
  induction xs with
  | nil => cases h
  | cons y ys ih =>
    by_cases py : p y = true
    · obtain rfl : y = x := by rw [List.find?_cons_of_pos py] at h; exact Option.some.inj h
      rw [List.filter_cons_of_pos hx, List.find?_cons_of_pos py]
    · rw [List.find?_cons_of_neg py] at h
      by_cases qy : q y = true
      · rw [List.filter_cons_of_pos qy, List.find?_cons_of_neg py]
        exact ih h
      · rw [List.filter_cons_of_neg qy]
        exact ih h

/-- The order of one owner is held still after that of another has ended (R169). -/
theorem State.HeldInv.heldBy_completeFor {s : State} (one : s.HeldInv) {o o' : Owner} (ne : o ≠ o') {h : Held} (e : s.heldBy o' = some h)
    (res : Result) (data : List Byte) : (s.completeFor o res data).heldBy o' = some h := by
  unfold State.completeFor
  split
  · exact e
  · next x hx =>
    refine find?_filter_of e ?_
    have blocks : h.block ≠ x.block := fun same => ne (by
      rw [← (State.heldBy_some hx).2, ← (State.heldBy_some e).2, List.inj_on_of_nodup_map one (State.heldBy_some e).1 (State.heldBy_some hx).1 same])
    simpa using blocks

theorem State.heldBy_congr {s t : State} (h : t.held = s.held) (o : Owner) : t.heldBy o = s.heldBy o := by
  unfold State.heldBy
  rw [h]

/-! ## A minibar's records as its reach ends (R104, R120) -/

theorem Minibar.applyMark_eq (m : Minibar) : m.applyMark = m.marked := by
  have zero : ((({ m with carried := 0, trays := m.trays.map fun t => { t with base := t.taken } } : Minibar).trays.toList.take m.trayCount).map
      Tray.unbilled).sum = 0 := by
    refine List.sum_eq_zero fun x hx => ?_
    obtain ⟨t, ht, rfl⟩ := List.mem_map.1 hx
    have ht := List.mem_of_mem_take ht
    simp only [Vector.toList_map, List.mem_map] at ht
    obtain ⟨y, -, rfl⟩ := ht
    simp [Tray.unbilled]
  have owed : ({ m with carried := 0, trays := m.trays.map fun t => { t with base := t.taken } } : Minibar).owed = 0 := by
    unfold Minibar.owed
    rw [zero]
  unfold Minibar.applyMark Minibar.marked
  split
  · unfold Minibar.startStay Minibar.recharge
    rw [owed]
    rfl
  · rfl

theorem Minibar.offline_gone (m : Minibar) : m.offline.applyMark = m.gone := m.offline.applyMark_eq

theorem Minibar.reached_of_offline {m : Minibar} (h : m.state = .offline) : m.reached = (m.cleared .locked).marked :=
  (if_pos h).trans (Minibar.applyMark_eq _)

theorem setOf_toNat (p : Nat → Bool) : (setOf p).toNat = ((List.range 8).map fun i => if p i then 2 ^ i else 0).sum := by
  have bound : ((List.range 8).map fun i => if p i then 2 ^ i else 0).sum ≤ ((List.range 8).map fun i => 2 ^ i).sum :=
    List.sum_le_sum fun i _ => by split <;> simp
  have all : ((List.range 8).map fun i => 2 ^ i).sum = 255 := by decide
  unfold setOf
  rw [BitVec.toNat_ofNat, Nat.mod_eq_of_lt (by omega)]

theorem Minibar.missing_toNat (m : Minibar) : m.missing.toNat = m.unread := by
  unfold Minibar.missing Minibar.unread
  rw [setOf_toNat, ← List.map_coe_finRange_eq_range, List.map_map]
  refine congrArg List.sum (List.map_congr_left fun i _ => ?_)
  simp [trayIn, i.isLt]

end Sys2Proof.Machine

namespace Sys2Proof.Machine

open Sys2Proof

/-! ## A room closed unscanned, and the report of a final scan (R29, R30) -/

/-- The entries of a room closed unscanned, with its minibar's charge. -/
def Room.closing (x : Room) (r : Fin 48) (charge : Nat) : List Request :=
  [{ kind := .finalCharge, room := r.val, subject := charge, value := 1 },
   { kind := .roomState, room := r.val, reason := 1, subject := x.generation, value := 1 * 256 + 4 }]

theorem Room.closing_routine (x : Room) (r : Fin 48) (charge : Nat) : ∀ q ∈ x.closing r charge, q.kind.isAlarm = false := by
  unfold Room.closing
  simp [EntryKind.isAlarm]

/-- The result data of the CHECKOUT of a room closed unscanned. -/
def Room.closingData (x : Room) (charge : Nat) : List Byte := [byteOf x.generation, 1, 0, 0] ++ leBytes 4 charge

theorem State.closeRoom_unscanned (s : State) (r : Fin 48) (charge : Nat) :
    ∃ u, s.closeRoom r false charge = u.completeFor (.roomTable r) .ok (s.rooms[r].closingData charge) ∧
      s.Reports u ofRoomMirrors (s.rooms[r].closing r charge) ∧
      u.records = ({ s with rooms := s.rooms.set r s.rooms[r].unscannedClose } : State).records := by
  have record : ({ s.rooms[r] with state := RoomState.vacant, unscanned := !false, wait := 0 } : Room) = s.rooms[r].unscannedClose := rfl
  have moved : roomStateRequest r s.rooms[r].unscannedClose .departing (!false) =
      { kind := .roomState, room := r.val, reason := 1, subject := s.rooms[r].generation, value := 1 * 256 + 4 } := rfl
  have charged : ({ kind := .finalCharge, room := r.val, subject := charge, value := flagBit (!false) } : Request) =
      { kind := .finalCharge, room := r.val, subject := charge, value := 1 } := rfl
  have data : [byteOf s.rooms[r].generation, byteOf (flagBit !false), 0, 0] ++ leBytes 4 charge =
      s.rooms[r].closingData charge := rfl
  unfold State.closeRoom Room.closing
  dsimp only
  rw [record, moved, charged, data]
  refine ⟨_, rfl, ?_, ?_⟩
  · exact (((s.reports_putRoom r _).mono fun x h => ⟨r, h⟩).trans (State.reports_admitRequest _ _ _)).trans (State.reports_admitRequest _ _ _)
  · rw [State.admitRequest_records, State.admitRequest_records, State.putRoom_records]

/-- A final scan's report that may be made, of a scan that has failed: `closes` where it is, and the room is DEPARTING. -/
structure State.Reported (s t : State) (r : Fin 48) (closes : Bool) : Prop where
  logs : s.Logs t (if closes then s.rooms[r].closing r s.minibars[r].charge else [])
  records : t.records = ({ s with rooms := if closes then s.rooms.set r s.rooms[r].unscannedClose else s.rooms } : State).records
  ended : ∀ k res data, s.EndedWith k res data → t.EndedWith k res data
  checkout : closes = true → ∀ h, s.heldBy (.roomTable r) = some h → t.EndedWith h.block .ok (s.rooms[r].closingData s.minibars[r].charge)

theorem State.reportFinal_unscanned (s : State) (r : Fin 48) (isFinal : Bool) :
    s.Reported (s.reportFinal r isFinal false) r (isFinal && decide (s.rooms[r].state = .departing)) := by
  unfold State.reportFinal
  cases isFinal with
  | false => exact ⟨.nil rfl, rfl, fun _ _ _ h => h, nofun⟩
  | true =>
    unfold State.finalReport
    by_cases hd : s.rooms[r].state = .departing
    · obtain ⟨u, e, work, records⟩ := s.closeRoom_unscanned r s.minibars[r].charge
      have routine := s.rooms[r].closing_routine r s.minibars[r].charge
      rw [if_pos rfl, if_pos hd, e, Bool.true_and, decide_eq_true hd]
      exact {
        logs := work.logs.trans_nil (u.completeFor_books _ _ _)
        records := (u.completeFor_records _ _ _).trans records
        ended := fun k res data h => (h.reports work routine).completeFor _
        checkout := fun _ h hh => State.completeFor_endedWith ((State.heldBy_congr work.held _).trans hh) _ _ }
    · rw [if_pos rfl, if_neg hd, Bool.true_and, decide_eq_false hd]
      exact ⟨.nil rfl, rfl, fun _ _ _ h => h, nofun⟩

/-! ## A minibar that goes out of reach (R104) -/

/-- The loss of minibar `r` closes its room. -/
def State.lossCloses (s : State) (r : Fin 48) : Bool := s.minibars[r].owesReport && decide (s.rooms[r].state = .departing)

/-- The result data of the MINIBAR_SCAN whose scan ended with the reach. -/
def Minibar.lostData (m : Minibar) : List Byte := scanData m.offline 0 m.missing

/-- Minibar `r` has gone out of reach. -/
structure State.Lost (s t : State) (r : Fin 48) (place : Nat) : Prop where
  logs : s.Logs t (s.lossEntries r s.minibars[r] place)
  records : t.records = ({ s with
    minibars := s.minibars.set r s.minibars[r].gone
    rooms := if s.lossCloses r then s.rooms.set r s.rooms[r].unscannedClose else s.rooms } : State).records
  host : ∀ h, s.minibars[r].state = .scanning → s.minibars[r].purpose = some .host → s.heldBy (.minibarUnit r) = some h →
    t.EndedWith h.block .dropOffline s.minibars[r].lostData
  checkout : s.HeldInv → s.lossCloses r = true → ∀ h, s.heldBy (.roomTable r) = some h →
    t.EndedWith h.block .ok (s.rooms[r].closingData s.minibars[r].gone.charge)

/-- The entry of what was in progress at a minibar that goes out of reach. -/
def Minibar.lossFirst (m : Minibar) (r : Fin 48) (place : Nat) : List Request :=
  match m.state with
  | .granted => m.pending.toList.map fun g => g.lostEntry place 3
  | .scanning => [{ kind := .minibarFault, place := place, room := r.val, reason := 3, subject := m.charge, value := m.unread }]
  | .offline | .locked | .opened => []

theorem State.lossEntries_eq (s : State) (r : Fin 48) (place : Nat) : s.lossEntries r s.minibars[r] place =
    s.minibars[r].lossFirst r place ++ if s.lossCloses r then s.rooms[r].closing r s.minibars[r].gone.charge else [] := by
  have closes : s.lossCloses r = true ↔ s.minibars[r].owesReport = true ∧ s.rooms[r].state = .departing := by
    unfold State.lossCloses
    rw [Bool.and_eq_true, decide_eq_true_eq]
  exact congrArg (s.minibars[r].lossFirst r place ++ ·) (if_congr closes.symm rfl rfl)

/-- The course of a loss: the entry of what was in progress, the record, the MINIBAR_SCAN, the report. -/
theorem State.lost_of {s u : State} {r : Fin 48} {place : Nat} (answers : Bool) (isFinal : Bool)
    (first : s.Reports u ofRoomMirrors (s.minibars[r].lossFirst r place)) (records : u.records = s.records)
    (owes : isFinal = s.minibars[r].owesReport)
    (host : answers = decide (s.minibars[r].state = .scanning ∧ s.minibars[r].purpose = some .host)) :
    s.Lost ((if answers then (u.putMinibar r s.minibars[r].gone).completeFor (.minibarUnit r) .dropOffline s.minibars[r].lostData
      else u.putMinibar r s.minibars[r].gone).reportFinal r isFinal false) r place := by
  have put := first.trans_nil ((u.reports_putMinibar r s.minibars[r].gone).mono fun x h => ⟨r, h⟩)
  have putRecords := (u.putMinibar_records r s.minibars[r].gone).trans
    (Eq.trans (by rw [State.records_minibars records]) (State.records_setMinibars records (s.minibars.set r s.minibars[r].gone)))
  generalize u.putMinibar r s.minibars[r].gone = v at *
  have answered : ∃ w, (if answers then v.completeFor (.minibarUnit r) .dropOffline s.minibars[r].lostData else v) = w ∧
      w.books = v.books ∧ w.records = v.records ∧
      (answers = true → ∀ h, s.heldBy (.minibarUnit r) = some h → w.EndedWith h.block .dropOffline s.minibars[r].lostData) ∧
      (s.HeldInv → ∀ h, s.heldBy (.roomTable r) = some h → w.heldBy (.roomTable r) = some h) := by
    cases answers with
    | false => exact ⟨_, rfl, rfl, rfl, nofun, fun _ h hh => (State.heldBy_congr put.held _).trans hh⟩
    | true =>
      refine ⟨_, rfl, v.completeFor_books _ _ _, v.completeFor_records _ _ _,
        fun _ h hh => State.completeFor_endedWith ((State.heldBy_congr put.held _).trans hh) _ _, fun one h hh => ?_⟩
      have one' : v.HeldInv := by unfold State.HeldInv; rw [put.held]; exact one
      exact one'.heldBy_completeFor (nofun : Owner.minibarUnit r ≠ .roomTable r) ((State.heldBy_congr put.held _).trans hh) _ _
  obtain ⟨w, e, books, same, hosted, kept⟩ := answered
  rw [e]
  have reported := w.reportFinal_unscanned r isFinal
  generalize w.reportFinal r isFinal false = t at *
  have wRecords := same.trans putRecords
  have rooms : w.rooms = s.rooms := (State.records_rooms wRecords :)
  have minibars : w.minibars[r] = s.minibars[r].gone := by
    rw [(State.records_minibars wRecords :)]
    exact vector_set_same _ r _
  have closes : (isFinal && decide (w.rooms[r].state = .departing)) = s.lossCloses r := by rw [owes, rooms]; rfl
  rw [closes] at reported
  obtain ⟨logs, final, ended, checkout⟩ := reported
  rw [rooms, minibars] at logs checkout
  rw [rooms] at final
  exact {
    logs := by
      rw [s.lossEntries_eq]
      exact (put.logs.trans_nil books).trans logs
    records := final.trans (State.records_setRooms wRecords _)
    host := fun h hs hp hh => ended _ _ _ (hosted (by rw [host, decide_eq_true ⟨hs, hp⟩]) h hh)
    checkout := fun one hc h hh => checkout hc h (kept one h hh) }

theorem State.minibarLost_spec (s : State) (r : Fin 48) (place : Nat) (within : s.minibars[r].state ≠ .offline) :
    s.Lost (s.minibarLost r place) r place := by
  unfold State.minibarLost
  dsimp only
  have gone := s.minibars[r].offline_gone
  rw [gone]
  cases hs : s.minibars[r].state with
  | offline => exact absurd hs within
  | locked =>
    have lost := State.lost_of (s := s) (u := s) (r := r) (place := place) false false ?_ rfl ?_ ?_
    · exact lost
    · simp only [Minibar.lossFirst, hs]; exact .refl s _
    · simp only [Minibar.owesReport, hs]
    · exact (decide_eq_false fun h => by rw [hs] at h; cases h.1).symm
  | granted =>
    dsimp only
    cases hp : s.minibars[r].pending with
    | none =>
      have lost := State.lost_of (s := s) (u := s) (r := r) (place := place) false s.minibars[r].finalMark ?_ rfl ?_ ?_
      · exact lost
      · simp only [Minibar.lossFirst, hs, hp]; exact .refl s _
      · simp only [Minibar.owesReport, hs]
      · exact (decide_eq_false fun h => by rw [hs] at h; cases h.1).symm
    | some g =>
      have lost := State.lost_of (s := s) (u := s.admitRequest (undeliveredRequest place g 3)) (r := r) (place := place) false
        s.minibars[r].finalMark ?_ (s.admitRequest_records _) ?_ ?_
      · exact lost
      · simp only [Minibar.lossFirst, hs, hp]; exact s.reports_admitRequest _ _
      · simp only [Minibar.owesReport, hs]
      · exact (decide_eq_false fun h => by rw [hs] at h; cases h.1).symm
  | opened =>
    have lost := State.lost_of (s := s) (u := s) (r := r) (place := place) false
      (decide (s.minibars[r].onClose = some .final) || s.minibars[r].finalMark) ?_ rfl ?_ ?_
    · exact lost
    · simp only [Minibar.lossFirst, hs]; exact .refl s _
    · simp only [Minibar.owesReport, hs]
    · exact (decide_eq_false fun h => by rw [hs] at h; cases h.1).symm
  | scanning =>
    have lost := State.lost_of (s := s) (u := s.minibarFault r place 3 s.minibars[r].charge s.minibars[r].missing) (r := r) (place := place)
      (decide (s.minibars[r].purpose = some .host)) s.minibars[r].isFinalScan ?_ (s.admitRequest_records _) ?_ ?_
    · unfold State.answerScan
      simp only [decide_eq_true_eq] at lost
      exact lost
    · simp only [Minibar.lossFirst, hs, ← Minibar.missing_toNat]; exact s.reports_admitRequest _ _
    · simp only [Minibar.owesReport, hs, Minibar.isFinalScan]
    · exact decide_eq_decide.2 ⟨fun h => ⟨hs, h⟩, fun h => h.2⟩

end Sys2Proof.Machine

namespace Sys2Proof.Machine

open Sys2Proof

/-! ## What a DROP_SET asks for (R135) -/

theorem asFin_val {n : Nat} (x : Fin n) : asFin n x.val = some x := dif_pos x.isLt

theorem asFin_none {n x : Nat} (h : n ≤ x) : asFin n x = none := dif_neg (by omega)

/-- The kind bytes of a binding and its range. -/
def bindingRange (kind index : Nat) : Prop := (kind = 1 ∧ index < 48) ∨ (kind = 2 ∧ index < 8) ∨ (kind = 3 ∧ index < 48)

theorem bindingOf_none {kind index : Nat} (h : ¬bindingRange kind index) : bindingOf kind index = none := by
  unfold bindingRange at h
  unfold bindingOf
  split
  · rw [asFin_none (by omega)]; rfl
  · rw [asFin_none (by omega)]; rfl
  · rw [asFin_none (by omega)]; rfl
  · rfl

theorem dropFields_bad (p : List Byte)
    (bad : 2 ≤ leAt p 0 1 ∨ leAt p 1 1 = 0 ∨ 64 ≤ leAt p 1 1 ∨ 2 ≤ leAt p 2 1 ∨ (leAt p 2 1 = 0 ∧ ¬bindingRange (leAt p 3 1) (leAt p 4 1))) :
    dropFields p = none := by
  unfold dropFields
  split
  · next l a hl ha =>
    have line : leAt p 0 1 < 2 := by
      unfold asFin at hl
      split at hl
      · assumption
      · cases hl
    obtain ⟨addr, same⟩ : leAt p 1 1 < 64 ∧ a.val = leAt p 1 1 := by
      unfold asFin at ha
      split at ha
      · next h => cases ha; exact ⟨h, rfl⟩
      · cases ha
    split
    · rfl
    · next nz =>
      have nonzero : leAt p 1 1 ≠ 0 := fun h => nz (Fin.ext (same.trans h))
      split
      · next bind =>
        have range : ¬bindingRange (leAt p 3 1) (leAt p 4 1) := by
          obtain h | h | h | h | ⟨-, h⟩ := bad
          · omega
          · omega
          · omega
          · omega
          · exact h
        rw [bindingOf_none range]
        rfl
      · omega
      · rfl
  · rfl

section
variable {p : List Byte} {l : Fin 2} {a : Fin 64} (hl : leAt p 0 1 = l.val) (ha : leAt p 1 1 = a.val) (nz : a ≠ 0)
include hl ha nz

theorem dropFields_bind (bind : leAt p 2 1 = 0) {g : Binding} (hg : bindingOf (leAt p 3 1) (leAt p 4 1) = some g) :
    dropFields p = some (l, a, .bind g (leAt p 5 1)) := by
  unfold dropFields
  rw [hl, ha, asFin_val, asFin_val]
  dsimp only
  rw [if_neg nz, bind, hg]
  rfl

theorem dropFields_unbind (unbind : leAt p 2 1 = 1) : dropFields p = some (l, a, .unbind) := by
  unfold dropFields
  rw [hl, ha, asFin_val, asFin_val]
  dsimp only
  rw [if_neg nz, unbind]
  rfl
end

theorem bindingOf_some {kind index : Nat} {g : Binding} (h : (∃ r : Fin 48, g = .door r ∧ kind = 1 ∧ index = r.val) ∨
    (∃ z : Fin 8, g = .gate z ∧ kind = 2 ∧ index = z.val) ∨ ∃ r : Fin 48, g = .minibar r ∧ kind = 3 ∧ index = r.val) :
    bindingOf kind index = some g := by
  obtain ⟨r, rfl, rfl, rfl⟩ | ⟨r, rfl, rfl, rfl⟩ | ⟨r, rfl, rfl, rfl⟩ := h <;> simp [bindingOf, asFin_val]

/-- A BIND is in conflict where the address is bound, or the room has a drop of the kind. -/
theorem State.bindConflict_iff {s : State} (inv : s.BindingInv) (l : Fin 2) (a : Fin 64) (g : Binding) :
    s.bindConflict l a g = true ↔ (s.drop l a).binding.isSome = true ∨
      (g.shownRoom.isSome = true ∧ ∃ (k : Fin 2) (c : Fin 64), (s.drop k c).binding = some g) := by
  have found : (s.findDrop g).isSome = true ↔ ∃ (k : Fin 2) (c : Fin 64), (s.drop k c).binding = some g := by
    unfold State.findDrop
    rw [List.find?_isSome]
    constructor
    · rintro ⟨x, -, h⟩
      exact ⟨x.1, x.2, of_decide_eq_true h⟩
    · rintro ⟨k, c, h⟩
      exact ⟨(k, c), (mem_allDrops k c).2 (inv.addr h), decide_eq_true h⟩
  unfold State.bindConflict
  rw [Bool.or_eq_true, Bool.and_eq_true, found]

/-- A minibar with no drop is out of reach. -/
theorem State.ReachInv.offline {s : State} (h : s.ReachInv) {r : Fin 48}
    (far : ∀ (l : Fin 2) (a : Fin 64), (s.drop l a).binding = some (.minibar r) → (s.drop l a).presence ≠ .present ∨ s.lines[l].state ≠ .run) :
    s.minibars[r].state = .offline := by
  by_contra within
  obtain ⟨l, a, hb, hp, hs⟩ := h r within
  exact (far l a hb).elim (fun e => e hp) fun e => e hs

/-! ## A BIND taken (R136) -/

/-- The record of a drop bound, its owner not yet told. -/
def Drop.boundTo (d : Drop) (g : Binding) (openTime : Nat) : Drop :=
  { d with binding := some g, openTime := openTime, presence := d.rejudged g }

/-- Drop `(l, a)`, unbound in `s`, is bound to `g` in `t`. -/
structure State.Bound (s t : State) (l : Fin 2) (a : Fin 64) (g : Binding) (openTime : Nat) : Prop where
  reports : s.Reports t (ofMirrors l a) (if (s.drop l a).rejudged g = (s.drop l a).presence then []
    else [presenceRequest l a (some g) (if (s.drop l a).rejudged g = .present then .dropPresent else .dropMismatch) (s.drop l a).presence 0])
  others : ∀ p, p ≠ (l, a) → t.view p = s.view p
  drop : ∃ o, t.drop l a = { (s.drop l a).boundTo g openTime with
    owed := o, door := if g.hasDoor then some { DoorSide.unknown with latch := s.latchFor (some g) ((s.drop l a).rejudged g) } else none }
  told : (s.drop l a).rejudged g = .present → s.gateHeld (some g) = true → t.Told (l, a) .hold
  minibars : (s.drop l a).rejudged g ≠ .present → t.minibars = s.minibars
  reached : ∀ r, g = .minibar r → (s.drop l a).presence = .present → (s.drop l a).rejudged g = .present → s.lines[l].state = .run →
    t.minibars[r] = s.minibars[r].reached
  mirror : (s.drop l a).rejudged g ≠ (s.drop l a).presence → t.byte (0xA80 + 64 * l.val + a.val) = byteOf ((s.drop l a).rejudged g).code

/-- A newly bound drop judged again: `t` with its record, before the owner's own record. -/
structure State.Rejudged (s t : State) (l : Fin 2) (a : Fin 64) (g : Binding) (openTime : Nat) : Prop where
  reports : s.Reports t (ofMirrors l a) (if (s.drop l a).rejudged g = (s.drop l a).presence then []
    else [presenceRequest l a (some g) (if (s.drop l a).rejudged g = .present then .dropPresent else .dropMismatch) (s.drop l a).presence 0])
  others : ∀ p, p ≠ (l, a) → t.view p = s.view p
  drop : ∃ o, t.drop l a = { (s.drop l a).boundTo g openTime with owed := o, door := none }
  minibars : (s.drop l a).rejudged g ≠ .present ∨ (s.drop l a).presence = .present → t.minibars = s.minibars
  mirror : (s.drop l a).rejudged g ≠ (s.drop l a).presence → t.byte (0xA80 + 64 * l.val + a.val) = byteOf ((s.drop l a).rejudged g).code
  work : State.Work .calm s t

theorem State.rejudge_spec (s : State) (l : Fin 2) (a : Fin 64) (g : Binding) (openTime : Nat) (doorless : (s.drop l a).door = none)
    (off : ∀ r, g = .minibar r → s.minibars[r].state = .offline) :
    s.Rejudged ((s.setDrop l a { s.drop l a with binding := some g, openTime := openTime }).rejudge l a g) l a g openTime := by
  have written := s.atDrop_setDrop l a { s.drop l a with binding := some g, openTime := openTime } (ofMirrors l a)
  have drop := s.setDrop_same l a { s.drop l a with binding := some g, openTime := openTime }
  have work : State.Work .calm s (s.setDrop l a { s.drop l a with binding := some g, openTime := openTime }) := s.work_setDrop l a _
  generalize s.setDrop l a { s.drop l a with binding := some g, openTime := openTime } = v at *
  have judged : (v.drop l a).rejudged g = (s.drop l a).rejudged g := by rw [drop]; rfl
  have presence : (v.drop l a).presence = (s.drop l a).presence := by rw [drop]
  unfold State.rejudge
  dsimp only
  rw [judged]
  by_cases same : (s.drop l a).rejudged g = (s.drop l a).presence
  · rw [if_pos (same.trans presence.symm)]
    have shown := v.atDrop_rewriteRoomOf l a (some g)
    have kept := v.rewriteRoomOf_drop (some g) l a
    have more := work.trans (v.work_rewriteRoomOf (some g))
    generalize v.rewriteRoomOf (some g) = t at *
    have all := written.trans_nil (shown.mono fun _ => .inl)
    exact {
      reports := by rw [if_pos same]; exact all.reports
      others := all.others
      drop := ⟨(s.drop l a).owed, by rw [kept, drop, Drop.boundTo, same, ← doorless]⟩
      minibars := fun _ => all.onLines.minibars
      mirror := fun h => absurd same h
      work := more }
  · rw [if_neg (by rw [presence]; exact same)]
    have moved := v.changeDrop_moved l a { v.drop l a with presence := (s.drop l a).rejudged g }
      (if (s.drop l a).rejudged g = .present then .dropPresent else .dropMismatch) 0 (by rw [presence]; exact same)
      (.inr (by rw [drop]; show (s.drop l a).door.bind _ = none; rw [doorless]; rfl)) (fun _ => by rw [drop]; exact doorless)
      (fun r hr _ => by
        rw [written.onLines.minibars]
        rw [drop] at hr
        exact off r (Option.some.inj hr))
    have more := work.trans (v.work_changeDrop l a { v.drop l a with presence := (s.drop l a).rejudged g }
      (some (if (s.drop l a).rejudged g = .present then .dropPresent else .dropMismatch, 0)))
    generalize v.changeDrop l a _ _ = t at *
    obtain ⟨reports, mirror, others, ⟨o, after⟩, -, -, -, minibars, -⟩ := moved
    rw [drop] at reports after minibars
    exact {
      reports := by rw [if_neg same]; exact written.reports.trans reports
      others := fun p hp => (others p hp).trans (written.others p hp)
      drop := ⟨o, by rw [after, doorless]; rfl⟩
      minibars := fun h => (minibars fun _ _ => .inl (h.elim id fun hp e => same (e.trans hp.symm))).trans written.onLines.minibars
      mirror := fun _ => mirror
      work := more }

/-- A door-side record is created by a bind (R49). -/
theorem State.doorBound_spec (s : State) (l : Fin 2) (a : Fin 64) :
    s.AtDrop (s.doorBound l a) l a ofRoomMirrors [] ∧
    (s.doorBound l a).drop l a = { s.drop l a with
      door := some { DoorSide.unknown with latch := s.latchFor (s.drop l a).binding (s.drop l a).presence } } :=
  ⟨s.atDrop_putDoor l a _, s.putDoor_drop l a _⟩

theorem State.work_tellBound (s : State) (l : Fin 2) (a : Fin 64) (g : Binding) : State.Work .calm s (s.tellBound l a g) := by
  unfold State.tellBound
  dsimp only
  cases g with
  | door r => exact s.work_putDoor _ _ _
  | gate z =>
    dsimp only
    split
    · exact (s.work_putDoor _ _ _).trans (State.work_askZoneHold _ _ _)
    · exact s.work_putDoor _ _ _
  | minibar r =>
    dsimp only
    split
    · exact s.work_minibarReached r
    · exact .refl s

theorem State.bindDrop_spec (s : State) (l : Fin 2) (a : Fin 64) (g : Binding) (n : Nat) (doorless : (s.drop l a).door = none)
    (off : ∀ r, g = .minibar r → s.minibars[r].state = .offline) :
    s.Bound (s.bindDrop l a g n) l a g (boundOpenTime (s.drop l a).openTime n) ∧ State.Work .calm s (s.bindDrop l a g n) := by
  have judged := s.rejudge_spec l a g (boundOpenTime (s.drop l a).openTime n) doorless off
  unfold State.bindDrop
  dsimp only
  generalize boundOpenTime (s.drop l a).openTime n = openTime at *
  generalize ((s.setDrop l a { s.drop l a with binding := some g, openTime := openTime }).rejudge l a g) = v at *
  obtain ⟨reports, others, ⟨o, drop⟩, minibars, mirror, work⟩ := judged
  refine ⟨?_, work.trans (v.work_tellBound l a g)⟩
  have present : (v.drop l a).presence = (s.drop l a).rejudged g := by rw [drop]; rfl
  have binding : (v.drop l a).binding = some g := by rw [drop]; rfl
  have held : v.gateHeld (some g) = s.gateHeld (some g) := by unfold State.gateHeld; rw [work.zones]
  have latch (p : Presence) : v.latchFor (some g) p = s.latchFor (some g) p := by unfold State.latchFor; rw [held]
  have state : v.lines[l].state = s.lines[l].state := congrArg Prod.fst (work.course l)
  obtain ⟨bound, record⟩ := v.doorBound_spec l a
  rw [binding, present, latch] at record
  unfold State.tellBound
  dsimp only
  rw [present]
  have door (hd : g.hasDoor = true) (noGate : s.gateHeld (some g) = false ∨ (s.drop l a).rejudged g ≠ .present)
      (noMinibar : ∀ r, g ≠ .minibar r) : s.Bound (v.doorBound l a) l a g openTime := by
    generalize v.doorBound l a = t at *
    exact {
      reports := reports.trans_nil (bound.reports.mono fun _ => .inl)
      others := fun p hp => (bound.others p hp).trans (others p hp)
      drop := ⟨o, by rw [record, drop, hd]; rfl⟩
      told := fun hp hg => absurd noGate (by simp [hp, hg])
      minibars := fun h => bound.onLines.minibars.trans (minibars (.inl h))
      reached := fun r h => absurd h (noMinibar r)
      mirror := fun h => (bound.reports.dropMirror l a).trans (mirror h) }
  cases g with
  | door r => exact door rfl (.inl rfl) nofun
  | gate z =>
    dsimp only
    by_cases hp : (s.drop l a).rejudged (.gate z) = .present
    · rw [if_pos hp]
      generalize v.doorBound l a = u at *
      obtain ⟨asked, ⟨o', owes⟩, told, -⟩ := u.askZoneHold_spec l a (.inr (by rw [record]; rfl))
      have sameBinding : (u.drop l a).binding = some (.gate z) := by rw [record]; exact binding
      rw [sameBinding, bound.onLines.gateHeld, held] at told
      generalize u.askZoneHold l a = t at *
      exact {
        reports := (reports.trans_nil (bound.reports.mono fun _ => .inl)).trans_nil (asked.reports.mono fun _ => .inl)
        others := fun p hp => (asked.others p hp).trans ((bound.others p hp).trans (others p hp))
        drop := ⟨o', by rw [owes, record, drop]; rfl⟩
        told := fun _ => told
        minibars := fun h => absurd hp h
        reached := nofun
        mirror := fun h => ((asked.reports.dropMirror l a).trans (bound.reports.dropMirror l a)).trans (mirror h) }
    · rw [if_neg hp]
      exact door rfl (.inr hp) nofun
  | minibar r =>
    dsimp only
    by_cases hp : (s.drop l a).rejudged (.minibar r) = .present ∧ v.lines[l].state = .run
    · rw [if_pos hp]
      obtain ⟨reach, records⟩ := v.minibarReached_spec r
      generalize v.minibarReached r = t at *
      have lines : t.lines = v.lines := (State.records_lines records :)
      exact {
        reports := reports.trans_nil (reach.mono fun _ => .inl)
        others := fun p hp => (State.view_of_lines lines p).trans (others p hp)
        drop := ⟨o, by rw [State.drop, lines]; exact drop⟩
        told := nofun
        minibars := fun h => absurd hp.1 h
        reached := fun k hk before _ _ => by
          obtain rfl : r = k := by cases hk; rfl
          rw [(State.records_minibars records :)]
          refine (vector_set_same _ r _).trans ?_
          rw [minibars (.inr before)]
        mirror := fun h => (reach.dropMirror l a).trans (mirror h) }
    · rw [if_neg hp]
      exact {
        reports := reports
        others := others
        drop := ⟨o, drop⟩
        told := nofun
        minibars := fun h => minibars (.inl h)
        reached := fun _ _ _ present run => absurd ⟨present, state.trans run⟩ hp
        mirror := mirror }

end Sys2Proof.Machine

namespace Sys2Proof.Machine

open Sys2Proof

/-! ## An UNBIND taken (R136) -/

theorem State.Told.of_still {s t : State} {l : Fin 2} {a : Fin 64} {msg : Directed} (h : s.Told (l, a) msg)
    (queue : t.lines[l].queue = s.lines[l].queue) (owed : (t.drop l a).owed = (s.drop l a).owed) : t.Told (l, a) msg := by
  have waits : (t.view (l, a)).2.1 = (s.view (l, a)).2.1 := congrArg (List.filter fun m : QMsg => decide (m.addr = a)) queue
  refine h.imp (fun h => ?_) fun h => ?_
  · rw [waits]; exact h
  · exact owed.trans h

/-- The entries of what a LATCH to a gate of a held zone takes the place of. -/
def State.latchLosses (s : State) (l : Fin 2) (a : Fin 64) : List Request :=
  if s.gateHeld (s.drop l a).binding = true ∧ losesOpen (s.view (l, a)) = true then lostEntries (placeOf l a) 3 (s.drop l a).door else []

/-- Drop `(l, a)` has lost its binding and its record, after the LATCH; its owner is not yet told. -/
structure State.Unbound (s t : State) (l : Fin 2) (a : Fin 64) : Prop where
  atDrop : s.AtDrop t l a ofRoomMirrors (s.latchLosses l a)
  drop : ∃ o, (s.gateHeld (s.drop l a).binding = false → o = (s.drop l a).owed) ∧
    t.drop l a = { s.drop l a with binding := none, door := none, owed := o }
  told : s.gateHeld (s.drop l a).binding = true → t.Told (l, a) .latch
  work : State.Work .calm s t

/-- The LATCH of an UNBIND. -/
def State.latchAsked (s : State) (l : Fin 2) (a : Fin 64) (b : Binding) : State := if s.gateHeld (some b) then s.ask l a .latch .zoneTable else s

def State.unbound (s : State) (l : Fin 2) (a : Fin 64) (b : Binding) : State :=
  ((s.latchAsked l a b).setDrop l a { (s.latchAsked l a b).drop l a with binding := none, door := none }).rewriteRoomOf (some b)

theorem State.unbound_spec (s : State) (l : Fin 2) (a : Fin 64) (b : Binding) (hb : (s.drop l a).binding = some b) : s.Unbound (s.unbound l a b) l a := by
  have asked : ∃ u, s.latchAsked l a b = u ∧ s.AtDrop u l a ofRoomMirrors (s.latchLosses l a) ∧
      (∃ o d, (s.gateHeld (s.drop l a).binding = false → o = (s.drop l a).owed) ∧ u.drop l a = { s.drop l a with owed := o, door := d }) ∧
      (s.gateHeld (s.drop l a).binding = true → u.Told (l, a) .latch) ∧ State.Work .calm s u := by
    refine ⟨_, rfl, ?_⟩
    unfold State.latchAsked State.latchLosses
    rw [hb]
    by_cases h : s.gateHeld (some b) = true
    · obtain ⟨z, e⟩ := State.gateHeld_gate h
      have hz : (s.drop l a).binding = some (.gate z) := hb.trans e
      obtain ⟨reports, o, drop⟩ := s.askZone_spec l a .latch z rfl hz
      rw [if_pos h]
      simp only [h, true_and]
      refine ⟨⟨reports.mono fun _ => False.elim, s.request_onLines l _ (s.minibarAt_gate l a z hz), fun p hp => s.view_ask_other l a .latch .zoneTable hp⟩,
        ⟨o, _, nofun, drop⟩, fun _ => ?_, s.work_ask l a _ _⟩
      exact (s.ask_stands l a .latch .zoneTable rfl).imp_left fun h => List.mem_filter.2 ⟨h, by simp⟩
    · rw [if_neg h, if_neg fun e => h e.1]
      exact ⟨.refl s l a _, ⟨_, _, fun _ => rfl, rfl⟩, fun e => absurd e h, .refl s⟩
  unfold State.unbound
  obtain ⟨u, e, first, ⟨o, d, owed, drop⟩, told, work⟩ := asked
  rw [e]
  have written := u.atDrop_setDrop l a { u.drop l a with binding := none, door := none } ofRoomMirrors
  have wrote := u.setDrop_same l a { u.drop l a with binding := none, door := none }
  have queue := u.queue_setDrop l l a { u.drop l a with binding := none, door := none }
  have work' := work.trans (u.work_setDrop l a { u.drop l a with binding := none, door := none })
  generalize u.setDrop l a { u.drop l a with binding := none, door := none } = v at *
  have shown := v.atDrop_rewriteRoomOf l a (some b)
  have lines : (v.rewriteRoomOf (some b)).lines = v.lines := State.records_lines (v.rewriteRoomOf_records _)
  have after : (v.rewriteRoomOf (some b)).drop l a = v.drop l a := v.rewriteRoomOf_drop _ l a
  have work'' := work'.trans (v.work_rewriteRoomOf (some b))
  generalize v.rewriteRoomOf (some b) = t at *
  exact {
    atDrop := (first.trans_nil written).trans_nil shown
    drop := ⟨o, owed, by rw [after, wrote, drop]⟩
    told := fun h => (told h).of_still (by rw [lines]; exact queue) (by rw [after, wrote])
    work := work'' }

/-- A drop that is not a minibar's, or whose minibar is out of reach: no owner has more to do. -/
theorem State.tellUnbound_idle (s : State) (l : Fin 2) (a : Fin 64) (b : Binding) (off : ∀ r, b = .minibar r → s.minibars[r].state = .offline) :
    s.tellUnbound l a b = s := by
  unfold State.tellUnbound
  cases b with
  | door r => rfl
  | gate z => rfl
  | minibar r =>
    dsimp only
    unfold State.minibarLost
    dsimp only
    rw [off r rfl]

theorem State.unbindDrop_eq (s : State) (l : Fin 2) (a : Fin 64) (b : Binding) :
    s.unbindDrop l a b =
      if (((s.unbound l a b).tellUnbound l a b).drop l a).presence = .mismatch then
        ((s.unbound l a b).tellUnbound l a b).changeDrop l a { ((s.unbound l a b).tellUnbound l a b).drop l a with presence := .present }
          (some (.dropPresent, 0))
      else (s.unbound l a b).tellUnbound l a b := rfl

theorem State.work_unbindDrop (s : State) (l : Fin 2) (a : Fin 64) (b : Binding) (hb : (s.drop l a).binding = some b) :
    State.Work .calm s (s.unbindDrop l a b) := by
  have first := (s.unbound_spec l a b hb).work
  rw [s.unbindDrop_eq]
  generalize s.unbound l a b = u at *
  have told : State.Work .calm s (u.tellUnbound l a b) := by
    unfold State.tellUnbound
    cases b with
    | door r => exact first
    | gate z => exact first
    | minibar r => exact first.trans (u.work_minibarLost r _)
  generalize u.tellUnbound l a b = v at *
  split
  · exact told.trans (v.work_changeDrop l a _ _)
  · exact told

theorem State.Lost.lines {s t : State} {r : Fin 48} {place : Nat} (h : s.Lost t r place) : t.lines = s.lines :=
  (State.records_lines h.records).trans (by rfl)

theorem State.tellUnbound_lines (s : State) (l : Fin 2) (a : Fin 64) (b : Binding) : (s.tellUnbound l a b).lines = s.lines := by
  cases b with
  | door r => rfl
  | gate z => rfl
  | minibar r =>
    by_cases off : s.minibars[r].state = .offline
    · rw [s.tellUnbound_idle l a _ fun k hk => by cases hk; exact off]
    · exact (s.minibarLost_spec r (placeOf l a) off).lines

theorem State.Unbound.presence {s t : State} {l : Fin 2} {a : Fin 64} (h : s.Unbound t l a) : (t.drop l a).presence = (s.drop l a).presence := by
  obtain ⟨o, -, drop⟩ := h.drop
  rw [drop]

theorem State.unbindDrop_steady (s : State) (l : Fin 2) (a : Fin 64) (b : Binding) (hb : (s.drop l a).binding = some b)
    (steady : (s.drop l a).presence ≠ .mismatch) : s.unbindDrop l a b = (s.unbound l a b).tellUnbound l a b := by
  have presence := (s.unbound_spec l a b hb).presence
  rw [s.unbindDrop_eq]
  generalize s.unbound l a b = u at *
  refine if_neg ?_
  rw [State.drop, u.tellUnbound_lines]
  exact fun e => steady (presence.symm.trans e)

theorem State.unbindDrop_mismatch (s : State) (l : Fin 2) (a : Fin 64) (b : Binding) (hb : (s.drop l a).binding = some b)
    (off : ∀ r, b = .minibar r → s.minibars[r].state = .offline) (mismatch : (s.drop l a).presence = .mismatch) :
    s.unbindDrop l a b = (s.unbound l a b).changeDrop l a { (s.unbound l a b).drop l a with presence := .present } (some (.dropPresent, 0)) := by
  have spec := s.unbound_spec l a b hb
  rw [s.unbindDrop_eq]
  generalize s.unbound l a b = u at *
  rw [u.tellUnbound_idle l a b fun r hr => by rw [spec.atDrop.onLines.minibars]; exact off r hr]
  exact if_pos (spec.presence.trans mismatch)

/-! ## The order's end -/

theorem State.Settled.endedWith {u t : State} {b k : Fin 16} {res res' : Result} {data data' : List Byte} (h : u.Settled t b res data)
    (e : u.EndedWith k res' data') (ne : k ≠ b) : t.EndedWith k res' data' := by
  refine e.congr (fun x hx => h.bytes x fun hb => ne (ofBlock_inj hx (ofResult_block hb))) ?_ (or_getLsbD_zero h.cause)
  unfold State.heldIn
  rw [h.held]
  exact heldIn_filter e.1.2.2.1

/-- The order served is no other owner's (R169). -/
theorem State.OwnerInv.other_block {s : State} (own : s.OwnerInv) {b : Fin 16} (serves : s.engine = some b) {o : Owner} {h : Held}
    (e : s.heldBy o = some h) (ne : o ≠ .engine) : h.block ≠ b := by
  obtain ⟨one, -, engine, -⟩ := own
  obtain ⟨x, hx, block, owner⟩ := engine b serves
  obtain ⟨hh, ho⟩ := State.heldBy_some e
  intro same
  have : h = x := List.inj_on_of_nodup_map one hh hx (same.trans block.symm)
  exact ne (by rw [← ho, this, owner])

theorem Presence.code_lt (p : Presence) : p.code < 256 := by cases p <;> decide

theorem State.dropSet_results {u t : State} {b : Fin 16} {l : Fin 2} {a : Fin 64} (h : u.Settled t b .ok (u.dropData l a)) :
    t.resultAt b 0 1 = (t.drop l a).presence.code ∧ t.resultAt b 1 1 = (t.drop l a).openTime % 256 := by
  have first := (h.results 0 1).trans (u.complete_resultAt b .ok (u.dropData l a) 0 1 (by simp [State.dropData]) (by simp))
  have second := (h.results 1 1).trans (u.complete_resultAt b .ok (u.dropData l a) 1 1 (by simp [State.dropData]) (by simp))
  rw [first, second, h.drop]
  have small := (u.drop l a).presence.code_lt
  constructor
  · simp [State.dropData, leNat, byteOf, Nat.mod_eq_of_lt small]
  · simp [State.dropData, leNat, byteOf]

theorem State.exec_dropSet {s : State} {b : Fin 16} {h : Held} (now : s.ServesNow b .dropSet h) :
    exec (.dropSet b) s = .next (s.dropSet h).chooseOrder.settle := by
  show Host.Outcome.next (s.serve b .dropSet State.dropSet State.settle) = _
  rw [now.serve]

end Sys2Proof.Machine

namespace Sys2Proof.Machine

open Sys2Proof

/-! ## DROP_SET (R135, R136) -/

/-- Work that sets a DROP_SET's drop, then its end. -/
theorem State.dropSet_settles {s u : State} (law : s.LineInv) (work : State.Work .calm s u) (b : Fin 16) (l : Fin 2) (a : Fin 64) :
    u.Settled (u.complete b .ok (u.dropData l a)).chooseOrder.settle b .ok (u.dropData l a) ∧
    (u.complete b .ok (u.dropData l a)).chooseOrder.settle.beyondLines =
      ({ s with engine := (u.complete b .ok (u.dropData l a)).chooseOrder.settle.engine } : State).beyondLines := by
  have settled := u.settled_complete b .ok (u.dropData l a) (law.noGoDue.of_course work.course)
  generalize (u.complete b .ok (u.dropData l a)).chooseOrder.settle = t at *
  have rest := congrArg (fun x : State => ({ x with engine := t.engine } : State)) (work.beyondLines nofun)
  exact ⟨settled, settled.rest.trans rest⟩

section
variable {s : State} {b : Fin 16} {h : Held} (now : s.ServesNow b .dropSet h) {l : Fin 2} {a : Fin 64}
include now

theorem State.dropSet_badParam (bad : dropFields h.params = none) : exec (.dropSet b) s = .next (s.complete b .badParam []).chooseOrder.settle := by
  rw [State.exec_dropSet now, State.dropSet, bad, now.block]

theorem State.dropSet_conflict {g : Binding} {n : Nat} (fields : dropFields h.params = some (l, a, .bind g n)) (taken : s.bindConflict l a g = true) :
    exec (.dropSet b) s = .next (s.complete b .dropConflict []).chooseOrder.settle := by
  rw [State.exec_dropSet now, State.dropSet, fields, now.block]
  dsimp only
  rw [if_pos taken]

theorem State.dropSet_bind {g : Binding} {n : Nat} (fields : dropFields h.params = some (l, a, .bind g n)) (free : s.bindConflict l a g ≠ true) :
    exec (.dropSet b) s = .next ((s.bindDrop l a g n).complete b .ok ((s.bindDrop l a g n).dropData l a)).chooseOrder.settle := by
  rw [State.exec_dropSet now, State.dropSet, fields, now.block]
  dsimp only
  rw [if_neg free]

theorem State.dropSet_notNeeded (fields : dropFields h.params = some (l, a, .unbind)) (free : (s.drop l a).binding = none) :
    exec (.dropSet b) s = .next (s.complete b .notNeeded []).chooseOrder.settle := by
  rw [State.exec_dropSet now, State.dropSet, fields, now.block]
  dsimp only
  rw [free]

theorem State.dropSet_unbind {g : Binding} (fields : dropFields h.params = some (l, a, .unbind)) (bound : (s.drop l a).binding = some g) :
    exec (.dropSet b) s = .next ((s.unbindDrop l a g).complete b .ok ((s.unbindDrop l a g).dropData l a)).chooseOrder.settle := by
  rw [State.exec_dropSet now, State.dropSet, fields, now.block]
  dsimp only
  rw [bound]
end

/-- The judgements of a drop newly bound (R136). -/
theorem Drop.rejudged_rest {d : Drop} {g : Binding} (h : d.presence = .absent ∨ d.presence = .silent) : d.rejudged g = d.presence := by
  unfold Drop.rejudged
  obtain h | h := h <;> rw [h] <;> rfl

theorem Drop.rejudged_match {d : Drop} {g : Binding} (h : d.presence = .present) (m : d.reported = some g.kindCode) : d.rejudged g = .present := by
  unfold Drop.rejudged
  rw [if_pos (.inl h), if_pos m]

theorem Drop.rejudged_differ {d : Drop} {g : Binding} (h : d.presence = .present) (m : d.reported ≠ some g.kindCode) : d.rejudged g = .mismatch := by
  unfold Drop.rejudged
  rw [if_pos (.inl h), if_neg m]

/-- An OutOfReach from the loss of the minibar, through the end of the order that brought it. -/
theorem State.Lost.outOfReach {s u v t : State} {r : Fin 48} {place : Nat} {b : Fin 16} (lost : u.Lost v r place) (serves : s.engine = some b)
    (held : u.held = s.held) (rooms : u.rooms = s.rooms) (minibars : u.minibars = s.minibars) (keepsRooms : t.rooms = v.rooms)
    (keepsMinibars : t.minibars = v.minibars) (keepsEnds : ∀ k res data, k ≠ b → v.EndedWith k res data → t.EndedWith k res data) :
    s.OutOfReach t r s.minibars[r] := by
  have closes : u.lossCloses r = true ↔ s.minibars[r].owesReport = true ∧ s.rooms[r].state = .departing := by
    unfold State.lossCloses
    rw [rooms, minibars, Bool.and_eq_true, decide_eq_true_eq]
  have final := lost.records
  rw [rooms, minibars] at final
  have vRooms : v.rooms = if u.lossCloses r then s.rooms.set r s.rooms[r].unscannedClose else s.rooms := (State.records_rooms final :)
  have vMinibars : v.minibars = s.minibars.set r s.minibars[r].gone := (State.records_minibars final :)
  have room : t.rooms[r] = if u.lossCloses r then s.rooms[r].unscannedClose else s.rooms[r] := by
    rw [keepsRooms, vRooms]
    split
    · exact vector_set_same _ r _
    · rfl
  refine ⟨?_, fun h => ?_, fun h => ?_, fun own => ⟨fun h scanning host e => ?_, fun h c e => ?_⟩⟩
  · rw [keepsMinibars, vMinibars]
    exact vector_set_same _ r _
  · rw [room, if_pos (closes.2 h)]
  · rw [room, if_neg fun e => h (closes.1 e)]
  · have ended := lost.host h (by rw [minibars]; exact scanning) (by rw [minibars]; exact host) ((State.heldBy_congr held _).trans e)
    rw [minibars] at ended
    obtain ⟨over_, data⟩ := keepsEnds _ _ _ (own.other_block serves e nofun) ended
    refine ⟨over_, (data 0 1 (by simp [Minibar.lostData, scanData]) (by simp)).trans ?_,
      (data 1 1 (by simp [Minibar.lostData, scanData]) (by simp)).trans ?_⟩
    · simp [Minibar.lostData, scanData, leNat]
    · rw [← Minibar.missing_toNat]
      simp [Minibar.lostData, scanData, leNat]
  · have ended := lost.checkout (by unfold State.HeldInv; rw [held]; exact own.1) (closes.2 c) h ((State.heldBy_congr held _).trans e)
    rw [minibars, rooms] at ended
    obtain ⟨over_, data⟩ := keepsEnds _ _ _ (own.other_block serves e nofun) ended
    refine ⟨over_, (data 1 1 (by simp [Room.closingData]) (by simp)).trans ?_, (data 4 4 (by simp [Room.closingData]) (by simp)).trans ?_⟩
    · simp [Room.closingData, leNat]
    · have tail : (List.drop 4 (s.rooms[r].closingData s.minibars[r].gone.charge)).take 4 = leBytes 4 s.minibars[r].gone.charge := by
        simp [Room.closingData]
      rw [tail, leNat_leBytes]
      rfl

/-- Settles O45: the fields and the conflict of a BIND first; then the record judged again and its owner told; and the LATCH, the loss of the
minibar and the judgement of an UNBIND. -/
theorem dropSetBinds : Obligations.DropSetBinds := by
  intro s b h now law inv reach
  dsimp only
  refine ⟨fun bad => ⟨_, State.dropSet_badParam now (dropFields_bad _ bad), s.refuses_complete b .badParam []⟩, fun l a hl ha nz =>
    ⟨fun g bind hg => ?_, fun unbind free => ?_, fun unbind bound steady => ?_, fun unbind bound mismatch => ?_⟩⟩
  · have fields := dropFields_bind hl ha nz bind (bindingOf_some hg)
    have conflict := State.bindConflict_iff inv l a g
    refine ⟨fun taken => ⟨_, State.dropSet_conflict now fields (conflict.2 taken), s.refuses_complete b .dropConflict []⟩, fun free => ?_⟩
    have unbound : (s.drop l a).binding = none := by
      rw [← Option.not_isSome_iff_eq_none]
      exact fun e => free (.inl e)
    have doorless : (s.drop l a).door = none := Drop.doorless inv (by simp [unbound])
    have off (r : Fin 48) (hr : g = .minibar r) : s.minibars[r].state = .offline :=
      reach.offline fun k c hb => absurd (.inr ⟨by rw [hr]; rfl, k, c, by rw [hr]; exact hb⟩) free
    have run := State.dropSet_bind now fields fun e => free (conflict.1 e)
    obtain ⟨binds, work⟩ := s.bindDrop_spec l a g (leAt h.params 5 1) doorless off
    obtain ⟨settled, rest⟩ := State.dropSet_settles law work b l a
    have results := State.dropSet_results settled
    generalize s.bindDrop l a g (leAt h.params 5 1) = u at *
    generalize (u.complete b .ok (u.dropData l a)).chooseOrder.settle = t at *
    have opens : boundOpenTime (s.drop l a).openTime (leAt h.params 5 1) =
      if leAt h.params 5 1 = 0 then (s.drop l a).openTime else min (leAt h.params 5 1) 25 := rfl
    rw [← opens]
    generalize boundOpenTime (s.drop l a).openTime (leAt h.params 5 1) = openTime at *
    obtain ⟨reports, others, ⟨o, drop⟩, told, minibars, reached, mirror⟩ := binds
    have after := (settled.drop l a).trans drop
    refine ⟨t, run, settled.completes reports.held (reports.cause fun q hq => ?_), ?_, ?_, results.1, ?_, fun k c hne => ?_, rest,
      fun rests => ?_, fun present same => ?_, fun present differs => ?_⟩
    · split at hq
      · cases hq
      · rw [List.mem_singleton.1 hq, presenceRequest_eq]
        dsimp only
        split <;> rfl
    · rw [after]; rfl
    · rw [after]; rfl
    · rw [results.2, after]; rfl
    · exact (settled.drop k c).trans (congrArg Prod.fst (others (k, c) hne))
    · have judged := Drop.rejudged_rest (g := g) rests
      have away : (s.drop l a).presence ≠ .present := fun e => by rw [e] at rests; simp at rests
      rw [if_pos judged] at reports
      refine ⟨?_, settled.journal.trans (reports.still rfl), settled.minibars.trans (minibars (by rw [judged]; exact away)), ?_⟩
      · rw [after]; exact judged
      · rw [after, judged, State.latchFor, if_neg away]
        rfl
    · have judged := Drop.rejudged_match (g := g) present same
      rw [judged] at told
      refine ⟨?_, ?_, fun held => ((told rfl held).sends).imp (settled.sends _ _) fun e => by rw [settled.drop]; exact e, fun r hr running offline => ?_⟩
      · rw [after]; exact judged
      · rw [after, judged, State.latchFor, if_pos rfl]
      · rw [settled.minibars, reached r hr present judged running, Minibar.reached_of_offline offline]
    · have judged := Drop.rejudged_differ (g := g) present differs
      have moved : (s.drop l a).rejudged g ≠ (s.drop l a).presence := by rw [judged, present]; nofun
      refine ⟨?_, ?_, ?_⟩
      · rw [after]; exact judged
      · rw [if_neg moved, judged, if_neg (by nofun), present, presenceRequest_eq] at reports
        have asks := reports.logs.asks
        unfold State.Asks at asks ⊢
        rw [settled.journal]
        exact asks
      · have shown := mirror moved
        rw [judged] at shown
        refine (settled.bytes _ fun e => ?_).trans shown
        have := ofResult_lt e
        omega
  · exact ⟨_, State.dropSet_notNeeded now (dropFields_unbind hl ha nz unbind) free, s.refuses_complete b .notNeeded []⟩
  · obtain ⟨g, hb⟩ := Option.isSome_iff_exists.1 bound
    have run := State.dropSet_unbind now (dropFields_unbind hl ha nz unbind) hb
    have work := s.work_unbindDrop l a g hb
    have spec := s.unbound_spec l a g hb
    obtain ⟨settled, rest⟩ := State.dropSet_settles law work b l a
    rw [s.unbindDrop_steady l a g hb steady] at run settled rest
    generalize s.unbound l a g = u at *
    have lines := u.tellUnbound_lines l a g
    have idle := u.tellUnbound_idle l a g
    have lost (r : Fin 48) (hr : g = .minibar r) (within : u.minibars[r].state ≠ .offline) : u.Lost (u.tellUnbound l a g) r (placeOf l a) := by
      rw [hr]
      exact u.minibarLost_spec r _ within
    generalize u.tellUnbound l a g = v at *
    generalize (v.complete b .ok (v.dropData l a)).chooseOrder.settle = t at *
    obtain ⟨atDrop, ⟨o, owed, drop⟩, told, -⟩ := spec
    have after : t.drop l a = { s.drop l a with binding := none, door := none, owed := o } := by
      rw [settled.drop, State.drop, lines]
      exact drop
    refine ⟨t, run, settled.ended, ?_, ?_, ?_, ?_, rest, fun k c hne => ?_, fun r hr => ?_, fun held => ?_⟩
    · rw [after]
    · rw [after]
    · rw [after]
    · rw [after]
    · rw [settled.drop, State.drop, lines]
      exact congrArg Prod.fst (atDrop.others (k, c) hne)
    · obtain rfl : g = .minibar r := by rw [hb] at hr; exact Option.some.inj hr
      have nothing : s.latchLosses l a = [] := if_neg (by rw [hb]; exact fun e => nomatch e.1)
      rw [nothing] at atDrop
      have minibars := atDrop.onLines.minibars
      by_cases off : s.minibars[r].state = .offline
      · have same := idle fun k hk => by cases hk; rw [minibars]; exact off
        have empty : s.lossEntries r s.minibars[r] (128 * l.val + a.val) = [] := by
          rw [s.lossEntries_eq, Minibar.lossFirst, State.lossCloses, Minibar.owesReport, off]
          rfl
        rw [empty]
        refine ⟨?_, fun within => absurd off within, fun _ => ?_⟩
        · rw [settled.minibars, same, minibars]
          exact off
        · unfold State.Admits
          rw [settled.journal, same, atDrop.reports.still rfl]
          simp [State.entriesFrom]
      · have lost := lost r rfl (by rw [minibars]; exact off)
        have reach := lost.outOfReach now.2.1 atDrop.reports.held atDrop.onLines.rooms minibars settled.rooms settled.minibars
          fun k res data ne e => settled.endedWith e ne
        refine ⟨?_, fun _ => reach, fun room => ?_⟩
        · rw [reach.1]
          unfold Minibar.gone Minibar.marked
          split <;> rfl
        · have logs := atDrop.reports.logs.trans lost.logs
          have same : u.lossEntries r u.minibars[r] (placeOf l a) = s.lossEntries r s.minibars[r] (128 * l.val + a.val) := by
            unfold State.lossEntries
            rw [minibars, atDrop.onLines.rooms, placeOf_eq]
          rw [List.nil_append, same] at logs
          unfold State.Admits
          rw [settled.journal]
          exact logs.admits room
    · have stands : v.Told (l, a) .latch := (told held).of_still (by rw [lines]) (by unfold State.drop; rw [lines])
      exact stands.sends.imp (settled.sends _ _) fun e => by rw [settled.drop]; exact e
  · obtain ⟨g, hb⟩ := Option.isSome_iff_exists.1 bound
    have off (r : Fin 48) (hr : g = .minibar r) : s.minibars[r].state = .offline := reach.offline fun k c hc => by
      obtain ⟨rfl, rfl⟩ := inv.2.1 k l c a _ rfl hc (by rw [hb, hr])
      rw [mismatch]
      exact .inl nofun
    have run := State.dropSet_unbind now (dropFields_unbind hl ha nz unbind) hb
    have work := s.work_unbindDrop l a g hb
    have spec := s.unbound_spec l a g hb
    obtain ⟨settled, rest⟩ := State.dropSet_settles law work b l a
    have results := State.dropSet_results settled
    have presence := spec.presence.trans mismatch
    rw [s.unbindDrop_mismatch l a g hb off mismatch] at run settled rest results
    generalize s.unbound l a g = u at *
    obtain ⟨atDrop, ⟨o, owed, drop⟩, told, -⟩ := spec
    have moved := u.changeDrop_moved l a { u.drop l a with presence := .present } .dropPresent 0 (by rw [presence]; nofun)
      (.inr (by rw [drop]; rfl)) (fun _ => by rw [drop]) (fun r hr => by rw [drop] at hr; cases hr)
    generalize u.changeDrop l a _ _ = v at *
    generalize (v.complete b .ok (v.dropData l a)).chooseOrder.settle = t at *
    obtain ⟨reports, mirror, others, ⟨o', after⟩, -, still, -, minibars, -⟩ := moved
    obtain ⟨owes, queue⟩ := still (.inr (by rw [drop]; rfl))
    rw [drop] at after owes
    rw [after] at owes
    obtain rfl : o' = o := owes
    have final : t.drop l a = { s.drop l a with binding := none, door := none, presence := .present, owed := o' } :=
      (settled.drop l a).trans after
    refine ⟨t, run, settled.ended, ?_, fun free => ?_, ?_, ?_, ?_, ?_, rest, fun k c hne => ?_, fun quiet => ?_, fun held => ?_⟩
    · rw [final]
    · rw [final]
      exact owed free
    · rw [results.1, final]
      rfl
    · rw [results.2, final]
    · refine (settled.bytes _ fun e => ?_).trans mirror
      have := ofResult_lt e
      omega
    · rw [settled.minibars, minibars (fun r hr => by rw [drop] at hr; cases hr), atDrop.onLines.minibars]
    · exact (settled.drop k c).trans (congrArg Prod.fst ((others (k, c) hne).trans (atDrop.others (k, c) hne)))
    · have nothing : s.latchLosses l a = [] := by
        refine if_neg fun e => quiet.elim (fun h => by rw [h] at e; cases e.1) fun empty => ?_
        have none_ : (s.view (l, a)).2.1 = [] := List.filter_eq_nil_iff.2 fun q hq => by simpa using empty q hq
        have e := e.2
        rw [losesOpen, none_] at e
        simp at e
      rw [nothing] at atDrop
      have logs := atDrop.reports.logs.trans reports.logs
      rw [List.nil_append, presence, presenceRequest_eq, drop] at logs
      have asks := logs.asks
      unfold State.Asks at asks ⊢
      rw [settled.journal]
      exact asks
    · have stands : v.Told (l, a) .latch := (told held).of_still (queue l) (by rw [after, drop])
      exact stands.sends.imp (settled.sends _ _) fun e => by rw [settled.drop]; exact e

end Sys2Proof.Machine

namespace Sys2Proof.Machine

open Sys2Proof

/-! ## A message to a drop of a line with nothing waiting (R139) -/

/-- Drop `(l, a)` takes any message: its line runs, with nothing open and nothing waiting, and it is owed none. -/
structure State.Free (s : State) (l : Fin 2) (a : Fin 64) : Prop where
  run : s.lines[l].state = .run
  queue : s.lines[l].queue = []
  idle : s.lines[l].inExchange = none
  owed : (s.drop l a).owed = none

/-- A message is queued, alone, and nothing else changes. -/
structure State.Queued (s t : State) (l : Fin 2) (m : QMsg) : Prop where
  atDrop : s.AtDrop t l m.addr ofRoomMirrors []
  drop : t.drop l m.addr = s.drop l m.addr
  queue : t.lines[l].queue = [m]
  work : State.Work .calm s t

theorem State.Free.request {s : State} {l : Fin 2} {m : QMsg} (h : s.Free l m.addr) : ∃ t, s.request l m = (t, .queued) ∧ s.Queued t l m := by
  have back : s.lines[l].holdsBack m.addr = false := by
    have owed : s.lines[l].drops[m.addr].owed = none := h.owed
    unfold Line.holdsBack Line.waitingFor
    rw [h.queue, owed]
    rfl
  have places : s.lines[l].places = 0 := by
    unfold Line.places
    rw [h.queue, h.idle]
    rfl
  have waits : s.lines[l].waitingFor m.addr = none := by
    unfold Line.waitingFor
    rw [h.queue]
    rfl
  have e : s.request l m = ((s.setQueue l [m]).setOwed l m.addr none, .queued) := by
    unfold State.request
    dsimp only
    rw [if_neg (not_not_intro h.run), back, if_neg (by simp), waits, places, h.queue]
    rfl
  refine ⟨_, e, ?_⟩
  have drop : ((s.setQueue l [m]).setOwed l m.addr none).drop l m.addr = s.drop l m.addr := by
    rw [State.setOwed_drop, s.drop_setQueue, ← h.owed]
  refine ⟨⟨(s.reports_setQueue l [m] _).trans_nil (State.reports_setOwed _ _ _ _ _), (s.onLines_setQueue l _).trans (State.onLines_setOwed _ _ _ _), fun p hp => ?_⟩,
    drop, ?_, (s.work_setQueue l _).trans (State.work_setOwed _ _ _ _)⟩
  · have other := s.view_request_other l m hp
    rw [e] at other
    exact other
  · exact (State.queue_setDrop _ _ _ _ _).trans (s.queue_setQueue l [m])

/-! ## A door report at a door that was not open (R66) -/

theorem State.doorReport_closed (s : State) (l : Fin 2) (a : Fin 64) (bolt : Bolt) (egress : Bool) {d : DoorSide} (hd : (s.drop l a).door = some d)
    (shut : d.leaf ≠ .opened) : s.doorReport l a false bolt egress = s.putDoor l a (some { d with leaf := .closed, bolt := bolt }) := by
  unfold State.doorReport
  rw [hd]
  dsimp only
  cases hl : d.leaf with
  | opened => exact absurd hl shut
  | closed => rfl
  | unknown => rfl

theorem State.doorReport_opened (s : State) (l : Fin 2) (a : Fin 64) (bolt : Bolt) (egress : Bool) {d : DoorSide} (hd : (s.drop l a).door = some d)
    (shut : d.leaf ≠ .opened) (latched : d.latch = .latched) :
    s.doorReport l a true bolt egress =
      if egress then s.putDoor l a (some { d with leaf := .opened, bolt := bolt, timer := true, heldCount := 0, alarm := false })
      else (s.putDoor l a (some { d with leaf := .opened, bolt := bolt, timer := true, heldCount := 0, alarm := false })).doorEntry l a .doorForced 0 := by
  have opening : ({ d with bolt := bolt } : DoorSide).opening =
      { d with leaf := .opened, bolt := bolt, timer := true, heldCount := 0, alarm := false } := by
    unfold DoorSide.opening
    dsimp only
    rw [latched]
  have forced : ({ d with bolt := bolt } : DoorSide).forced egress = !egress := by
    unfold DoorSide.forced
    rw [decide_eq_true latched, Bool.true_and]
  unfold State.doorReport
  rw [hd]
  dsimp only
  rw [opening, forced]
  cases hl : d.leaf with
  | opened => exact absurd hl shut
  | closed => cases egress <;> rfl
  | unknown => cases egress <;> rfl

/-! ## A GUEST card at the door of its room (R51, R52, R60) -/

theorem State.classRefuses_guest (s : State) (r : Fin 48) (bolt : Bolt) {c : List Byte} (guest : cardClass c = 1) :
    s.classRefuses (.door r) bolt c =
      if cardRoom c ≠ r.val ∨ s.rooms[r].state = .unused then some .wrongRoom
      else (s.rooms[r].refuses c).or (if bolt = .engaged then some .deadbolt else none) := by
  unfold State.classRefuses
  rw [guest]
  rfl

/-- The stay's checks of the statement are the unit's (R52). -/
theorem Room.refuses_eq (x : Room) (c : List Byte) : x.refuses c = stayCheck x c := by
  unfold Room.refuses stayCheck
  simp only [Bool.not_eq_true']

theorem Room.occupied_of_refuses {x : Room} {c : List Byte} (h : x.refuses c = none) : x.state = .occupied := by
  unfold Room.refuses at h
  split_ifs at h with generation copy stays
  exact not_not.1 stays

/-- The tests of a GUEST card at its room's door pass in the unit where they pass in the statement (R52). -/
theorem State.guestAtDoor_none {s : State} {r : Fin 48} {d : DoorSide} {c : List Byte} (guest : cardClass c = 1)
    (good : s.classRefuses (.door r) d.bolt c = none) :
    cardRoom c = r.val ∧ s.rooms[r].state = .occupied ∧ s.guestAtDoor r (some d) c = none := by
  rw [s.classRefuses_guest r d.bolt guest] at good
  by_cases other : cardRoom c ≠ r.val ∨ s.rooms[r].state = .unused
  · rw [if_pos other] at good
    cases good
  · rw [if_neg other] at good
    obtain ⟨stays, bolt⟩ := Option.or_eq_none_iff.1 good
    obtain ⟨room, used⟩ := not_or.1 other
    have room := not_not.1 room
    have bolt : d.bolt ≠ .engaged := fun e => by rw [if_pos e] at bolt; cases bolt
    refine ⟨room, Room.occupied_of_refuses stays, ?_⟩
    rw [Room.refuses_eq] at stays
    unfold State.guestAtDoor boltEngaged
    rw [room, asFin_val]
    dsimp only
    rw [if_neg fun e => e.elim used fun e => e rfl, stays]
    exact if_neg (by simpa using bolt)

theorem State.verdict_guest {s : State} {c : List Byte} (guest : cardClass c = 1) (good : evaluate s.site s.clock s.revs c = none) :
    s.verdict c = .ok .guest := by
  unfold State.verdict
  rw [good, guest]
  rfl

/-- The grant of a GUEST card at a room's door, and the record with it. -/
def State.guestGrant (s : State) (l : Fin 2) (a : Fin 64) (r : Fin 48) (c : List Byte) : Grant :=
  { cls := .guest, serial := cardSerial c, seconds := (s.drop l a).openTime, room := r.val }

def DoorSide.grantedTo (d : DoorSide) (g : Grant) : DoorSide := { d with latch := .granted, deadline := none, pending := some g }

/-- A GUEST card granted at the LATCHED door of its room, its OPEN queued. -/
structure State.GuestEnters (s t : State) (l : Fin 2) (a : Fin 64) (r : Fin 48) (d : DoorSide) (c : List Byte) : Prop where
  reports : s.Reports t ofRoomMirrors
    [{ kind := .grant, place := 128 * l.val + a.val, room := r.val, reason := 1, subject := cardSerial c, value := (s.drop l a).openTime }]
  door : (t.drop l a).door = some (d.grantedTo (s.guestGrant l a r c))
  queue : t.lines[l].queue = [{ addr := a, msg := .openLock (s.drop l a).openTime, asker := .doorUnit }]
  rooms : t.rooms = s.rooms.set r { s.rooms[r] with lastGrant := some s.clock.minute }
  work : State.Work .calm s t

/-- The end of a grant: the record, the entry, the notice of a guest in an OCCUPIED room (R24, R60). -/
def State.guestEnds (s : State) (l : Fin 2) (a : Fin 64) (r : Fin 48) (x : DoorSide) (q : Request) : State :=
  ((s.putDoor l a (some x)).admitRequest q).guestGranted r

theorem State.guestEnds_spec (s : State) (l : Fin 2) (a : Fin 64) (r : Fin 48) (x : DoorSide) (q : Request) (occupied : s.rooms[r].state = .occupied) :
    s.Reports (s.guestEnds l a r x q) ofRoomMirrors [q] ∧
    (s.guestEnds l a r x q).lines = (s.setDrop l a { s.drop l a with door := some x }).lines ∧
    (s.guestEnds l a r x q).rooms = s.rooms.set r { s.rooms[r] with lastGrant := some s.clock.minute } ∧
    State.Work .calm s (s.guestEnds l a r x q) := by
  have put := s.atDrop_putDoor l a (some x)
  have lines := s.putDoor_lines l a (some x)
  have work : State.Work .calm s (s.putDoor l a (some x)) := s.work_putDoor l a _
  unfold State.guestEnds
  generalize s.putDoor l a (some x) = u at *
  have asked := put.reports.trans (u.reports_admitRequest q _)
  have same : (u.admitRequest q).records = u.records := u.admitRequest_records q
  have work := work.trans (u.work_admitRequest q)
  generalize u.admitRequest q = v at *
  have rooms : v.rooms = s.rooms := (State.records_rooms same :).trans put.onLines.rooms
  unfold State.guestGranted
  dsimp only
  rw [if_pos (by rw [rooms]; exact occupied), rooms, State.now, work.clock]
  have records := v.putRoom_records r { s.rooms[r] with lastGrant := some s.clock.minute }
  rw [rooms] at records
  refine ⟨asked.trans_nil ((v.reports_putRoom r _).mono fun x h => ⟨r, h⟩), ?_, (State.records_rooms records :), work.trans (v.work_putRoom r _)⟩
  exact (State.records_lines records :).trans ((State.records_lines same :).trans lines)

theorem State.doorRead_guest {s : State} {l : Fin 2} {a : Fin 64} {r : Fin 48} {d : DoorSide} {c : List Byte} (free : s.Free l a)
    (hb : (s.drop l a).binding = some (.door r)) (hd : (s.drop l a).door = some d) (present : (s.drop l a).presence = .present)
    (latched : d.latch = .latched) (guest : cardClass c = 1) (good : s.decides (.door r) d.bolt c = none) :
    s.GuestEnters (s.doorRead l a c) l a r d c := by
  obtain ⟨valid, class_⟩ := Option.or_eq_none_iff.1 good
  obtain ⟨room, occupied, check⟩ := State.guestAtDoor_none guest class_
  have decision : s.doorDecision l a c = .ok .guest := by
    unfold State.doorDecision State.classCheck
    dsimp only
    rw [hb, present, hd, State.verdict_guest guest valid]
    dsimp only
    rw [if_neg (by nofun), check]
  obtain ⟨u, asked, queued⟩ := (show s.Free l ({ addr := a, msg := .openLock (s.drop l a).openTime, asker := .doorUnit } : QMsg).addr from free).request
  have run : s.doorRead l a c = u.guestEnds l a r (d.grantedTo (s.guestGrant l a r c))
      { kind := .grant, place := 128 * l.val + a.val, room := r.val, reason := 1, subject := cardSerial c, value := (s.drop l a).openTime } := by
    unfold State.doorRead
    rw [decision]
    unfold State.doorGrant
    dsimp only
    rw [hd]
    dsimp only
    rw [if_neg (by rw [latched]; nofun)]
    unfold State.doorOpenGrant
    dsimp only
    rw [asked, hb, latched]
    dsimp only
    rw [if_pos rfl, if_neg (by nofun)]
    unfold State.noticeGuest readRoom grantRequest
    dsimp only
    rw [room, asFin_val, placeOf_eq]
    rfl
  obtain ⟨atDrop, same, queue, work⟩ := queued
  obtain ⟨reports, lines, rooms, ends⟩ := u.guestEnds_spec l a r (d.grantedTo (s.guestGrant l a r c))
    { kind := .grant, place := 128 * l.val + a.val, room := r.val, reason := 1, subject := cardSerial c, value := (s.drop l a).openTime }
    (by rw [atDrop.onLines.rooms]; exact occupied)
  rw [run]
  generalize u.guestEnds l a r _ _ = t at *
  rw [atDrop.onLines.rooms, work.clock] at rooms
  exact {
    reports := atDrop.reports.trans reports
    door := by
      rw [State.drop, lines]
      exact congrArg Drop.door (u.setDrop_same l a _)
    queue := by
      rw [lines]
      exact (u.queue_setDrop l l a _).trans queue
    rooms := rooms
    work := work.trans ends }

/-! ## A card at a door in MISMATCH (R51, R58) -/

/-- A refusal, its DENY queued. -/
structure State.Refused (s t : State) (l : Fin 2) (a : Fin 64) (reason : Deny) (q : Request) : Prop where
  reports : s.Reports t ofRoomMirrors [q]
  queue : t.lines[l].queue = [{ addr := a, msg := .deny reason.cls, asker := .doorUnit }]
  rooms : t.rooms = s.rooms
  work : State.Work .calm s t

theorem State.putDeny_spec (s : State) (r : Fin 48) (reason : Deny) :
    s.Reports (s.putDeny r reason) ofRoomMirrors [] ∧ (s.putDeny r reason).lines = s.lines ∧ (s.putDeny r reason).rooms = s.rooms := by
  have stored : s.Reports { s with lastDeny := s.lastDeny.set r (some { reason := reason, minute := s.now }) } ofRoomMirrors [] :=
    ⟨rfl, rfl, .nil rfl, fun _ => .inl rfl, .of_ram rfl _, fun _ => rfl⟩
  have shown (u : State) : u.Reports (u.rewriteRoom r) ofRoomMirrors [] := (u.reports_rewriteRoomOf (some (.door r))).mono fun _ => ofMirrorOf_rooms
  unfold State.putDeny
  dsimp only
  split
  · exact ⟨stored, rfl, rfl⟩
  · exact ⟨stored.trans (shown _), rfl, rfl⟩

theorem State.doorRead_mismatch {s : State} {l : Fin 2} {a : Fin 64} {r : Fin 48} {d : DoorSide} {c : List Byte} (free : s.Free l a)
    (hb : (s.drop l a).binding = some (.door r)) (hd : (s.drop l a).door = some d) (mismatch : (s.drop l a).presence = .mismatch)
    (noGrant : d.pending = none) :
    s.Refused (s.doorRead l a c) l a .unboundDrop
      { kind := .deny, place := 128 * l.val + a.val, room := r.val, reason := 19, subject := cardSerial c, value := 4 * 256 } := by
  have decision : s.doorDecision l a c = .error .unboundDrop := by
    unfold State.doorDecision
    dsimp only
    rw [hb, mismatch]
    dsimp only
    rw [if_pos rfl]
  obtain ⟨u, asked, queued⟩ := (show s.Free l ({ addr := a, msg := .deny Deny.unboundDrop.cls, asker := .doorUnit } : QMsg).addr from free).request
  have run : s.doorRead l a c = (u.admitRequest
      { kind := .deny, place := 128 * l.val + a.val, room := r.val, reason := 19, subject := cardSerial c, value := 4 * 256 }).putDeny r .unboundDrop := by
    have noPending : s.grantPending l a = false := by
      unfold State.grantPending
      rw [hd]
      dsimp only
      rw [noGrant]
      rfl
    unfold State.doorRead
    rw [decision]
    unfold State.doorRefuse
    dsimp only
    rw [noPending, asked, hb, placeOf_eq]
    rfl
  obtain ⟨atDrop, same, queue, work⟩ := queued
  rw [run]
  generalize ({ kind := .deny, place := 128 * l.val + a.val, room := r.val, reason := 19, subject := cardSerial c, value := 4 * 256 } : Request) = q
  have entry := atDrop.reports.trans (u.reports_admitRequest q _)
  have records : (u.admitRequest q).records = u.records := u.admitRequest_records q
  have work := work.trans (u.work_admitRequest q)
  generalize u.admitRequest q = v at *
  obtain ⟨reports, lines, rooms⟩ := v.putDeny_spec r .unboundDrop
  have work := work.trans (v.work_putDeny r .unboundDrop)
  generalize v.putDeny r .unboundDrop = t at *
  exact {
    reports := entry.trans_nil reports
    queue := by
      rw [lines, (State.records_lines records :)]
      exact queue
    rooms := rooms.trans ((State.records_rooms records :).trans atDrop.onLines.rooms)
    work := work }

end Sys2Proof.Machine

namespace Sys2Proof.Machine

open Sys2Proof

/-! ## The IDENT of an open exchange (R127, R131, R147) -/

/-- Nothing is open on line `l`; the drop it owes an IDENTIFY is `r`. -/
def State.idled (s : State) (l : Fin 2) (r : Option Returning) : State := s.setLine l { s.lines[l] with activity := .idle, returning := r }

section
variable (s : State) (l : Fin 2) (r : Option Returning)

theorem State.idled_same : (s.idled l r).lines[l] = { s.lines[l] with activity := .idle, returning := r } := s.setLine_same l _

theorem State.idled_other {k : Fin 2} (h : k ≠ l) : (s.idled l r).lines[k] = s.lines[k] := s.setLine_other l k _ h.symm

theorem State.idled_kept (k : Fin 2) : (s.idled l r).lines[k].queue = s.lines[k].queue ∧ (s.idled l r).lines[k].state = s.lines[k].state ∧
    (s.idled l r).lines[k].mark = s.lines[k].mark ∧ (s.idled l r).lines[k].drops = s.lines[k].drops := by
  by_cases h : k = l
  · subst h
    rw [s.idled_same]
    exact ⟨rfl, rfl, rfl, rfl⟩
  · rw [s.idled_other l r h]
    exact ⟨rfl, rfl, rfl, rfl⟩

theorem State.idled_drop (k : Fin 2) (a : Fin 64) : (s.idled l r).drop k a = s.drop k a :=
  congrArg (fun x : Vector Drop 64 => x[a]) (s.idled_kept l r k).2.2.2

theorem State.idled_view (p : Fin 2 × Fin 64) : (s.idled l r).view p = s.view p := by
  obtain ⟨queue, state, -⟩ := s.idled_kept l r p.1
  unfold State.view
  rw [s.idled_drop, queue, state]

/-- With the line idle no LINE_GO is due that was not, on a line with none in progress or outside RUN. -/
theorem State.idled_noGoDue (h : s.NoGoDue) (free : s.lines[l].state = .run → s.lines[l].mark = none) : (s.idled l r).NoGoDue := by
  intro k m run mark
  obtain ⟨-, state, same, -⟩ := s.idled_kept l r k
  rw [state] at run
  rw [same] at mark
  by_cases hk : k = l
  · subst hk
    rw [free run] at mark
    cases mark
  · rw [s.idled_other l r hk]
    exact h k m run mark
end

/-- The record of a drop after an IDENT (R131). -/
def Drop.judgedBy (d : Drop) (kind : Nat) (fast : Bool) : Drop :=
  { d with reported := some kind, fast := fast, miss := 0, presence := (judge d.binding kind).1 }

theorem judge_presence (b : Option Binding) (kind : Nat) :
    ((∀ g, b = some g → kind = g.kindCode) → (judge b kind).1 = .present) ∧ (¬(∀ g, b = some g → kind = g.kindCode) → (judge b kind).1 = .mismatch) := by
  cases b with
  | none => exact ⟨fun _ => rfl, fun h => absurd nofun h⟩
  | some g =>
    unfold judge
    by_cases h : kind = g.kindCode
    · simp [h]
    · simp [h]

theorem judge_entry (b : Option Binding) (kind : Nat) : (judge b kind).2 =
    match b with
    | none => .unboundDrop
    | some b => if kind = b.kindCode then .dropPresent else .dropMismatch := by
  cases b with
  | none => rfl
  | some g =>
    unfold judge
    dsimp only
    split <;> rfl

section
variable {s : State} {l : Fin 2} {a : Fin 64} (r : Option Returning) (kind : Nat) (fast : Bool)

theorem State.identified_same (same : (judge (s.drop l a).binding kind).1 = (s.drop l a).presence) :
    (s.idled l r).identified l a kind fast = (s.idled l r).setDrop l a ((s.drop l a).judgedBy kind fast) := by
  unfold State.identified
  dsimp only
  rw [s.idled_drop]
  exact State.changeDrop_same _ _ _ _ _ (same.trans (by rw [s.idled_drop]))

/-- The IDENT of a drop on a line with an empty queue changes its presence. -/
theorem State.identified_moved (moved : (judge (s.drop l a).binding kind).1 ≠ (s.drop l a).presence) (inv : s.BindingInv)
    (queue : s.lines[l].queue = [])
    (far : ∀ k, (s.drop l a).binding = some (.minibar k) → (judge (s.drop l a).binding kind).1 ≠ .present → s.minibars[k].state = .offline) :
    s.Moved ((s.idled l r).identified l a kind fast) l a ((s.drop l a).judgedBy kind fast)
      (presenceRequest l a (s.drop l a).binding (judge (s.drop l a).binding kind).2 (s.drop l a).presence kind) := by
  have drop := s.idled_drop l r l a
  have step := (s.idled l r).changeDrop_moved l a ((s.drop l a).judgedBy kind fast) (judge (s.drop l a).binding kind).2 kind
    (by rw [drop]; exact moved)
    (.inl (State.losesOpen_of_empty a ((s.idled_kept l r l).1.trans queue)))
    (fun h => Drop.doorless inv h) far
  have lifted : s.Reports (s.idled l r) (ofMirrors l a) [] := s.reports_setLine l _ _
  have state := (s.idled_kept l r l).2.1
  have queues (k : Fin 2) := (s.idled_kept l r k).1
  have identified : (s.idled l r).identified l a kind fast = (s.idled l r).changeDrop l a ((s.drop l a).judgedBy kind fast)
      (some ((judge (s.drop l a).binding kind).2, kind)) := by
    unfold State.identified
    rw [drop]
    rfl
  rw [identified]
  generalize (s.idled l r).changeDrop l a _ _ = t at *
  rw [drop] at step
  exact {
    reports := lifted.trans step.reports
    mirror := step.mirror
    others := fun p hp => (step.others p hp).trans (s.idled_view l r p)
    drop := step.drop
    told := step.told
    still := fun idle => ⟨(step.still idle).1, fun k => ((step.still idle).2 k).trans (queues k)⟩
    rooms := step.rooms
    minibars := fun h => step.minibars (by rw [state]; exact h)
    reached := fun k hk hp hs => step.reached k hk hp (state.trans hs) }
end

/-! ## The step of an IDENT -/

theorem State.exec_ident {s : State} {l : Fin 2} {a : Fin 64} {n : Nat} {x : Exchange} (kind fast : Byte) (hx : x = { addr := a, msg := .identify, retries := n })
    (open_ : s.lines[l].activity = .exchange x) : exec (.ident l kind fast) s = .next (s.identTaken l x kind.toNat (fast != 0)).settle := by
  have exchange : s.lines[l].exchange = some x := by
    unfold Line.exchange
    rw [open_]
  have good : x.goodAs (.ident kind fast) = some (.ident kind fast) := by
    rw [hx]
    rfl
  show Host.Outcome.next (s.reply l (.ident kind fast)) = _
  unfold State.reply
  rw [exchange]
  dsimp only
  rw [if_pos (by rw [hx]), good]
  rfl

theorem State.identTaken_survey {s : State} {l : Fin 2} {a : Fin 64} {n : Nat} (kind : Nat) (fast : Bool) (survey : s.lines[l].state = .survey) :
    s.identTaken l { addr := a, msg := .identify, retries := n } kind fast =
      ((s.idled l s.lines[l].returning).identified l a kind fast).surveyNext l a := by
  unfold State.identTaken
  rw [if_pos survey]
  rfl

theorem State.identTaken_run {s : State} {l : Fin 2} {a : Fin 64} {n : Nat} (kind : Nat) (fast : Bool) (run : s.lines[l].state = .run)
    {report : Option Report} (back : s.lines[l].returning = some { addr := a, report := report }) :
    s.identTaken l { addr := a, msg := .identify, retries := n } kind fast =
      report.elim ((s.idled l none).identified l a kind fast) (((s.idled l none).identified l a kind fast).deliver l a) := by
  have idled : (s.endExchange l { addr := a, msg := .identify, retries := n } true).setReturning l none = s.idled l none := by
    show (s.setActivity l .idle).setReturning l none = s.idled l none
    unfold State.setReturning State.setActivity
    rw [State.setLine_same, State.setLine_setLine]
    rfl
  unfold State.identTaken
  rw [if_neg (by rw [run]; nofun)]
  unfold State.returned
  dsimp only
  rw [idled, back]
  cases report <;> rfl

end Sys2Proof.Machine

namespace Sys2Proof.Machine

open Sys2Proof

/-! ## A returning drop (R131 to R133) -/

/-- Work that only asks for entries leaves what a line is in and does, so no LINE_GO comes due. -/
theorem State.idled_calm {s v : State} {l : Fin 2} {r : Option Returning} (law : s.LineInv) (free : s.lines[l].state = .run → s.lines[l].mark = none)
    (work : State.Work .calm (s.idled l r) v) : v.NoGoDue := (s.idled_noGoDue l r law.noGoDue free).of_course work.course

/-- A minibar whose drop is not PRESENT, or whose line does not run, is out of reach. -/
theorem State.ReachInv.of_drop {s : State} (reach : s.ReachInv) (inv : s.BindingInv) {l : Fin 2} {a : Fin 64} {r : Fin 48}
    (hb : (s.drop l a).binding = some (.minibar r)) (away : (s.drop l a).presence ≠ .present ∨ s.lines[l].state ≠ .run) :
    s.minibars[r].state = .offline := by
  refine reach.offline fun k c hc => ?_
  obtain ⟨rfl, rfl⟩ := inv.2.1 k l c a _ rfl hc hb
  exact away

/-- Drop `(l, a)` has been judged in `v`, its line's exchange over, and `report` is about to be delivered. -/
structure State.Returns (s v : State) (l : Fin 2) (a : Fin 64) (kind : Nat) (fast : Bool) : Prop where
  moved : s.Moved v l a ((s.drop l a).judgedBy kind fast)
    (presenceRequest l a (s.drop l a).binding (judge (s.drop l a).binding kind).2 (s.drop l a).presence kind)
  work : State.Work .calm (s.idled l none) v
  quiet : ∀ w, State.Work .calm v w → w.NoGoDue

theorem State.work_identified (s : State) (l : Fin 2) (a : Fin 64) (kind : Nat) (fast : Bool) : State.Work .calm s (s.identified l a kind fast) := by
  unfold State.identified
  exact s.work_changeDrop l a _ _

theorem State.ident_returns {s : State} {l : Fin 2} {a : Fin 64} {n : Nat} (kind fast : Byte) {report : Option Report} (law : s.LineInv)
    (inv : s.BindingInv) (reach : s.ReachInv) (queue : s.lines[l].queue = []) (run : s.lines[l].state = .run) (noMark : s.lines[l].mark = none)
    (open_ : s.lines[l].activity = .exchange { addr := a, msg := .identify, retries := n })
    (away : (s.drop l a).presence = .absent ∨ (s.drop l a).presence = .silent)
    (back : s.lines[l].returning = some { addr := a, report := report }) :
    ∃ v, exec (.ident l kind fast) s = .next (report.elim v (v.deliver l a)).settle ∧ s.Returns v l a kind.toNat (fast != 0) := by
  have run' := State.exec_ident kind fast rfl open_
  rw [State.identTaken_run kind.toNat (fast != 0) run back] at run'
  have work := (s.idled l none).work_identified l a kind.toNat (fast != 0)
  refine ⟨_, run', State.identified_moved none kind.toNat (fast != 0) ?_ inv queue fun k hk _ => reach.of_drop inv hk (.inl ?_), work, fun w more =>
    State.idled_calm law (fun _ => noMark) (work.trans more)⟩
  · obtain ⟨matching, differing⟩ := judge_presence (s.drop l a).binding kind.toNat
    intro e
    by_cases h : ∀ g, (s.drop l a).binding = some g → kind.toNat = g.kindCode
    · rw [matching h] at e
      rw [← e] at away
      simp at away
    · rw [differing h] at e
      rw [← e] at away
      simp at away
  · intro e
    rw [e] at away
    simp at away

section
variable {s v : State} {l : Fin 2} {a : Fin 64} {kind : Nat} {fast : Bool} (h : s.Returns v l a kind fast)
include h

theorem State.Returns.clock : v.clock = s.clock := h.work.clock
theorem State.Returns.site : v.site = s.site := h.work.site
theorem State.Returns.revs : v.revs = s.revs := h.work.revs nofun

/-- The line takes any message, where no HOLD was asked for. -/
theorem State.Returns.free (run : s.lines[l].state = .run) (queue : s.lines[l].queue = []) (owed : (s.drop l a).owed = none)
    (still : (judge (s.drop l a).binding kind).1 ≠ .present ∨ s.gateHeld (s.drop l a).binding = false) : v.Free l a := by
  obtain ⟨noneOwed, queues⟩ := h.moved.still still
  have course := h.work.course l
  rw [s.idled_same] at course
  have state : v.lines[l].state = .run := (congrArg Prod.fst course).trans run
  have activity : v.lines[l].activity = .idle := congrArg (fun c => c.2.2.1) course
  exact ⟨state, (queues l).trans queue, Line.inExchange_idle activity, noneOwed.trans owed⟩
end

/-- The end of a step whose entries are known. -/
theorem State.GoesOn.admits {s v t : State} {part : Nat → Prop} {qs : List Request} (on : v.GoesOn t) (h : s.Reports v part qs) (room : s.HasRoom qs.length) :
    s.Admits t qs := by
  unfold State.Admits
  rw [on.journal]
  exact h.logs.admits room

/-! ## The held report is delivered (R133) -/

theorem State.deliver_doorState {s : State} {l : Fin 2} {a : Fin 64} {b : Binding} (hb : (s.drop l a).binding = some b) (hasDoor : b.hasDoor = true)
    {door bolt : Byte} (egress : Byte) {isOpen : Bool} {x : Bolt} (ho : openOf door = some isOpen) (hx : boltOf bolt = some x) :
    s.deliver l a (.doorState door bolt egress) = s.doorReport l a isOpen x (egress != 0) := by
  show s.deliverDoorState l a door bolt egress = _
  unfold State.deliverDoorState
  rw [ho, hx, hb]
  cases b with
  | door r => rfl
  | gate z => rfl
  | minibar r => cases hasDoor

theorem State.deliver_cardRead {s : State} {l : Fin 2} {a : Fin 64} {r : Fin 48} (hb : (s.drop l a).binding = some (.door r)) (card : List Byte) :
    s.deliver l a (.cardRead card) = s.doorRead l a card := by
  have noMinibar : s.minibarAt l a = none := by
    unfold State.minibarAt
    rw [hb]
  unfold State.deliver
  dsimp only
  rw [noMinibar]

theorem boltOf_eq {bolt : Byte} (h : bolt = 0 ∨ bolt = 1) : boltOf bolt = some (if bolt = 1 then .engaged else .free) := by
  obtain rfl | rfl := h <;> rfl

theorem BindingInv.hasDoor {s : State} (inv : s.BindingInv) {l : Fin 2} {a : Fin 64} {b : Binding} {side : DoorSide} (hb : (s.drop l a).binding = some b)
    (hd : (s.drop l a).door = some side) : b.hasDoor = true := by
  obtain ⟨g, hg, door⟩ := (inv.2.2 l a).1 (by rw [hd]; rfl)
  rw [hb] at hg
  cases hg
  exact door

theorem doorRoom_eq {b : Binding} (hasDoor : b.hasDoor = true) : doorRoom (some b) = (b.shownRoom.map Fin.val).getD 255 := by
  cases b with
  | door r => rfl
  | gate z => rfl
  | minibar r => cases hasDoor

/-- The tests of a GUEST card at a room's door read the site, the clock, the Revocation List and the rooms alone. -/
theorem State.decides_guest_congr {s t : State} (site : t.site = s.site) (clock : t.clock = s.clock) (revs : t.revs = s.revs) (rooms : t.rooms = s.rooms)
    (r : Fin 48) (bolt : Bolt) {c : List Byte} (guest : cardClass c = 1) : t.decides (.door r) bolt c = s.decides (.door r) bolt c := by
  unfold State.decides
  rw [t.classRefuses_guest r bolt guest, s.classRefuses_guest r bolt guest, site, clock, revs, rooms]

end Sys2Proof.Machine

namespace Sys2Proof.Machine

open Sys2Proof

/-! ## A report held for a returning drop -/

/-- The entry of a returning drop. -/
def State.backEntry (s : State) (l : Fin 2) (a : Fin 64) (b : Binding) (kind : Byte) (entry : EntryKind) : Request :=
  { kind := entry, place := 128 * l.val + a.val, room := (b.shownRoom.map Fin.val).getD 255, value := (s.drop l a).presence.code * 256 + kind.toNat }

theorem State.HasRoom.less {s : State} {m n : Nat} (h : s.HasRoom n) (le : m ≤ n) : s.HasRoom m := ⟨h.1, by have := h.2; omega⟩

theorem judge_match {s : State} {l : Fin 2} {a : Fin 64} {b : Binding} {kind : Byte} (hb : (s.drop l a).binding = some b) (same : kind.toNat = b.kindCode) : (judge (s.drop l a).binding kind.toNat).1 = .present :=
  (judge_presence _ _).1 fun g hg => by
    rw [hb] at hg
    cases hg
    exact same

theorem judge_differ {s : State} {l : Fin 2} {a : Fin 64} {b : Binding} {kind : Byte} (hb : (s.drop l a).binding = some b) (differs : kind.toNat ≠ b.kindCode) : (judge (s.drop l a).binding kind.toNat).1 = .mismatch :=
  (judge_presence _ _).2 fun h => differs (h b hb)

section
variable {s v : State} {l : Fin 2} {a : Fin 64} {n : Nat} {kind : Byte} {b : Binding} {side : DoorSide} {fast : Bool}
  (inv : s.BindingInv) (exch : s.Exchanging l { addr := a, msg := .identify, retries := n }) (queue : s.lines[l].queue = [])
  (hb : (s.drop l a).binding = some b) (hd : (s.drop l a).door = some side) (owed : (s.drop l a).owed = none) (room : s.HasRoom 2)
  (back : s.Returns v l a kind.toNat fast)

/-- The side of the drop after the IDENT of its own kind. -/
def State.toldSide (s : State) (b : Binding) (side : DoorSide) : DoorSide :=
  { side with
    latch := if s.gateHeld (some b) then .held else .latched
    deadline := none, timer := false, heldCount := 0, alarm := false }

include hb back

theorem State.Returns.binding : (v.drop l a).binding = some b := by
  obtain ⟨o, drop⟩ := back.moved.drop
  rw [drop]
  exact hb

theorem State.Returns.reports_match (same : kind.toNat = b.kindCode) : s.Reports v (ofMirrors l a) [s.backEntry l a b kind .dropPresent] := by
  have reports := back.moved.reports
  rw [presenceRequest_eq, judge_entry, hb] at reports
  dsimp only at reports
  rw [if_pos same] at reports
  exact reports

theorem State.Returns.reports_differ (differs : kind.toNat ≠ b.kindCode) : s.Reports v (ofMirrors l a) [s.backEntry l a b kind .dropMismatch] := by
  have reports := back.moved.reports
  rw [presenceRequest_eq, judge_entry, hb] at reports
  dsimp only at reports
  rw [if_neg differs] at reports
  exact reports

include hd

theorem State.Returns.side_match (same : kind.toNat = b.kindCode) : (v.drop l a).door = some (s.toldSide b side) := by
  obtain ⟨o, drop⟩ := back.moved.drop
  have presence : ((s.drop l a).judgedBy kind.toNat fast).presence = .present := judge_match hb same
  have binding : ((s.drop l a).judgedBy kind.toNat fast).binding = some b := hb
  have door : ((s.drop l a).judgedBy kind.toNat fast).door = some side := hd
  have latch : s.latchFor (some b) .present = if s.gateHeld (some b) then .held else .latched := if_pos rfl
  refine (congrArg Drop.door drop).trans ?_
  dsimp only
  rw [presence, binding, door, latch]
  rfl

include inv room

theorem State.Returns.shut (same : kind.toNat = b.kindCode) (leaf : side.leaf ≠ .opened) {bolt egress : Byte} (hx : bolt = 0 ∨ bolt = 1) :
    s.Admits (v.deliver l a (.doorState 0 bolt egress)).settle [s.backEntry l a b kind .dropPresent] ∧
    ((v.deliver l a (.doorState 0 bolt egress)).settle.drop l a).door =
      some { s.toldSide b side with leaf := .closed, bolt := if bolt = 1 then .engaged else .free } := by
  have door := back.side_match hb hd same
  have hasDoor := BindingInv.hasDoor inv hb hd
  have reports := back.reports_match hb same
  rw [State.deliver_doorState (back.binding hb) hasDoor egress (isOpen := false) rfl (boltOf_eq hx),
    v.doorReport_closed l a _ _ door leaf]
  have quiet := back.quiet _ (v.work_putDoor l a (some { s.toldSide b side with leaf := .closed, bolt := if bolt = 1 then .engaged else .free }))
  have put := v.atDrop_putDoor l a (some { s.toldSide b side with leaf := .closed, bolt := if bolt = 1 then .engaged else .free })
  have wrote := congrArg Drop.door (v.putDoor_drop l a (some { s.toldSide b side with leaf := .closed, bolt := if bolt = 1 then .engaged else .free }))
  generalize v.putDoor l a _ = w at *
  have on := w.settle_goesOn quiet
  refine ⟨on.admits (reports.trans_nil (put.reports.mono fun _ => .inl)) (room.less (by simp)), ?_⟩
  rw [on.drop, wrote]

theorem State.Returns.opened (same : kind.toNat = b.kindCode) (leaf : side.leaf ≠ .opened) (free : s.gateHeld (some b) = false) {bolt egress : Byte}
    (hx : bolt = 0 ∨ bolt = 1) :
    ((v.deliver l a (.doorState 1 bolt egress)).settle.drop l a).door =
      some { s.toldSide b side with leaf := .opened, bolt := if bolt = 1 then .engaged else .free, timer := true } ∧
    s.Admits (v.deliver l a (.doorState 1 bolt egress)).settle (s.backEntry l a b kind .dropPresent ::
      if egress = 0 then [{ kind := .doorForced, place := 128 * l.val + a.val, room := (b.shownRoom.map Fin.val).getD 255 }] else []) := by
  have door := back.side_match hb hd same
  have hasDoor := BindingInv.hasDoor inv hb hd
  have reports := back.reports_match hb same
  have binding := back.binding hb
  rw [State.deliver_doorState binding hasDoor egress (isOpen := true) rfl (boltOf_eq hx),
    v.doorReport_opened l a _ _ (d := s.toldSide b side) door leaf (by rw [State.toldSide, free]; rfl)]
  have record : ({ s.toldSide b side with leaf := .opened, bolt := if bolt = 1 then .engaged else .free, timer := true, heldCount := 0, alarm := false } : DoorSide) =
      { s.toldSide b side with leaf := .opened, bolt := if bolt = 1 then .engaged else .free, timer := true } := rfl
  rw [record]
  generalize ({ s.toldSide b side with leaf := .opened, bolt := if bolt = 1 then .engaged else .free, timer := true } : DoorSide) = side' at *
  have work : State.Work .calm v (v.putDoor l a (some side')) := v.work_putDoor l a _
  have put := v.atDrop_putDoor l a (some side')
  have wrote := congrArg Drop.door (v.putDoor_drop l a (some side'))
  have bound := (congrArg Drop.binding (v.putDoor_drop l a (some side'))).trans binding
  generalize v.putDoor l a (some side') = w at *
  have all := reports.trans_nil (put.reports.mono fun _ => .inl)
  by_cases quietDoor : egress = 0
  · rw [if_neg (by simp [quietDoor]), if_pos quietDoor]
    unfold State.doorEntry
    rw [bound, doorRoom_eq hasDoor, placeOf_eq]
    generalize hq : ({ kind := .doorForced, place := 128 * l.val + a.val, room := (b.shownRoom.map Fin.val).getD 255, value := 0 } : Request) = q
    have on := State.settle_goesOn (w.admitRequest q) (back.quiet _ (work.trans (w.work_admitRequest q)))
    have asked := all.trans (w.reports_admitRequest q _)
    have kept : (w.admitRequest q).drop l a = w.drop l a := State.records_drop (w.admitRequest_records q) l a
    refine ⟨?_, ?_⟩
    · rw [on.drop, kept, wrote]
    · rw [← hq]
      rw [← hq] at asked on
      exact on.admits asked room
  · rw [if_pos (by simpa using quietDoor), if_neg quietDoor]
    have on := w.settle_goesOn (back.quiet _ work)
    refine ⟨?_, on.admits all (room.less (by simp))⟩
    rw [on.drop, wrote]
end

end Sys2Proof.Machine

namespace Sys2Proof.Machine

open Sys2Proof

/-! ## A card held for a returning drop -/

section
variable {s v : State} {l : Fin 2} {a : Fin 64} {n : Nat} {kind : Byte} {r : Fin 48} {side : DoorSide} {fast : Bool} {card : List Byte}
  (exch : s.Exchanging l { addr := a, msg := .identify, retries := n }) (queue : s.lines[l].queue = [])
  (hb : (s.drop l a).binding = some (.door r)) (hd : (s.drop l a).door = some side) (owed : (s.drop l a).owed = none) (room : s.HasRoom 2)
  (back : s.Returns v l a kind.toNat fast)
include exch queue hb owed back

theorem State.Returns.takes : v.Free l a := back.free exch.1 queue owed (.inr (by rw [hb]; rfl))

include hd room

theorem State.Returns.enters (same : kind.toNat = 1) (guest : cardClass card = 1) (good : s.decides (.door r) side.bolt card = none) :
    (v.deliver l a (.cardRead card)).settle.Sends l { addr := a, msg := .openLock (s.drop l a).openTime, asker := .doorUnit } ∧
    ((v.deliver l a (.cardRead card)).settle.drop l a).door = some { s.toldSide (.door r) side with
      latch := .granted
      pending := some { cls := .guest, serial := cardSerial card, seconds := (s.drop l a).openTime, room := r.val } } ∧
    s.Admits (v.deliver l a (.cardRead card)).settle [s.backEntry l a (.door r) kind .dropPresent,
      { kind := .grant, place := 128 * l.val + a.val, room := r.val, reason := 1, subject := cardSerial card, value := (s.drop l a).openTime }] ∧
    (v.deliver l a (.cardRead card)).settle.rooms = s.rooms.set r { s.rooms[r] with lastGrant := some s.clock.minute } := by
  obtain ⟨o, drop⟩ := back.moved.drop
  have openTime : (v.drop l a).openTime = (s.drop l a).openTime := (congrArg Drop.openTime drop :)
  have present : (v.drop l a).presence = .present := (congrArg Drop.presence drop).trans (judge_match (b := .door r) hb same)
  have rooms := back.moved.rooms
  have entered := State.doorRead_guest (back.takes exch queue hb owed) (back.binding hb) (back.side_match hb hd same) present rfl guest
    ((State.decides_guest_congr back.site back.clock back.revs rooms r _ guest).trans good)
  rw [State.deliver_cardRead (back.binding hb)]
  generalize v.doorRead l a card = w at *
  obtain ⟨reports, door, sends, granted, work⟩ := entered
  have on := w.settle_goesOn (back.quiet w work)
  rw [openTime] at reports sends
  rw [State.guestGrant, openTime] at door
  rw [rooms, back.clock] at granted
  refine ⟨on.sends (.inl (by rw [sends]; exact List.mem_singleton_self _)), ?_,
    on.admits ((back.reports_match hb same).trans (reports.mono fun _ => .inl)) room, on.rooms.trans granted⟩
  rw [on.drop, door]
  rfl

theorem State.Returns.refused (differs : kind.toNat ≠ 1) (noGrant : side.pending = none) :
    (v.deliver l a (.cardRead card)).settle.Sends l { addr := a, msg := .deny 4, asker := .doorUnit } ∧
    s.Admits (v.deliver l a (.cardRead card)).settle [s.backEntry l a (.door r) kind .dropMismatch,
      { kind := .deny, place := 128 * l.val + a.val, room := r.val, reason := 19, subject := cardSerial card, value := 4 * 256 }] ∧
    (v.deliver l a (.cardRead card)).settle.rooms = s.rooms := by
  obtain ⟨o, drop⟩ := back.moved.drop
  have mismatch : (v.drop l a).presence = .mismatch := (congrArg Drop.presence drop).trans (judge_differ (b := .door r) hb differs)
  have door := congrArg Drop.door drop
  have first : ((s.drop l a).judgedBy kind.toNat fast).door = some side := hd
  dsimp only at door
  rw [first, Option.map_some] at door
  have refused := State.doorRead_mismatch (c := card) (back.takes exch queue hb owed) (back.binding hb) door mismatch
    ((DoorSide.toldOf_pending _ _ _).trans noGrant)
  rw [State.deliver_cardRead (back.binding hb)]
  generalize v.doorRead l a card = w at *
  obtain ⟨reports, sends, rooms, work⟩ := refused
  have on := w.settle_goesOn (back.quiet w work)
  exact ⟨on.sends (.inl (by rw [sends]; exact List.mem_singleton_self _)),
    on.admits ((back.reports_differ hb differs).trans (reports.mono fun _ => .inl)) room, on.rooms.trans (rooms.trans back.moved.rooms)⟩
end

/-! ## The judgement alone -/

/-- The state a judged drop is left in. -/
structure State.Identified (s t : State) (l : Fin 2) (a : Fin 64) (kind : Nat) (fast : Bool) : Prop where
  drop : ∃ o, t.drop l a = { (s.drop l a).judgedBy kind fast with
    owed := o, door := if (judge (s.drop l a).binding kind).1 = (s.drop l a).presence then (s.drop l a).door
      else (s.drop l a).door.map (DoorSide.toldOf (s.latchFor (s.drop l a).binding (judge (s.drop l a).binding kind).1) (judge (s.drop l a).binding kind).1) }
  moved : (judge (s.drop l a).binding kind).1 ≠ (s.drop l a).presence →
    t.byte (0xA80 + 64 * l.val + a.val) = byteOf (judge (s.drop l a).binding kind).1.code ∧
    s.Asks t (presenceRequest l a (s.drop l a).binding (judge (s.drop l a).binding kind).2 (s.drop l a).presence kind) ∧
    ((judge (s.drop l a).binding kind).1 = .present → s.gateHeld (s.drop l a).binding = true → t.Told (l, a) .hold)
  still : (judge (s.drop l a).binding kind).1 = (s.drop l a).presence → t.journal = s.journal

theorem State.view_setActivity (s : State) (l : Fin 2) (x : Activity) (p : Fin 2 × Fin 64) : (s.setActivity l x).view p = s.view p := by
  obtain ⟨k, c⟩ := p
  unfold State.setActivity State.view State.drop
  by_cases h : k = l
  · subst h
    rw [State.setLine_same]
  · rw [State.setLine_other _ _ _ _ (Ne.symm h)]

theorem State.Identified.activity {s t : State} {l : Fin 2} {a : Fin 64} {kind : Nat} {fast : Bool} (h : s.Identified t l a kind fast) (x : Activity) :
    s.Identified (t.setActivity l x) l a kind fast := by
  have view := t.view_setActivity l x (l, a)
  have drop : (t.setActivity l x).drop l a = t.drop l a := congrArg Prod.fst view
  refine ⟨by rw [drop]; exact h.drop, fun m => ?_, fun e => h.still e⟩
  obtain ⟨shown, asks, told⟩ := h.moved m
  refine ⟨shown, asks, fun hp hg => ?_⟩
  unfold State.Told
  rw [view]
  exact told hp hg

theorem State.identified_spec {s : State} {l : Fin 2} {a : Fin 64} (r : Option Returning) (kind : Nat) (fast : Bool) (inv : s.BindingInv)
    (queue : s.lines[l].queue = [])
    (far : ∀ k, (s.drop l a).binding = some (.minibar k) → (judge (s.drop l a).binding kind).1 ≠ (s.drop l a).presence →
      (judge (s.drop l a).binding kind).1 ≠ .present → s.minibars[k].state = .offline) :
    s.Identified ((s.idled l r).identified l a kind fast) l a kind fast := by
  by_cases same : (judge (s.drop l a).binding kind).1 = (s.drop l a).presence
  · rw [State.identified_same r kind fast same]
    refine ⟨⟨(s.drop l a).owed, ?_⟩, fun h => absurd same h, fun _ => rfl⟩
    rw [if_pos same]
    exact State.setDrop_same _ l a _
  · obtain ⟨reports, mirror, -, ⟨o, drop⟩, told, -, -, -, -⟩ :=
      State.identified_moved r kind fast same inv queue fun k hk => far k hk same
    generalize (s.idled l r).identified l a kind fast = t at *
    refine ⟨⟨o, ?_⟩, fun _ => ⟨mirror, reports.logs.asks, told⟩, fun e => absurd e same⟩
    rw [if_neg same]
    exact drop

/-- The end of a survey's probe: the next address is probed (R147). -/
theorem State.surveyNext_probes (s : State) (l : Fin 2) {a : Fin 64} (h : a.val < 63) :
    s.surveyNext l a = s.setActivity l (.exchange { addr := a + 1, msg := .identify, retries := 1 }) := if_pos h

/-- The step of an IDENT with nothing held: the drop is judged, and the line goes on, to the next probe in a survey. -/
theorem State.ident_judges {s : State} {l : Fin 2} {a : Fin 64} {n : Nat} (kind fast : Byte) (law : s.LineInv) (inv : s.BindingInv) (reach : s.ReachInv)
    (queue : s.lines[l].queue = []) (open_ : s.lines[l].activity = .exchange { addr := a, msg := .identify, retries := n })
    (course : (s.lines[l].state = .run ∧ s.lines[l].mark = none ∧ ((s.drop l a).presence = .absent ∨ (s.drop l a).presence = .silent) ∧
      s.lines[l].returning = some { addr := a, report := none }) ∨ (s.lines[l].state = .survey ∧ a.val < 63)) :
    ∃ w, exec (.ident l kind fast) s = .next w.settle ∧ s.Identified w l a kind.toNat (fast != 0) ∧ w.GoesOn w.settle ∧
      (s.lines[l].state = .survey → w.lines[l].activity = .exchange { addr := a + 1, msg := .identify, retries := 1 }) := by
  have run := State.exec_ident kind fast rfl open_
  obtain ⟨running, noMark, away, back⟩ | ⟨survey, more⟩ := course
  · rw [State.identTaken_run kind.toNat (fast != 0) running back] at run
    have judged := State.identified_spec none kind.toNat (fast != 0) inv queue fun k hk _ _ =>
      reach.of_drop inv hk (.inl fun e => by rw [e] at away; simp at away)
    have quiet := State.idled_calm law (fun _ => noMark) ((s.idled l none).work_identified l a kind.toNat (fast != 0))
    exact ⟨_, run, judged, State.settle_goesOn _ quiet, fun e => by rw [running] at e; cases e⟩
  · rw [State.identTaken_survey kind.toNat (fast != 0) survey, State.surveyNext_probes _ _ more] at run
    have judged := State.identified_spec (a := a) s.lines[l].returning kind.toNat (fast != 0) inv queue fun k hk _ _ =>
      reach.of_drop inv hk (.inr (by rw [survey]; nofun))
    have work := (s.idled l s.lines[l].returning).work_identified l a kind.toNat (fast != 0)
    have quiet := State.idled_calm law (fun e => by rw [survey] at e; cases e) work
    generalize (s.idled l s.lines[l].returning).identified l a kind.toNat (fast != 0) = v at *
    have state : v.lines[l].state = .survey := by
      have same := congrArg Prod.fst (work.course l)
      rw [s.idled_same] at same
      exact same.trans survey
    refine ⟨_, run, judged.activity _, State.settle_goesOn _ fun k m hs mark => ?_, fun _ => ?_⟩
    · by_cases hk : k = l
      · subst hk
        have hs : ((v.setActivity k (.exchange { addr := a + 1, msg := .identify, retries := 1 })).lines[k]).state = .run := hs
        rw [State.setActivity, State.setLine_same] at hs
        rw [show v.lines[k].state = .run from hs] at state
        cases state
      · rw [State.setActivity, State.setLine_other _ _ _ _ (Ne.symm hk)] at hs mark ⊢
        exact quiet k m hs mark
    · rw [State.setActivity, State.setLine_same]

/-- Settles O58: the table of R131 by the judgement, the owner by its notice, then the held report or the next probe. -/
theorem identJudgesThePresence : Obligations.IdentJudgesThePresence := by
  refine ⟨fun s l a n kind fast report b side law inv reach queue exch => ?_, fun s l a n kind fast law inv reach queue open_ => ?_⟩
  · intro d away held hb hd owed room
    obtain ⟨v, run, back⟩ := State.ident_returns kind fast law inv reach queue exch.1 exch.2.1 exch.2.2.1 away held
    refine ⟨fun door bolt egress hr same leaf hx => ⟨fun shut => ⟨_, run, ?_⟩, fun opens free => ⟨_, run, ?_⟩⟩,
      fun card r hr hbr long => ⟨fun same guest good => ⟨_, run, ?_⟩, fun differs noGrant => ⟨_, run, ?_⟩⟩⟩
    · rw [hr, shut]
      exact back.shut inv hb hd room same leaf hx
    · rw [hr, opens]
      exact back.opened inv hb hd room same leaf free hx
    · subst hr hbr
      exact back.enters exch queue hb hd owed room same guest good
    · subst hr hbr
      exact back.refused exch queue hb hd owed room differs noGrant
  · intro d back probed course left matching entry
    obtain ⟨w, run, judged, on, probes⟩ := State.ident_judges kind fast law inv reach queue open_ course
    obtain ⟨match_, differ⟩ := judge_presence d.binding kind.toNat
    have entered := judge_entry d.binding kind.toNat
    obtain ⟨⟨o, drop⟩, moved, still⟩ := judged
    have final := (on.drop l a).trans drop
    have presence : (w.settle.drop l a).presence = (judge d.binding kind.toNat).1 := congrArg Drop.presence final
    have door := congrArg Drop.door final
    refine ⟨w.settle, run, (congrArg Drop.reported final :), ?_, (congrArg Drop.miss final :), (congrArg Drop.binding final :), fun h => presence.trans (match_ h),
      fun h => presence.trans (differ h), fun h => ?_, fun h m held => ?_, fun h => ?_, fun h => ?_⟩
    · refine (congrArg Drop.fast final :).trans ?_
      show (fast != 0) = decide (fast ≠ 0)
      rw [bne, beq_eq_decide, decide_not]
    · rw [presence] at h
      obtain ⟨shown, asks, -⟩ := moved h
      rw [presenceRequest_eq, entered] at asks
      refine ⟨by rw [on.byte, presence]; exact shown, ?_, fun side hd m => ?_⟩
      · unfold State.Asks at asks ⊢
        rw [on.journal]
        exact asks
      · dsimp only at door
        rw [if_neg h, match_ m, hd] at door
        rw [door, State.latchFor, if_pos rfl]
        rfl
    · rw [presence] at h
      obtain ⟨-, -, told⟩ := moved h
      exact (told (match_ m) held).sends.imp (fun x => on.sends x) fun x => by rw [on.drop]; exact x
    · rw [presence] at h
      refine ⟨on.journal.trans (still h), ?_⟩
      dsimp only at door
      rw [if_pos h] at door
      exact door
    · rw [on.busy l (by rw [probes h.1]; nofun)]
      exact probes h.1

end Sys2Proof.Machine

namespace Sys2Proof.Machine

open Sys2Proof

/-! ## The search for a descriptor (R160) -/

theorem State.turn_inj {s : State} {i j : Fin 4} (h : s.turn i = s.turn j) : i = j := add_left_cancel h

theorem State.turn_surj (s : State) (k : Fin 4) : ∃ i, s.turn i = k := ⟨k - (s.journal.cursor + 1), add_sub_cancel _ _⟩

/-- What a search leaves that finds its first `n` descriptors not usable. -/
structure State.Passed (s u : State) (n : Nat) : Prop where
  filling : u.journal.filling = none
  cursor : u.journal.cursor = s.journal.cursor
  states : ∀ j : Fin 4, u.byte (descriptorPlace (s.turn j)) = if j.val < n then s.passedState j else s.byte (descriptorPlace (s.turn j))
  fields : ∀ (k : Fin 4) (j : Nat), 1 ≤ j → j < 16 → u.byte (descriptorPlace k + j) = s.byte (descriptorPlace k + j)
  cause : u.cause.getLsbD 1 = true ↔ s.cause.getLsbD 1 = true ∨ ∃ i : Fin 4, i.val < n ∧ s.unusable i = true

/-- What a search leaves that takes up its `i`-th descriptor. -/
structure State.TakenUp (s u : State) (i : Fin 4) : Prop where
  cursor : u.journal.cursor = s.turn i
  filling : u.journal.filling = some { index := s.turn i, cutOnAlarm := (s.byte (descriptorPlace (s.turn i) + 1)).getLsbD 0
                                       capacity := s.capacityAt (s.turn i), offset := s.offsetAt (s.turn i), written := 0, firstSeq := 0, lastSeq := 0 }
  state : u.byte (descriptorPlace (s.turn i)) = 2
  count : u.field (descriptorPlace (s.turn i) + 6) 2 = 0
  minute : u.field (descriptorPlace (s.turn i) + 12) 4 = 0
  before : ∀ j, j < i → u.byte (descriptorPlace (s.turn j)) = s.passedState j
  after : ∀ j, i < j → u.byte (descriptorPlace (s.turn j)) = s.byte (descriptorPlace (s.turn j))
  fields : ∀ (k : Fin 4) (j : Nat), (1 ≤ j ∧ j ≤ 5) ∨ (8 ≤ j ∧ j ≤ 11) → u.byte (descriptorPlace k + j) = s.byte (descriptorPlace k + j)
  cause : u.cause.getLsbD 1 = true ↔ s.cause.getLsbD 1 = true ∨ ∃ j, j < i ∧ s.unusable j = true

/-- A search that has looked at its first `n` descriptors. -/
def State.Swept (s u : State) (n : Nat) : Prop :=
  ((∀ i : Fin 4, i.val < n → s.usable i = false) → s.Passed u n) ∧ ∀ i : Fin 4, i.val < n → s.takesUp i → s.TakenUp u i

theorem State.swept_zero {s : State} (h : s.journal.filling = none) : s.Swept s 0 :=
  ⟨fun _ => ⟨h, rfl, fun _ => rfl, fun _ _ _ _ => rfl, by simp⟩, nofun⟩

/-- Among the first descriptors looked at, none is usable, or a first one is. -/
theorem State.first_usable (s : State) (n : Nat) : (∀ i : Fin 4, i.val < n → s.usable i = false) ∨ ∃ i : Fin 4, i.val < n ∧ s.takesUp i := by
  induction n with
  | zero => exact .inl nofun
  | succ n ih =>
    obtain none_ | ⟨i, hi, takes⟩ := ih
    · by_cases h : ∃ hn : n < 4, s.usable ⟨n, hn⟩ = true
      · obtain ⟨hn, usable⟩ := h
        exact .inr ⟨⟨n, hn⟩, Nat.lt_succ_self n, usable, fun j hj => none_ j hj⟩
      · refine .inl fun i hi => ?_
        obtain before | here := Nat.lt_succ_iff_lt_or_eq.1 hi
        · exact none_ i before
        · refine Bool.eq_false_iff.2 fun usable => h ⟨by omega, ?_⟩
          rwa [show (⟨n, by omega⟩ : Fin 4) = i from Fin.ext here.symm]
    · exact .inr ⟨i, by omega, takes⟩

/-- A search looks no further once a descriptor is FILLING. -/
theorem State.searchAt_busy {s : State} (h : s.journal.filling ≠ none) (d : Fin 4) : s.searchAt d = s := by
  unfold State.searchAt
  dsimp only
  rw [if_pos (Option.isSome_iff_ne_none.2 h)]

section
variable {s u : State} {n : Nat} (hn : n < 4) (passed : s.Passed u n)
include passed

theorem State.Passed.armed : u.armed (s.turn ⟨n, hn⟩) = s.armed (s.turn ⟨n, hn⟩) := by
  unfold State.armed
  rw [passed.states, if_neg (lt_irrefl n)]

theorem State.Passed.capacity (k : Fin 4) : u.capacityAt k = s.capacityAt k :=
  State.field_congr fun x h1 h2 => by
    obtain ⟨j, rfl⟩ : ∃ j, x = descriptorPlace k + j := ⟨x - descriptorPlace k, by omega⟩
    exact passed.fields k j (by omega) (by omega)

theorem State.Passed.offset (k : Fin 4) : u.offsetAt k = s.offsetAt k :=
  State.field_congr fun x h1 h2 => by
    obtain ⟨j, rfl⟩ : ∃ j, x = descriptorPlace k + j := ⟨x - descriptorPlace k, by omega⟩
    exact passed.fields k j (by omega) (by omega)
end

/-- The byte of a descriptor after another byte of the descriptors has been written. -/
theorem State.byte_store_descriptor (u : State) (d : Fin 4) (i : Nat) (bs : List Byte) (hi : i + bs.length ≤ 16) (k : Fin 4) (j : Nat) (hj : j < 16)
    (far : k ≠ d ∨ j < i ∨ i + bs.length ≤ j) : (u.store (descriptorPlace d + i) bs).byte (descriptorPlace k + j) = u.byte (descriptorPlace k + j) := by
  refine u.byte_store_out _ _ _ ?_
  unfold descriptorPlace
  obtain ne | h | h := far
  · have : k.val ≠ d.val := fun e => ne (Fin.ext e)
    omega
  · by_cases e : k.val = d.val <;> omega
  · by_cases e : k.val = d.val <;> omega

/-- An unusable descriptor is written BAD (R160, R165). -/
def State.spoiled (u : State) (d : Fin 4) : State := (u.store (descriptorPlace d) [4]).setCause causeJournal

/-- A usable descriptor is taken up. -/
def State.taken (u : State) (d : Fin 4) : State :=
  { ((u.store (descriptorPlace d) [2]).store (descriptorPlace d + 6) [0, 0]).store (descriptorPlace d + 12) [0, 0, 0, 0] with
    journal := { u.journal with
      cursor := d
      filling := some { index := d, cutOnAlarm := (u.byte (descriptorPlace d + 1)).getLsbD 0, capacity := u.capacityAt d, offset := u.offsetAt d
                        written := 0, firstSeq := 0, lastSeq := 0 } } }

theorem State.searchAt_eq {u : State} (free : u.journal.filling = none) (d : Fin 4) : u.searchAt d =
    if u.armed d = true then (if u.boundsGood d = true then u.taken d else u.spoiled d) else u := by
  have idle : u.journal.filling.isSome ≠ true := by rw [free]; nofun
  have armed : u.armed d = true ↔ ¬u.byte (descriptorAddr d) ≠ DescriptorState.armed.code := by
    unfold State.armed
    rw [decide_eq_true_iff, not_not]
    rfl
  unfold State.searchAt
  dsimp only
  rw [if_neg idle]
  by_cases h : u.armed d = true
  · rw [if_neg (armed.1 h), if_pos h]
    by_cases good : u.boundsGood d = true
    · rw [if_pos good, if_neg]
      · rfl
      · have same : goodBounds (u.field (descriptorAddr d + 2) 2) (u.field (descriptorAddr d + 4) 2) = u.boundsGood d := rfl
        rw [same, good]
        nofun
    · rw [if_neg good, if_pos]
      · rfl
      · have same : goodBounds (u.field (descriptorAddr d + 2) 2) (u.field (descriptorAddr d + 4) 2) = u.boundsGood d := rfl
        rw [same]
        simpa using good
  · rw [if_neg h, if_pos (not_not.1 fun e => h (armed.2 e))]

theorem State.spoiled_byte (u : State) (d k : Fin 4) (j : Nat) (hj : j < 16) (far : k ≠ d ∨ 1 ≤ j) :
    (u.spoiled d).byte (descriptorPlace k + j) = u.byte (descriptorPlace k + j) :=
  u.byte_store_descriptor d 0 [4] (by decide) k j hj (far.imp id .inr)

theorem State.spoiled_state (u : State) (d : Fin 4) : (u.spoiled d).byte (descriptorPlace d) = 4 :=
  (u.byte_store_in (descriptorPlace d) [4] (descriptorPlace d) le_rfl (by simp)).trans (by simp)

theorem State.taken_byte (u : State) (d k : Fin 4) (j : Nat) (hj : j < 16) (far : k ≠ d ∨ (1 ≤ j ∧ j ≤ 5) ∨ (8 ≤ j ∧ j ≤ 11)) :
    (u.taken d).byte (descriptorPlace k + j) = u.byte (descriptorPlace k + j) := by
  refine (State.byte_store_descriptor _ d 12 [0, 0, 0, 0] (by decide) k j hj (far.imp id ?_)).trans
    ((State.byte_store_descriptor _ d 6 [0, 0] (by decide) k j hj (far.imp id ?_)).trans (u.byte_store_descriptor d 0 [2] (by decide) k j hj (far.imp id ?_)))
  · simp; omega
  · simp; omega
  · simp; omega

theorem State.taken_state (u : State) (d : Fin 4) : (u.taken d).byte (descriptorPlace d) = 2 := by
  refine (State.byte_store_descriptor _ d 12 [0, 0, 0, 0] (by decide) d 0 (by decide) (.inr (.inl (by decide)))).trans
    ((State.byte_store_descriptor _ d 6 [0, 0] (by decide) d 0 (by decide) (.inr (.inl (by decide)))).trans ?_)
  exact (u.byte_store_in (descriptorPlace d) [2] (descriptorPlace d) le_rfl (by simp)).trans (by simp)

theorem State.taken_count (u : State) (d : Fin 4) : (u.taken d).field (descriptorPlace d + 6) 2 = 0 := by
  have kept : (u.taken d).field (descriptorPlace d + 6) 2 = ((u.store (descriptorPlace d) [2]).store (descriptorPlace d + 6) [0, 0]).field (descriptorPlace d + 6) 2 :=
    State.field_congr fun x h1 h2 => State.byte_store_out _ _ _ _ (.inl (by omega))
  rw [kept]
  exact State.field_store _ _ _ 0 2 (by decide)

theorem State.taken_minute (u : State) (d : Fin 4) : (u.taken d).field (descriptorPlace d + 12) 4 = 0 :=
  State.field_store _ (descriptorPlace d + 12) [0, 0, 0, 0] 0 4 (by decide)

end Sys2Proof.Machine

namespace Sys2Proof.Machine

open Sys2Proof

/-! ## The whole search (R160, R165) -/

theorem journal_bit_set (c : Half) : (c ||| causeJournal).getLsbD 1 = true := by
  simp [causeJournal]

section
variable {s u : State} {n : Nat} (hn : n < 4) (passed : s.Passed u n)
include passed

theorem State.Passed.boundsGood (k : Fin 4) : u.boundsGood k = s.boundsGood k := by
  unfold State.boundsGood
  rw [passed.capacity, passed.offset]

/-- A descriptor that is not ARMED is passed over. -/
theorem State.Passed.skips (idle : s.armed (s.turn ⟨n, hn⟩) = false) : s.Passed u (n + 1) := by
  have nothing : s.unusable ⟨n, hn⟩ = false := by unfold State.unusable; rw [idle]; rfl
  refine ⟨passed.filling, passed.cursor, fun j => (passed.states j).trans ?_, passed.fields, passed.cause.trans (or_congr_right ?_)⟩
  · by_cases h : j.val < n
    · rw [if_pos h, if_pos (by omega)]
    · rw [if_neg h]
      by_cases here : j.val < n + 1
      · obtain rfl : j = ⟨n, hn⟩ := Fin.ext (by dsimp only; omega)
        rw [if_pos here, State.passedState, nothing]
        rfl
      · rw [if_neg here]
  · refine exists_congr fun i => and_congr_left fun bad => ⟨fun h => by omega, fun h => ?_⟩
    have : i ≠ ⟨n, hn⟩ := fun e => by rw [e, nothing] at bad; cases bad
    have : i.val ≠ n := fun e => this (Fin.ext e)
    omega

/-- One with bad bounds is written BAD. -/
theorem State.Passed.spoils (bad : s.unusable ⟨n, hn⟩ = true) : s.Passed (u.spoiled (s.turn ⟨n, hn⟩)) (n + 1) := by
  refine ⟨passed.filling, passed.cursor, fun j => ?_, fun k j h1 h2 => ?_, iff_of_true (journal_bit_set _) (.inr ⟨_, Nat.lt_succ_self n, bad⟩)⟩
  · by_cases here : j = ⟨n, hn⟩
    · rw [here, State.spoiled_state, if_pos (Nat.lt_succ_self n), State.passedState, bad]
      rfl
    · have far : s.turn j ≠ s.turn ⟨n, hn⟩ := fun e => here (State.turn_inj e)
      have differs : j.val ≠ n := fun e => here (Fin.ext e)
      refine (u.spoiled_byte _ _ 0 (by decide) (.inl far)).trans ((passed.states j).trans ?_)
      by_cases h : j.val < n
      · rw [if_pos h, if_pos (by omega)]
      · rw [if_neg h, if_neg (by omega)]
  · exact (u.spoiled_byte _ _ j h2 (.inr h1)).trans (passed.fields k j h1 h2)

/-- A usable one is taken up. -/
theorem State.Passed.takes : s.TakenUp (u.taken (s.turn ⟨n, hn⟩)) ⟨n, hn⟩ where
  cursor := rfl
  filling := by
    show some _ = some _
    rw [passed.fields _ 1 (by decide) (by decide), passed.capacity, passed.offset]
  state := u.taken_state _
  count := u.taken_count _
  minute := u.taken_minute _
  before j hj := by
    have far : s.turn j ≠ s.turn ⟨n, hn⟩ := fun e => absurd (State.turn_inj e) hj.ne
    exact (u.taken_byte _ _ 0 (by decide) (.inl far)).trans ((passed.states j).trans (if_pos hj))
  after j hj := by
    have far : s.turn j ≠ s.turn ⟨n, hn⟩ := fun e => absurd (State.turn_inj e) hj.ne'
    exact (u.taken_byte _ _ 0 (by decide) (.inl far)).trans ((passed.states j).trans (if_neg (Nat.not_lt.2 (le_of_lt hj))))
  fields k j h := (u.taken_byte _ k j (by omega) (.inr h)).trans (passed.fields k j (by omega) (by omega))
  cause := passed.cause
end

theorem State.Swept.step {s u : State} {n : Nat} (h : s.Swept u n) (hn : n < 4) : s.Swept (u.searchAt (s.turn ⟨n, hn⟩)) (n + 1) := by
  obtain none_ | ⟨i, hi, takes⟩ := s.first_usable n
  · have passed := h.1 none_
    rw [State.searchAt_eq passed.filling, passed.armed hn, passed.boundsGood]
    cases armed : s.armed (s.turn ⟨n, hn⟩) with
    | false =>
      have unused : s.usable ⟨n, hn⟩ = false := by unfold State.usable; rw [armed]; rfl
      rw [if_neg nofun]
      refine ⟨fun _ => passed.skips hn armed, fun i hi takes => ?_⟩
      obtain before | here := Nat.lt_succ_iff_lt_or_eq.1 hi
      · exact absurd takes.1 (by rw [none_ i before]; nofun)
      · obtain rfl : i = ⟨n, hn⟩ := Fin.ext here
        exact absurd takes.1 (by rw [unused]; nofun)
    | true =>
      rw [if_pos rfl]
      cases good : s.boundsGood (s.turn ⟨n, hn⟩) with
      | false =>
        have unused : s.usable ⟨n, hn⟩ = false := by unfold State.usable; rw [armed, good]; rfl
        have bad : s.unusable ⟨n, hn⟩ = true := by unfold State.unusable; rw [armed, good]; rfl
        rw [if_neg nofun]
        refine ⟨fun _ => passed.spoils hn bad, fun i hi takes => ?_⟩
        obtain before | here := Nat.lt_succ_iff_lt_or_eq.1 hi
        · exact absurd takes.1 (by rw [none_ i before]; nofun)
        · obtain rfl : i = ⟨n, hn⟩ := Fin.ext here
          exact absurd takes.1 (by rw [unused]; nofun)
      | true =>
        have usable : s.usable ⟨n, hn⟩ = true := by unfold State.usable; rw [armed, good]; rfl
        rw [if_pos rfl]
        refine ⟨fun free => absurd usable (by rw [free _ (Nat.lt_succ_self n)]; nofun), fun i hi takes => ?_⟩
        obtain before | here := Nat.lt_succ_iff_lt_or_eq.1 hi
        · exact absurd takes.1 (by rw [none_ i before]; nofun)
        · obtain rfl : i = ⟨n, hn⟩ := Fin.ext here
          exact passed.takes hn
  · have first := h.2 i hi takes
    rw [State.searchAt_busy (by rw [first.filling]; nofun)]
    refine ⟨fun free => absurd takes.1 (by rw [free i (by omega)]; nofun), fun k hk other => ?_⟩
    obtain rfl : k = i := by
      obtain lt | eq | gt := lt_trichotomy k i
      · exact absurd other.1 (by rw [takes.2 k lt]; nofun)
      · exact eq
      · exact absurd takes.1 (by rw [other.2 i gt]; nofun)
    exact first

theorem State.swept_search {s : State} (free : s.journal.filling = none) (queued : s.journal.queue ≠ []) : s.Swept s.search 4 := by
  have turns (i j : Fin 4) (h : i = 1 + j) : s.journal.cursor + i = s.turn j := by
    rw [h, ← add_assoc]
    rfl
  have swept := ((((State.swept_zero free).step (by decide)).step (by decide)).step (by decide)).step (by decide)
  have last : s.journal.cursor = s.turn 3 := (add_zero s.journal.cursor).symm.trans (turns 0 3 (by decide))
  have run : s.search = (((s.searchAt (s.turn 0)).searchAt (s.turn 1)).searchAt (s.turn 2)).searchAt (s.turn 3) := by
    unfold State.search
    rw [if_neg (by rw [free]; rintro (h | h); · cases h
                   · exact queued h)]
    dsimp only
    rw [turns 1 0 (by decide), turns 2 1 (by decide), turns 3 2 (by decide), ← last]
  rw [run]
  exact swept

/-- The statement's words for a search are the unit's, the queue's growth apart (R160, R165). -/
theorem State.Swept.looksFor {s t : State} (h : s.Swept t 4) : s.LooksFor t ∧
    (∀ (k : Fin 4) (j : Fin 16), (1 ≤ j.val ∧ j.val ≤ 5) ∨ (8 ≤ j.val ∧ j.val ≤ 11) →
      t.byte (descriptorPlace k + j.val) = s.byte (descriptorPlace k + j.val)) ∧
    (t.cause.getLsbD 1 = true ↔ s.cause.getLsbD 1 = true ∨ ∃ i : Fin 4, s.unusable i = true ∧ ∀ j, j < i → s.usable j = false) := by
  obtain ⟨open_, taken⟩ := h
  refine ⟨⟨fun i takes => ?_, fun free => ?_⟩, ?_⟩
  · obtain ⟨cursor, filling, state, count, minute, before, after, -, -⟩ := taken i i.isLt takes
    exact ⟨cursor, filling, state, count, minute, before, after⟩
  · obtain ⟨filling, cursor, states, -, -⟩ := open_ fun i _ => free i
    exact ⟨cursor, filling, fun j => (states j).trans (if_pos j.isLt)⟩
  · obtain none_ | ⟨i, hi, takes⟩ := s.first_usable 4
    · obtain ⟨-, -, -, fields, cause⟩ := open_ none_
      refine ⟨fun k j hj => fields k j (by omega) j.isLt, cause.trans (or_congr_right ⟨fun ⟨i, _, bad⟩ => ⟨i, bad, fun j _ => none_ j j.isLt⟩,
        fun ⟨i, bad, _⟩ => ⟨i, i.isLt, bad⟩⟩)⟩
    · obtain ⟨-, -, -, -, -, -, -, fields, cause⟩ := taken i hi takes
      refine ⟨fun k j hj => fields k j hj, cause.trans (or_congr_right ⟨fun ⟨j, lt, bad⟩ => ⟨j, bad, fun k hk => takes.2 k (hk.trans lt)⟩,
        fun ⟨j, bad, first⟩ => ⟨j, ?_, bad⟩⟩)⟩
      obtain lt | eq | gt := lt_trichotomy j i
      · exact lt
      · rw [eq] at bad
        have good := takes.1
        unfold State.usable at good
        unfold State.unusable at bad
        simp_all
      · exact absurd takes.1 (by rw [first i gt]; nofun)

end Sys2Proof.Machine

namespace Sys2Proof.Machine

open Sys2Proof

/-! ## What work does to the search for a descriptor (R160, R165) -/

theorem ofDescriptors_place (k : Fin 4) {j : Nat} (h : j < 16) : ofDescriptors (descriptorPlace k + j) := by
  unfold ofDescriptors descriptorPlace
  omega

theorem State.NoSearch.refl (s : State) : s.NoSearch s := ⟨rfl, rfl, rfl, fun _ _ => rfl⟩

theorem State.NoSearch.trans {s t u : State} (h : s.NoSearch t) (h' : t.NoSearch u) : s.NoSearch u := by
  obtain ⟨filling, cursor, cause, bytes⟩ := h
  obtain ⟨filling', cursor', cause', bytes'⟩ := h'
  exact ⟨filling'.trans filling, cursor'.trans cursor, cause'.trans cause, fun x hx => (bytes' x hx).trans (bytes x hx)⟩

/-- Work outside the descriptors that leaves the journal's search alone is none. -/
theorem State.KeepsBytes.noSearch {s t : State} {part : Nat → Prop} (bytes : s.KeepsBytes t part) (far : ∀ x, part x → ¬ofDescriptors x)
    (filling : t.journal.filling = s.journal.filling) (cursor : t.journal.cursor = s.journal.cursor)
    (cause : t.cause.getLsbD 1 = s.cause.getLsbD 1) : s.NoSearch t :=
  ⟨filling, cursor, cause, fun x hx => bytes x fun hp => far x hp hx⟩

section
variable {s t : State} (h : s.NoSearch t)
include h

theorem State.NoSearch.turn : t.turn = s.turn := by
  funext i
  unfold State.turn
  rw [h.2.1]

theorem State.NoSearch.byte (k : Fin 4) {j : Nat} (hj : j < 16) : t.byte (descriptorPlace k + j) = s.byte (descriptorPlace k + j) :=
  h.2.2.2 _ (ofDescriptors_place k hj)

theorem State.NoSearch.field (k : Fin 4) {i n : Nat} (hi : i + n ≤ 16) : t.field (descriptorPlace k + i) n = s.field (descriptorPlace k + i) n :=
  State.field_congr fun x h1 h2 => by
    obtain ⟨j, rfl⟩ : ∃ j, x = descriptorPlace k + j := ⟨x - descriptorPlace k, by omega⟩
    exact h.byte k (by omega)

theorem State.NoSearch.armed : t.armed = s.armed := by
  funext k
  unfold State.armed
  rw [show t.byte (descriptorPlace k) = _ from h.byte k (j := 0) (by decide)]
  rfl

theorem State.NoSearch.capacityAt : t.capacityAt = s.capacityAt := funext fun k => h.field k (by decide)

theorem State.NoSearch.offsetAt : t.offsetAt = s.offsetAt := funext fun k => h.field k (by decide)

theorem State.NoSearch.boundsGood : t.boundsGood = s.boundsGood := by
  funext k
  unfold State.boundsGood
  rw [h.capacityAt, h.offsetAt]

theorem State.NoSearch.usable : t.usable = s.usable := by
  funext i
  unfold State.usable
  rw [h.armed, h.boundsGood, h.turn]

theorem State.NoSearch.unusable : t.unusable = s.unusable := by
  funext i
  unfold State.unusable
  rw [h.armed, h.boundsGood, h.turn]

theorem State.NoSearch.state (k : Fin 4) : t.byte (descriptorPlace k) = s.byte (descriptorPlace k) := h.byte k (j := 0) (by decide)

theorem State.NoSearch.passedState : t.passedState = s.passedState := by
  funext j
  unfold State.passedState
  rw [h.unusable, h.turn, h.state]

/-- A search after none is a search from the start. -/
theorem State.NoSearch.looksFor {u : State} (l : t.LooksFor u) : s.LooksFor u := by
  obtain ⟨taken, open_⟩ := l
  refine ⟨fun i takes => ?_, fun free => ?_⟩
  · obtain ⟨cursor, filling, state, count, minute, before, after⟩ := taken i (by unfold State.takesUp at takes ⊢; rwa [h.usable])
    rw [h.turn] at cursor filling state count minute before after
    refine ⟨cursor, ?_, state, count, minute, fun j hj => (before j hj).trans (congrFun h.passedState j), fun j hj => (after j hj).trans (h.state _)⟩
    rw [filling, h.byte _ (by decide), h.capacityAt, h.offsetAt]
  · obtain ⟨cursor, filling, states⟩ := open_ (by rwa [h.usable])
    rw [h.turn] at states
    exact ⟨cursor.trans h.2.1, filling, fun j => (states j).trans (congrFun h.passedState j)⟩

theorem State.NoSearch.searches {u : State} (queue : t.journal.queue = s.journal.queue) (l : t.Searches u) : s.Searches u := by
  obtain ⟨looks, fields, cause⟩ := l
  refine ⟨h.looksFor looks, fun k j hj => (fields k j hj).trans (h.byte k j.isLt), ?_⟩
  rwa [h.2.2.1, h.usable, h.unusable, queue] at cause
end

/-- Nothing after a search undoes it. -/
theorem State.LooksFor.noSearch {s t u : State} (l : s.LooksFor t) (h : t.NoSearch u) : s.LooksFor u := by
  obtain ⟨taken, open_⟩ := l
  refine ⟨fun i takes => ?_, fun free => ?_⟩
  · obtain ⟨cursor, filling, state, count, minute, before, after⟩ := taken i takes
    exact ⟨h.2.1.trans cursor, h.1.trans filling, (h.state _).trans state, (h.field _ (by decide)).trans count,
      (h.field _ (by decide)).trans minute, fun j hj => (h.state _).trans (before j hj), fun j hj => (h.state _).trans (after j hj)⟩
  · obtain ⟨cursor, filling, states⟩ := open_ free
    exact ⟨h.2.1.trans cursor, h.1.trans filling, fun j => (h.state _).trans (states j)⟩

theorem State.Searches.noSearch {s t u : State} (l : s.Searches t) (h : t.NoSearch u)
    (queue : t.journal.filling ≠ none ∨ u.journal.queue = t.journal.queue) : s.Searches u := by
  obtain ⟨looks, fields, cause⟩ := l
  refine ⟨looks.noSearch h, fun k j hj => (h.byte k j.isLt).trans (fields k j hj), ?_⟩
  rw [h.2.2.1, cause, h.1]
  obtain busy | same := queue
  · exact or_congr_right (or_congr_right (by simp only [busy, false_and]))
  · rw [same]

/-- A search that has found nothing leaves nothing ARMED, so a later one finds nothing and writes nothing. -/
theorem State.LooksFor.unarmed {s t : State} (l : s.LooksFor t) (free : t.journal.filling = none) :
    (∀ i, s.usable i = false) ∧ t.turn = s.turn ∧ ∀ k, t.armed k = false := by
  have none_ (i : Fin 4) : s.usable i = false := by
    obtain none_ | ⟨i, -, takes⟩ := s.first_usable 4
    · exact none_ i i.isLt
    · have filling := (l.1 i takes).2.1
      rw [free] at filling
      cases filling
  obtain ⟨cursor, -, states⟩ := l.2 none_
  refine ⟨none_, by funext i; unfold State.turn; rw [cursor], fun k => ?_⟩
  obtain ⟨j, rfl⟩ := s.turn_surj k
  unfold State.armed
  rw [states j, State.passedState]
  have not_usable := none_ j
  unfold State.usable at not_usable
  split
  · decide
  · next good =>
    unfold State.unusable at good
    unfold State.armed at not_usable good
    cases a : decide (s.byte (descriptorPlace (s.turn j)) = 1) with
    | false => rfl
    | true => simp_all

/-- A second search, after one that has found nothing. -/
theorem State.Searches.again {s t u : State} (l : s.Searches t) (free : t.journal.filling = none) (l' : t.Searches u)
    (grows : s.journal.queue <+: t.journal.queue) (grows' : t.journal.queue <+: u.journal.queue) : s.Searches u := by
  obtain ⟨looks, fields, cause⟩ := l
  obtain ⟨looks', fields', cause'⟩ := l'
  obtain ⟨none_, turn, idle⟩ := looks.unarmed free
  have usable (i : Fin 4) : t.usable i = false := by unfold State.usable; rw [idle]; rfl
  have unusable (i : Fin 4) : t.unusable i = false := by unfold State.unusable; rw [idle]; rfl
  obtain ⟨cursor, -, states⟩ := looks.2 none_
  obtain ⟨cursor', free', states'⟩ := looks'.2 usable
  refine ⟨⟨fun i takes => absurd takes.1 (by rw [none_]; nofun), fun _ => ⟨cursor'.trans cursor, free', fun j => ?_⟩⟩,
    fun k j hj => (fields' k j hj).trans (fields k j hj), ?_⟩
  · have kept := states' j
    rw [State.passedState, unusable, turn, if_neg nofun] at kept
    exact kept.trans (states j)
  · have bad : ¬∃ i : Fin 4, t.unusable i = true ∧ ∀ j, j < i → t.usable j = false := fun ⟨i, h, _⟩ => by
      rw [unusable] at h
      cases h
    have le := grows.length_le
    have le' := grows'.length_le
    rw [cause', cause, free, free', or_assoc, or_assoc]
    refine or_congr_right (or_congr_right ?_)
    simp only [bad, true_and, false_or]
    omega

/-- How work stands to the search: the queue grows; with a descriptor FILLING no search is made; otherwise one is made as soon as an entry
comes, and none before. -/
structure State.Sought (s t : State) : Prop where
  grows : s.journal.queue <+: t.journal.queue
  busy : s.journal.filling ≠ none → s.NoSearch t
  free : s.journal.filling = none → (s.NoSearch t ∧ t.journal.queue = s.journal.queue) ∨ (t.journal.queue ≠ [] ∧ s.Searches t)

theorem State.NoSearch.sought {s t : State} (h : s.NoSearch t) (queue : t.journal.queue = s.journal.queue) : s.Sought t :=
  ⟨by rw [queue], fun _ => h, fun _ => .inl ⟨h, queue⟩⟩

theorem State.Sought.refl (s : State) : s.Sought s := (State.NoSearch.refl s).sought rfl

/-- A search made stays made. -/
theorem State.Searches.sought {s t u : State} (l : s.Searches t) (grows : s.journal.queue <+: t.journal.queue) (h : t.Sought u) :
    s.Searches u := by
  by_cases open_ : t.journal.filling = none
  · obtain ⟨none_, queue⟩ | ⟨-, again⟩ := h.free open_
    · exact l.noSearch none_ (.inr queue)
    · exact l.again open_ again grows h.grows
  · exact l.noSearch (h.busy open_) (.inl open_)

theorem State.Sought.trans {s t u : State} (h : s.Sought t) (h' : t.Sought u) : s.Sought u := by
  have grows := h.grows.trans h'.grows
  refine ⟨grows, fun busy => ?_, fun free => ?_⟩
  · have none_ := h.busy busy
    exact none_.trans (h'.busy (by rwa [none_.1]))
  · obtain ⟨none_, queue⟩ | ⟨queued, searches⟩ := h.free free
    · obtain ⟨none_', queue'⟩ | ⟨queued', searches'⟩ := h'.free (none_.1.trans free)
      · exact .inl ⟨none_.trans none_', queue'.trans queue⟩
      · exact .inr ⟨queued', none_.searches queue searches'⟩
    · have still : u.journal.queue ≠ [] := fun e => queued (List.prefix_nil.1 (e ▸ h'.grows))
      exact .inr ⟨still, searches.sought h.grows h'⟩

/-! ### Each act -/

theorem State.search_idle {s : State} (h : s.journal.filling ≠ none ∨ s.journal.queue = []) : s.search = s := by
  unfold State.search
  rw [if_pos (h.imp_left Option.isSome_iff_ne_none.2)]

theorem State.search_queue (s : State) : s.search.journal.queue = s.journal.queue := (congrArg Books.queue s.search_books :)

/-- A search made where one is due is what the statement calls one. -/
theorem State.searches_search {s : State} (free : s.journal.filling = none) (queued : s.journal.queue ≠ []) : s.Searches s.search := by
  obtain ⟨looks, fields, cause⟩ := (State.swept_search free queued).looksFor
  refine ⟨looks, fields, ?_⟩
  rw [cause, s.search_queue]
  exact or_congr_right (or_iff_left fun ⟨_, short, long⟩ => absurd long (by omega)).symm

theorem State.sought_search (s : State) : s.Sought s.search := by
  by_cases idle : s.journal.filling ≠ none ∨ s.journal.queue = []
  · rw [State.search_idle idle]
    exact .refl s
  · obtain ⟨free, queued⟩ := not_or.1 idle
    exact ⟨by rw [s.search_queue], fun busy => absurd busy free,
      fun _ => .inr ⟨by rwa [s.search_queue], State.searches_search (not_not.1 free) queued⟩⟩

theorem State.sought_rewriteSite (s : State) : s.Sought s.rewriteSite :=
  (s.keepsBytes_rewriteSite.noSearch (fun x hx hd => by unfold ofSiteMirror at hx; unfold ofDescriptors at hd; omega) rfl rfl rfl).sought rfl

/-- The entry joins the queue, and an alarm sets its cause. -/
def State.joined (s : State) (q : Request) : State :=
  let j := { s.journal with queue := s.journal.queue ++ [s.entryOf q], sequence := (s.journal.sequence + 1) % 65536 }
  if q.kind.isAlarm then ({ s with journal := j } : State).setCause causeAlarm else { s with journal := j }

theorem State.joined_noSearch (s : State) (q : Request) : s.NoSearch (s.joined q) := by
  unfold State.joined
  dsimp only
  split
  · refine ⟨rfl, rfl, ?_, fun _ _ => rfl⟩
    show (s.cause ||| causeAlarm).getLsbD 1 = _
    simp [causeAlarm]
  · exact ⟨rfl, rfl, rfl, fun _ _ => rfl⟩

theorem State.joined_queue (s : State) (q : Request) : (s.joined q).journal.queue = s.journal.queue ++ [s.entryOf q] := by
  unfold State.joined
  dsimp only
  split <;> rfl

theorem State.admitOne_eq (s : State) (q : Request) : s.admitOne q =
    if s.journal.queue.length + 1 = 16 ∧ (s.joined q).search.journal.filling.isNone then (s.joined q).search.setCause causeJournal
    else (s.joined q).search := rfl

theorem State.admitOne_queue (s : State) (q : Request) : (s.admitOne q).journal.queue = s.journal.queue ++ [s.entryOf q] := by
  rw [s.admitOne_eq, ← s.joined_queue q, ← (s.joined q).search_queue]
  split <;> rfl

theorem State.sought_admitOne (s : State) (q : Request) : s.Sought (s.admitOne q) := by
  have queue := s.admitOne_queue q
  have joined := s.joined_noSearch q
  have queued : (s.joined q).journal.queue ≠ [] := by rw [s.joined_queue]; exact List.concat_ne_nil _ _
  refine ⟨queue ▸ List.prefix_append _ _, fun busy => ?_, fun free => .inr ⟨queue ▸ List.concat_ne_nil _ _, ?_⟩⟩
  · have still : (s.joined q).journal.filling ≠ none := by rwa [joined.1]
    rw [s.admitOne_eq, State.search_idle (.inl still), if_neg fun h => still (Option.isNone_iff_eq_none.1 h.2)]
    exact joined
  · obtain ⟨looks, fields, cause⟩ := (State.swept_search (joined.1.trans free) queued).looksFor
    have looks := joined.looksFor looks
    have fields := fun k (j : Fin 16) hj => (fields k j hj).trans (joined.byte k j.isLt)
    rw [joined.2.2.1, joined.usable, joined.unusable] at cause
    unfold State.Searches
    rw [queue, List.length_append, List.length_singleton, s.admitOne_eq]
    generalize (s.joined q).search = u at looks fields cause
    by_cases long : s.journal.queue.length + 1 = 16 ∧ u.journal.filling.isNone
    · rw [if_pos long]
      exact ⟨looks, fields, iff_of_true (journal_bit_set _) (.inr (.inr ⟨Option.isNone_iff_eq_none.1 long.2, by omega, by omega⟩))⟩
    · rw [if_neg long]
      refine ⟨looks, fields, cause.trans (or_congr_right (or_iff_left fun ⟨none_, h1, h2⟩ => long ⟨by omega, ?_⟩).symm)⟩
      exact Option.isNone_iff_eq_none.2 none_

theorem State.sought_admitRequest (s : State) (q : Request) : s.Sought (s.admitRequest q) := by
  have gap : s.Sought s.admitGap := by
    unfold State.admitGap
    dsimp only
    split
    · exact State.Sought.trans (t := { s with journal := { s.journal with gap := 0 } })
        (State.NoSearch.sought ⟨rfl, rfl, rfl, fun _ _ => rfl⟩ rfl) (State.sought_admitOne _ _)
    · exact .refl s
  have take : s.Sought (s.takeRequest q) := by
    unfold State.takeRequest
    dsimp only
    split
    · exact gap.trans (State.sought_admitOne _ _)
    · exact gap.trans (State.NoSearch.sought ⟨rfl, rfl, rfl, fun _ _ => rfl⟩ rfl)
  unfold State.admitRequest
  dsimp only
  split
  · exact take
  · exact take.trans (State.sought_rewriteSite _)

theorem ofResult_not_ofDescriptors {b : Fin 16} {x : Nat} (h : ofResult b x) : ¬ofDescriptors x := fun hd => by
  have := ofResult_lt h
  unfold ofDescriptors at hd
  omega

theorem State.sought_complete (s : State) (b : Fin 16) (res : Result) (data : List Byte) : s.Sought (s.complete b res data) := by
  refine ((s.keepsBytes_complete b res data).noSearch (fun x => ofResult_not_ofDescriptors) rfl rfl ?_).sought rfl
  show (s.cause ||| causeOrderDone).getLsbD 1 = _
  simp [causeOrderDone]

variable {w : Breadth}

theorem State.Act.sought {s t : State} (h : State.Act w s t) : s.Sought t := by
  cases h with
  | records => exact State.NoSearch.sought ⟨rfl, rfl, rfl, fun _ _ => rfl⟩ rfl
  | site => exact s.sought_rewriteSite
  | room r =>
    exact ((s.keepsBytes_rewriteRoom r).noSearch (fun x hx hd => by unfold ofRoomMirror at hx; unfold ofDescriptors at hd; omega) rfl rfl rfl).sought rfl
  | drop l a =>
    exact ((s.keepsBytes_rewriteDrop l a).noSearch (fun x hx hd => by unfold ofDropMirror at hx; unfold ofDescriptors at hd; omega) rfl rfl rfl).sought rfl
  | request q => exact s.sought_admitRequest q
  | search => exact s.sought_search
  | complete b res data => exact s.sought_complete b res data
  | block b st => exact ((s.keepsBytes_setBlockState b st).noSearch (fun x => ofResult_not_ofDescriptors) rfl rfl rfl).sought rfl

/-- Whatever work is done, a search is made when an entry comes and nothing is FILLING, and no other (R160). -/
theorem State.Work.sought {s t : State} (h : State.Work w s t) : s.Sought t :=
  h.lift (fun _ => .refl _) (fun _ _ _ a b => a.trans b) fun _ _ a => a.sought

/-- Work that holds a search leaves what the statement says of the search (R160, R165). -/
theorem State.Sought.searched {s u t : State} (before : s.Sought u) (after : u.search.Sought t) :
    (s.journal.filling = none → t.journal.queue ≠ [] → s.Searches t) ∧
    (s.journal.filling ≠ none ∨ t.journal.queue = [] → s.NoSearch t) := by
  have sought := (before.trans u.sought_search).trans after
  refine ⟨fun free queued => ?_, fun h => ?_⟩
  · obtain ⟨-, same⟩ | ⟨-, searches⟩ := sought.free free
    · obtain ⟨still, queue⟩ | ⟨-, searches⟩ := before.free free
      · have here : u.journal.queue ≠ [] := by rwa [queue, ← same]
        refine (still.searches queue (State.searches_search (still.1.trans free) here)).sought ?_ after
        rw [u.search_queue, queue]
      · exact searches.sought before.grows (u.sought_search.trans after)
    · exact searches
  · by_cases free : s.journal.filling = none
    · obtain ⟨none_, -⟩ | ⟨queued, -⟩ := sought.free free
      · exact none_
      · exact absurd (h.resolve_left (not_not_intro free)) queued
    · exact sought.busy free

end Sys2Proof.Machine

namespace Sys2Proof.Machine

open Sys2Proof

/-! ## The doors in a second (R64, R67) -/

/-- A door-side record after a second: the grant deadline and the held count. -/
def DoorSide.ticked (limit : Nat) (d : DoorSide) : DoorSide :=
  let count := if d.timer then min (d.heldCount + 1) 65535 else d.heldCount
  let ends : Prop := d.deadline = some 0 ∨ d.deadline = some 1
  { d with
    deadline := if ends then none else d.deadline.map (· - 1)
    latch := if ends ∧ d.latch = .granted ∧ d.pending = none then .latched else d.latch
    heldCount := count
    alarm := d.alarm || (d.timer && decide (limit ≤ count)) }

/-- The held count's part of a second at a door (R67). -/
def DoorSide.counted (limit : Nat) (d : DoorSide) : DoorSide :=
  let count := if d.timer then min (d.heldCount + 1) 65535 else d.heldCount
  { d with heldCount := count, alarm := d.alarm || (d.timer && decide (limit ≤ count)) }

theorem DoorSide.tickDeadline_eq (d : DoorSide) : d.tickDeadline = { d with
    deadline := if d.deadline = some 0 ∨ d.deadline = some 1 then none else d.deadline.map (· - 1)
    latch := if (d.deadline = some 0 ∨ d.deadline = some 1) ∧ d.latch = .granted ∧ d.pending = none then .latched else d.latch } := by
  obtain ⟨leaf, bolt, latch, deadline, timer, heldCount, alarm, pending⟩ := d
  unfold DoorSide.tickDeadline
  cases deadline with
  | none => simp
  | some n =>
    have last : (some n = some 0 ∨ some n = some 1) ↔ n ≤ 1 := by
      rw [Option.some_inj, Option.some_inj]
      omega
    dsimp only
    by_cases h : n ≤ 1
    · simp only [last, h, true_and, if_true, Option.isNone_iff_eq_none]
    · simp only [last, h, false_and, if_false, Option.map_some]

theorem DoorSide.counted_tickDeadline (limit : Nat) (d : DoorSide) : d.tickDeadline.counted limit = d.ticked limit := by
  rw [d.tickDeadline_eq]
  rfl

/-- A drop whose door-side record, if it has one, is written. -/
def Drop.onDoor (g : DoorSide → DoorSide) (d : Drop) : Drop := { d with door := d.door.map g }

theorem Drop.onDoor_none {d : Drop} (h : d.door = none) (g : DoorSide → DoorSide) : d.onDoor g = d := by
  unfold Drop.onDoor
  rw [h, Option.map_none, ← h]

theorem Drop.onDoor_some {d : Drop} {x : DoorSide} (h : d.door = some x) (g : DoorSide → DoorSide) : d.onDoor g = { d with door := some (g x) } := by
  unfold Drop.onDoor
  rw [h, Option.map_some]

theorem Drop.onDoor_onDoor (d : Drop) (g h : DoorSide → DoorSide) : (d.onDoor g).onDoor h = d.onDoor (h ∘ g) :=
  congrArg (fun x => { d with door := x }) (Option.map_map h g d.door)

/-- The held timer's part of a second reaches one record alone (R67). -/
theorem State.tickHeld_spec (s : State) (l : Fin 2) (a : Fin 64) :
    s.OnLines (s.tickHeld l a) ∧ (∀ p, p ≠ (l, a) → (s.tickHeld l a).view p = s.view p) ∧
    (s.tickHeld l a).drop l a = (s.drop l a).onDoor (DoorSide.counted s.site.heldLimit) := by
  unfold State.tickHeld
  cases hd : (s.drop l a).door with
  | none => exact ⟨.refl s, fun _ _ => rfl, (Drop.onDoor_none hd _).symm⟩
  | some d =>
    dsimp only
    rw [Drop.onDoor_some hd]
    have put (x : DoorSide) (h : x = d.counted s.site.heldLimit) : s.OnLines (s.putDoor l a (some x)) ∧
        (∀ p, p ≠ (l, a) → (s.putDoor l a (some x)).view p = s.view p) ∧
        (s.putDoor l a (some x)).drop l a = { s.drop l a with door := some (d.counted s.site.heldLimit) } :=
      ⟨s.onLines_putDoor l a _, fun p hp => s.view_putDoor_other _ hp, by rw [s.putDoor_drop, h]⟩
    by_cases timer : d.timer = true
    · rw [if_neg (by simp [timer])]
      by_cases limit : s.site.heldLimit ≤ min (d.heldCount + 1) 65535 ∧ d.alarm = false
      · rw [if_pos (by simpa using limit)]
        obtain ⟨onLines, others, drop⟩ := put { d with heldCount := min (d.heldCount + 1) 65535, alarm := true }
          (by unfold DoorSide.counted; simp only [timer, limit.1, if_true, decide_true, Bool.and_true, Bool.or_true])
        have entered : ∀ u : State, u.OnLines (u.doorEntry l a .doorHeld s.site.heldLimit) ∧
            (u.doorEntry l a .doorHeld s.site.heldLimit).lines = u.lines := fun u =>
          ⟨u.onLines_admitRequest _, State.records_lines (u.admitRequest_records _)⟩
        generalize s.putDoor l a _ = u at *
        obtain ⟨entry, lines⟩ := entered u
        refine ⟨onLines.trans entry, fun p hp => (State.view_of_lines lines p).trans (others p hp), ?_⟩
        rw [← drop]
        exact congrArg Prod.fst (State.view_of_lines lines (l, a))
      · rw [if_neg (by simpa using limit)]
        refine put { d with heldCount := min (d.heldCount + 1) 65535 } ?_
        have alarm : (d.alarm || decide (s.site.heldLimit ≤ min (d.heldCount + 1) 65535)) = d.alarm := by
          cases ha : d.alarm with
          | true => rfl
          | false => exact decide_eq_false fun h => limit ⟨h, ha⟩
        unfold DoorSide.counted
        simp only [timer, if_true, Bool.true_and, alarm]
    · rw [Bool.not_eq_true] at timer
      rw [if_pos (by simp [timer])]
      have same : d.counted s.site.heldLimit = d := by
        obtain ⟨leaf, bolt, latch, deadline, pending, heldCount, runs, alarm⟩ := d
        obtain rfl : runs = false := timer
        unfold DoorSide.counted
        simp
      rw [same, ← hd]
      exact ⟨.refl s, fun _ _ => rfl, rfl⟩

theorem State.tickGrant_spec (s : State) (l : Fin 2) (a : Fin 64) :
    s.OnLines (s.tickGrant l a) ∧ (∀ p, p ≠ (l, a) → (s.tickGrant l a).view p = s.view p) ∧
    (s.tickGrant l a).drop l a = (s.drop l a).onDoor DoorSide.tickDeadline := by
  unfold State.tickGrant
  split
  · next h => exact ⟨.refl s, fun _ _ => rfl, (Drop.onDoor_none h _).symm⟩
  · next d h => exact ⟨s.onLines_putDoor l a _, fun p hp => s.view_putDoor_other _ hp, (s.putDoor_drop l a _).trans (Drop.onDoor_some h _).symm⟩

/-- A second at one door reaches its record alone. -/
theorem State.tickDoor_spec (s : State) (p : Fin 2 × Fin 64) :
    s.OnLines (s.tickDoor p) ∧ (∀ k, k ≠ p → (s.tickDoor p).view k = s.view k) ∧
    (s.tickDoor p).drop p.1 p.2 = (s.drop p.1 p.2).onDoor (DoorSide.ticked s.site.heldLimit) := by
  obtain ⟨grantLines, grantOthers, granted⟩ := s.tickGrant_spec p.1 p.2
  obtain ⟨heldLines, heldOthers, held⟩ := (s.tickGrant p.1 p.2).tickHeld_spec p.1 p.2
  have run : s.tickDoor p = (s.tickGrant p.1 p.2).tickHeld p.1 p.2 := rfl
  rw [run]
  refine ⟨grantLines.trans heldLines, fun k hk => (heldOthers k hk).trans (grantOthers k hk), ?_⟩
  rw [held, granted, grantLines.site, Drop.onDoor_onDoor]
  exact congrArg (fun g => (s.drop p.1 p.2).onDoor g) (funext fun d => d.counted_tickDeadline _)

/-- Every door after its second. -/
theorem State.tickDoors_spec (s : State) (inv : s.BindingInv) :
    s.OnLines (allDrops.foldl State.tickDoor s) ∧ ∀ l a,
      (allDrops.foldl State.tickDoor s).drop l a = (s.drop l a).onDoor (DoorSide.ticked s.site.heldLimit) := by
  have step (u : State) (p : Fin 2 × Fin 64) (hu : s.OnLines u) : s.OnLines (u.tickDoor p) := hu.trans (u.tickDoor_spec p).1
  have far (u : State) (p k : Fin 2 × Fin 64) (_ : s.OnLines u) (hk : k ≠ p) : (u.tickDoor p).view k = u.view k := (u.tickDoor_spec p).2.1 k hk
  refine ⟨foldl_keeps step allDrops (.refl s), fun l a => ?_⟩
  by_cases ha : a = 0
  · have kept := foldl_skips (look := State.view) step far (s := s) (.refl s) (k := (l, a)) fun h => (mem_allDrops l a).1 h ha
    have doorless : (s.drop l a).door = none := Drop.doorless inv fun b hb => by rw [ha, inv.1 l] at hb; cases hb
    rw [Drop.onDoor_none doorless]
    generalize allDrops.foldl State.tickDoor s = t at kept
    exact congrArg Prod.fst kept
  · obtain ⟨u, hu, before, after⟩ := foldl_visits (look := State.view) step far allDrops_nodup (s := s) (.refl s) ((mem_allDrops l a).2 ha)
    have drop : u.drop l a = s.drop l a := congrArg Prod.fst before
    have ticked := (u.tickDoor_spec (l, a)).2.2
    rw [drop, hu.site] at ticked
    generalize allDrops.foldl State.tickDoor s = t at after
    exact (congrArg Prod.fst after).trans ticked

end Sys2Proof.Machine

namespace Sys2Proof.Machine

open Sys2Proof

/-! ## The minibars in a second (R110, R114) -/

/-- The binding and the door-side record of every drop stand. -/
def State.DoorsStand (s t : State) : Prop := ∀ l a, (t.drop l a).door = (s.drop l a).door ∧ (t.drop l a).binding = (s.drop l a).binding

theorem State.DoorsStand.of_lines {s t : State} (h : t.lines = s.lines) : s.DoorsStand t := fun l a => by
  unfold State.drop
  rw [h]
  exact ⟨rfl, rfl⟩

theorem State.DoorsStand.refl (s : State) : s.DoorsStand s := .of_lines rfl

theorem State.DoorsStand.trans {s t u : State} (h : s.DoorsStand t) (h' : t.DoorsStand u) : s.DoorsStand u :=
  fun l a => ⟨(h' l a).1.trans (h l a).1, (h' l a).2.trans (h l a).2⟩

theorem State.doorsStand_setOwed (s : State) (l : Fin 2) (a : Fin 64) (o : Option Owed) : s.DoorsStand (s.setOwed l a o) := fun k c => by
  by_cases h : (k, c) = (l, a)
  · obtain ⟨rfl, rfl⟩ := Prod.mk.inj h
    rw [s.setOwed_drop]
    exact ⟨rfl, rfl⟩
  · have kept : (s.setOwed l a o).drop k c = s.drop k c := s.drop_setDrop_other _ h
    rw [kept]
    exact ⟨rfl, rfl⟩

theorem State.doorsStand_setQueue (s : State) (l : Fin 2) (q : List QMsg) : s.DoorsStand (s.setQueue l q) := fun k c => by
  rw [s.drop_setQueue]
  exact ⟨rfl, rfl⟩

/-- No drop bound to the room's minibar has a door-side record. -/
def State.Doorless (s : State) (r : Fin 48) : Prop := ∀ l a, (s.drop l a).binding = some (.minibar r) → (s.drop l a).door = none

theorem State.DoorsStand.doorless {s t : State} (h : s.DoorsStand t) {r : Fin 48} (none_ : s.Doorless r) : t.Doorless r := fun l a hb => by
  rw [(h l a).1]
  exact none_ l a ((h l a).2 ▸ hb)

/-- What a message to a minibar's drop can do beside taking its place on the line: an OPEN of the minibar may be lost by it (R140). -/
structure State.Asked (s t : State) (r : Fin 48) : Prop where
  doors : s.DoorsStand t
  rooms : t.rooms = s.rooms
  others : ∀ k, k ≠ r → t.minibars[k] = s.minibars[k]
  scanning : s.minibars[r].state = .scanning → ∃ g, t.minibars[r] = { s.minibars[r] with pending := g }

theorem State.Asked.refl (s : State) (r : Fin 48) : s.Asked s r := ⟨.refl s, rfl, fun _ _ => rfl, fun _ => ⟨_, rfl⟩⟩

theorem State.Asked.trans {s t u : State} {r : Fin 48} (h : s.Asked t r) (h' : t.Asked u r) : s.Asked u r where
  doors := h.doors.trans h'.doors
  rooms := h'.rooms.trans h.rooms
  others k hk := (h'.others k hk).trans (h.others k hk)
  scanning hs := by
    obtain ⟨g, e⟩ := h.scanning hs
    obtain ⟨g', e'⟩ := h'.scanning (by rw [e]; exact hs)
    exact ⟨g', by rw [e', e]⟩

theorem State.asked_setOwed (s : State) (l : Fin 2) (a : Fin 64) (o : Option Owed) (r : Fin 48) : s.Asked (s.setOwed l a o) r :=
  ⟨s.doorsStand_setOwed l a o, rfl, fun _ _ => rfl, fun _ => ⟨_, rfl⟩⟩

theorem State.asked_setQueue (s : State) (l : Fin 2) (q : List QMsg) (r : Fin 48) : s.Asked (s.setQueue l q) r :=
  ⟨s.doorsStand_setQueue l q, rfl, fun _ _ => rfl, fun _ => ⟨_, rfl⟩⟩

/-- A minibar's record written after work that touches no record. -/
theorem State.records_putMinibar {s u : State} (h : u.records = s.records) (r : Fin 48) (x : Minibar) :
    (u.putMinibar r x).records = ({ s with minibars := s.minibars.set r x } : State).records := by
  rw [u.putMinibar_records, State.records_minibars h]
  exact State.records_setMinibars h _

theorem State.asked_minibarGrantLost (s : State) (r : Fin 48) (place cause : Nat) : s.Asked (s.minibarGrantLost r place cause) r := by
  unfold State.minibarGrantLost
  dsimp only
  split
  · exact .refl s r
  · next g hg =>
    have after (x : Minibar) (hx : s.minibars[r].state = .scanning → x = { s.minibars[r] with pending := none }) :
        s.Asked ((s.admitRequest (undeliveredRequest place g cause)).putMinibar r x) r := by
      have records := State.records_putMinibar (s.admitRequest_records (undeliveredRequest place g cause)) r x
      generalize (s.admitRequest _).putMinibar r x = t at records
      have minibars : t.minibars = s.minibars.set r x := (State.records_minibars records :)
      refine ⟨.of_lines (State.records_lines records :), (State.records_rooms records :), fun k hk => ?_, fun hs => ⟨none, ?_⟩⟩
      · rw [minibars]
        exact vector_set_ne _ _ hk
      · rw [minibars, ← hx hs]
        exact vector_set_same _ r x
    exact after _ fun hs => if_neg fun h => by rw [hs] at h; cases h.1

theorem State.asked_openLost (s : State) (l : Fin 2) (a : Fin 64) (asker : Asker) (cause : Nat) (r : Fin 48)
    (hb : (s.drop l a).binding = some (.minibar r)) (doorless : (s.drop l a).door = none) : s.Asked (s.openLost l a asker cause) r := by
  unfold State.openLost
  cases asker with
  | doorUnit =>
    dsimp only
    rw [s.doorGrantLost_none l a cause (by rw [doorless]; rfl)]
    exact .refl s r
  | minibarUnit =>
    have here : s.minibarAt l a = some r := by unfold State.minibarAt; rw [hb]
    rw [here]
    exact s.asked_minibarGrantLost r _ _
  | zoneTable => exact .refl s r

/-- A message to the drop of a minibar. -/
theorem State.asked_request (s : State) (l : Fin 2) (m : QMsg) (r : Fin 48) (hb : (s.drop l m.addr).binding = some (.minibar r))
    (doorless : (s.drop l m.addr).door = none) : s.Asked (s.request l m).1 r := by
  have owe : s.Asked (s.owe l m).1 r := by
    unfold State.owe
    split
    · exact .refl s r
    · exact s.asked_setOwed _ _ _ r
  unfold State.request
  dsimp only
  split
  · exact owe
  · split
    · exact .refl s r
    · split
      · have queued := (s.asked_setQueue l (s.lines[l].queue.map fun q => if q.addr = m.addr then m else q) r).trans
          (State.asked_setOwed _ l m.addr none r)
        generalize (s.setQueue l _).setOwed l m.addr none = u at queued
        obtain ⟨door, binding⟩ := queued.doors l m.addr
        split
        · exact queued.trans (u.asked_openLost _ _ _ _ r (binding.trans hb) (door.trans doorless))
        · exact queued
      · split
        · exact (s.asked_setQueue _ _ r).trans (State.asked_setOwed _ _ _ _ r)
        · exact owe

theorem State.asked_askMinibar (s : State) (r : Fin 48) (msg : Directed) (doorless : s.Doorless r) : s.Asked (s.askMinibar r msg) r := by
  unfold State.askMinibar
  split
  · exact .refl s r
  · next l a found =>
    have hb : (s.drop l a).binding = some (.minibar r) := by
      have := List.find?_some found
      simpa using this
    exact s.asked_request l _ r hb (doorless l a hb)

/-! ### One room and its minibar -/

/-- From `s` to `t` no other room or minibar has changed, and no door-side record. -/
structure State.AtRoom (s t : State) (r : Fin 48) : Prop where
  doors : s.DoorsStand t
  rooms : ∀ k, k ≠ r → t.rooms[k] = s.rooms[k]
  minibars : ∀ k, k ≠ r → t.minibars[k] = s.minibars[k]

theorem State.AtRoom.trans {s t u : State} {r : Fin 48} (h : s.AtRoom t r) (h' : t.AtRoom u r) : s.AtRoom u r where
  doors := h.doors.trans h'.doors
  rooms k hk := (h'.rooms k hk).trans (h.rooms k hk)
  minibars k hk := (h'.minibars k hk).trans (h.minibars k hk)

theorem State.Asked.atRoom {s t : State} {r : Fin 48} (h : s.Asked t r) : s.AtRoom t r := ⟨h.doors, fun _ _ => by rw [h.rooms], h.others⟩

theorem State.atRoom_of_records {s t : State} (h : t.records = s.records) (r : Fin 48) : s.AtRoom t r :=
  ⟨.of_lines (State.records_lines h), fun _ _ => by rw [State.records_rooms h], fun _ _ => by rw [State.records_minibars h]⟩

theorem State.atRoom_setMinibar {s t : State} {r : Fin 48} {x : Minibar}
    (h : t.records = ({ s with minibars := s.minibars.set r x } : State).records) : s.AtRoom t r where
  doors := .of_lines (State.records_lines h :)
  rooms _ _ := by rw [(State.records_rooms h :)]
  minibars k hk := by rw [(State.records_minibars h :)]; exact vector_set_ne _ _ hk

theorem State.atRoom_setRoom {s t : State} {r : Fin 48} {x : Room}
    (h : t.records = ({ s with rooms := s.rooms.set r x } : State).records) : s.AtRoom t r where
  doors := .of_lines (State.records_lines h :)
  rooms k hk := by rw [(State.records_rooms h :)]; exact vector_set_ne _ _ hk
  minibars _ _ := by rw [(State.records_minibars h :)]

theorem State.atRoom_putMinibar (s : State) (r : Fin 48) (x : Minibar) : s.AtRoom (s.putMinibar r x) r :=
  State.atRoom_setMinibar (s.putMinibar_records r x)

theorem State.putMinibar_rooms (s : State) (r : Fin 48) (x : Minibar) : (s.putMinibar r x).rooms = s.rooms :=
  (State.records_rooms (s.putMinibar_records r x) :)

theorem State.putMinibar_same (s : State) (r : Fin 48) (x : Minibar) : (s.putMinibar r x).minibars[r] = x := by
  rw [State.records_minibars (s.putMinibar_records r x)]
  exact vector_set_same _ r x

/-- A DEPARTING room that is closed (R28, R29). -/
def Room.closed (unscanned : Bool) (y : Room) : Room := { y with state := .vacant, unscanned := unscanned, wait := 0 }

theorem State.closeRoom_records (s : State) (r : Fin 48) (scanned : Bool) (charge : Nat) :
    (s.closeRoom r scanned charge).records = ({ s with rooms := s.rooms.set r (s.rooms[r].closed !scanned) } : State).records := by
  unfold State.closeRoom
  dsimp only
  rw [State.completeFor_records, State.admitRequest_records, State.admitRequest_records, State.putRoom_records]
  rfl

/-- A final scan's report closes its room if that is DEPARTING (R29). -/
theorem State.reportFinal_spec (s : State) (r : Fin 48) (isFinal scanned : Bool) :
    s.AtRoom (s.reportFinal r isFinal scanned) r ∧ (s.reportFinal r isFinal scanned).minibars = s.minibars ∧
    (s.reportFinal r isFinal scanned).rooms[r] =
      if isFinal = true ∧ s.rooms[r].state = .departing then s.rooms[r].closed !scanned else s.rooms[r] := by
  unfold State.reportFinal
  by_cases final : isFinal = true
  · rw [if_pos final]
    unfold State.finalReport
    by_cases departing : s.rooms[r].state = .departing
    · have records := s.closeRoom_records r scanned s.minibars[r].charge
      rw [if_pos departing, if_pos ⟨final, departing⟩]
      refine ⟨State.atRoom_setRoom records, (State.records_minibars records :), ?_⟩
      rw [State.records_rooms records]
      exact vector_set_same _ r _
    · rw [if_neg departing, if_neg fun h => departing h.2]
      exact ⟨State.atRoom_of_records rfl r, rfl, rfl⟩
  · rw [if_neg final, if_neg fun h => final h.1]
    exact ⟨State.atRoom_of_records rfl r, rfl, rfl⟩

theorem State.answerScan_records (s : State) (r : Fin 48) (m : Minibar) (purpose : Option ScanPurpose) (res : Result) (read missing : Byte) :
    (s.answerScan r m purpose res read missing).records = s.records := by
  unfold State.answerScan
  split
  · exact s.completeFor_records _ _ _
  · rfl

theorem State.scanEntry_records (s : State) (r : Fin 48) (m : Minibar) : (s.scanEntry r m).records = s.records := by
  unfold State.scanEntry
  dsimp only
  split
  · exact s.admitRequest_records _
  · split
    · exact s.admitRequest_records _
    · rfl

/-- A scan that completes, as far as its room goes: a final one closes it scanned (R117). -/
theorem State.finishScan_spec (s : State) (r : Fin 48) (m : Minibar) :
    s.AtRoom (s.finishScan r m) r ∧ (s.finishScan r m).rooms[r] =
      if m.isFinalScan = true ∧ s.rooms[r].state = .departing then s.rooms[r].closed false else s.rooms[r] := by
  unfold State.finishScan
  dsimp only
  have entered (u : State) (hu : u.records = s.records) : ((u.scanEntry r m)).records = s.records := (u.scanEntry_records r m).trans hu
  have faulted : (if m.newFaults (decide (m.purpose = some .restock)) ≠ 0 then
      s.minibarFault r (s.minibarPlace r) 1 m.charge (m.newFaults (decide (m.purpose = some .restock))) else s).records = s.records := by
    split
    · exact s.admitRequest_records _
    · rfl
  generalize (if m.newFaults (decide (m.purpose = some .restock)) ≠ 0 then
      s.minibarFault r (s.minibarPlace r) 1 m.charge (m.newFaults (decide (m.purpose = some .restock))) else s) = u at faulted ⊢
  have entry := entered u faulted
  generalize u.scanEntry r m = v at entry ⊢
  have weighed : ({ v with minibars := v.minibars.set r (m.weighed.rest .locked).applyMark }.rewriteRoom r).records =
      ({ s with minibars := s.minibars.set r (m.weighed.rest .locked).applyMark } : State).records := by
    refine (State.rewriteRoom_records _ r).trans ?_
    rw [State.records_minibars entry]
    exact State.records_setMinibars entry _
  generalize { v with minibars := v.minibars.set r (m.weighed.rest .locked).applyMark }.rewriteRoom r = x at weighed ⊢
  have answered := (x.answerScan_records r (m.weighed.rest .locked) m.purpose .ok m.requested 0).trans weighed
  generalize x.answerScan r (m.weighed.rest .locked) m.purpose .ok m.requested 0 = y at answered ⊢
  obtain ⟨reported, -, room⟩ := y.reportFinal_spec r m.isFinalScan true
  have rooms : y.rooms = s.rooms := (State.records_rooms answered :)
  rw [rooms] at room
  exact ⟨(State.atRoom_setMinibar answered).trans reported, room⟩

theorem firstBits_eq_zero {n : Nat} : firstBits n = 0 ↔ n = 0 := by
  refine ⟨fun h => ?_, fun h => by rw [h]; rfl⟩
  cases n with
  | zero => rfl
  | succ n =>
    have odd : (firstBits (n + 1)).toNat % 2 = 1 := by
      unfold firstBits
      have : 1 ≤ 2 ^ n := Nat.one_le_two_pow
      rw [BitVec.toNat_ofNat, pow_succ]
      omega
    rw [h] at odd
    cases odd

/-- A minibar's final scan expires in this second (R114). -/
def Minibar.expires (m : Minibar) : Bool := decide (m.state = .scanning ∧ m.scanCount ≤ 1 ∧ (m.purpose = some .final ∨ m.finalMark = true))

/-- A minibar's window ends in this second under the FINAL mark, with no tray in use (R112, R122). -/
def Minibar.endsEmpty (m : Minibar) : Bool :=
  decide (m.state = .granted ∧ m.finalMark = true ∧ (m.deadline = some 0 ∨ m.deadline = some 1) ∧ m.trayCount = 0)

theorem Minibar.expires_scanning {m : Minibar} (h : m.expires = true) : m.state = .scanning := (of_decide_eq_true h).1

theorem Minibar.endsEmpty_granted {m : Minibar} (h : m.endsEmpty = true) : m.state = .granted := (of_decide_eq_true h).1

theorem Minibar.isFinalScan_iff (m : Minibar) : m.isFinalScan = true ↔ m.purpose = some .final ∨ m.finalMark = true := by
  unfold Minibar.isFinalScan
  rw [Bool.or_eq_true, decide_eq_true_iff]

/-- A room after its minibar's part of a second. -/
def Room.scanEnds (m : Minibar) (y : Room) : Room :=
  if m.expires = true ∧ y.state = .departing then y.closed true
  else if m.endsEmpty = true ∧ y.state = .departing then y.closed false
  else y

theorem Room.scanEnds_quiet {m : Minibar} {y : Room} (scan : m.expires ≠ true) (window : m.endsEmpty ≠ true) : y.scanEnds m = y := by
  unfold Room.scanEnds
  rw [if_neg fun h => scan h.1, if_neg fun h => window h.1]

theorem Room.scanEnds_scanning {m : Minibar} (y : Room) (h : m.state = .scanning) :
    y.scanEnds m = if m.expires = true ∧ y.state = .departing then y.closed true else y := by
  have window : m.endsEmpty ≠ true := fun e => by
    have := h.symm.trans (Minibar.endsEmpty_granted e)
    cases this
  unfold Room.scanEnds
  rw [if_neg (c := m.endsEmpty = true ∧ _) fun h => window h.1]

theorem Room.scanEnds_granted {m : Minibar} (y : Room) (h : m.state = .granted) :
    y.scanEnds m = if m.endsEmpty = true ∧ y.state = .departing then y.closed false else y := by
  have scan : m.expires ≠ true := fun e => by
    have := h.symm.trans (Minibar.expires_scanning e)
    cases this
  unfold Room.scanEnds
  rw [if_neg fun h => scan h.1]

/-- A final scan that starts completes as it starts with no tray in use, and its report closes the room scanned (R112, R122). -/
theorem State.startFinal_spec (s : State) (r : Fin 48) (doorless : s.Doorless r) :
    s.AtRoom (s.startFinal r) r ∧ (s.startFinal r).rooms[r] =
      if s.minibars[r].trayCount = 0 ∧ s.rooms[r].state = .departing then s.rooms[r].closed false else s.rooms[r] := by
  unfold State.startFinal State.startScan
  dsimp only
  have nothing : s.minibars[r].allTrays = 0 ↔ s.minibars[r].trayCount = 0 := firstBits_eq_zero
  by_cases none_ : s.minibars[r].trayCount = 0
  · rw [if_pos (nothing.2 none_)]
    obtain ⟨atRoom, room⟩ := s.finishScan_spec r { s.minibars[r] with
      state := .scanning, opener := none, deadline := none, onClose := none, latchMark := false, purpose := some .final
      requested := s.minibars[r].allTrays, collected := Vector.replicate 8 none, scanCount := 10 }
    refine ⟨atRoom, room.trans (if_congr ?_ rfl rfl)⟩
    rw [Minibar.isFinalScan_iff]
    exact and_congr_left fun _ => iff_of_true (.inl rfl) none_
  · rw [if_neg fun h => none_ (nothing.1 h), if_neg fun h => none_ h.1]
    generalize ({ s.minibars[r] with
      state := .scanning, opener := none, deadline := none, onClose := none, latchMark := false, purpose := some .final
      requested := s.minibars[r].allTrays, collected := Vector.replicate 8 none, scanCount := 10 } : Minibar) = x
    have put := s.atRoom_putMinibar r x
    have rooms := s.putMinibar_rooms r x
    generalize s.putMinibar r x = u at put rooms
    have asked := u.asked_askMinibar r .scanAll (put.doors.doorless doorless)
    exact ⟨put.trans asked.atRoom, by rw [asked.rooms, rooms]⟩

/-- A scan that is abandoned, as far as its room goes: a final one closes it unscanned (R114, R29). -/
theorem State.scanExpires_spec (s : State) (r : Fin 48) (scanning : s.minibars[r].state = .scanning) (doorless : s.Doorless r) :
    s.AtRoom (s.scanExpires r) r ∧ (s.scanExpires r).rooms[r] =
      if s.minibars[r].isFinalScan = true ∧ s.rooms[r].state = .departing then s.rooms[r].closed true else s.rooms[r] := by
  have asked := s.asked_askMinibar r .stopScan doorless
  unfold State.scanExpires
  dsimp only
  generalize s.askMinibar r .stopScan = u at asked ⊢
  obtain ⟨g, record⟩ := asked.scanning scanning
  have final : u.minibars[r].isFinalScan = s.minibars[r].isFinalScan := by rw [record]; rfl
  rw [final]
  have faulted : (u.minibarFault r (u.minibarPlace r) 2 u.minibars[r].charge u.minibars[r].missing).records = u.records :=
    u.admitRequest_records _
  generalize u.minibarFault r (u.minibarPlace r) 2 u.minibars[r].charge u.minibars[r].missing = v at faulted ⊢
  have put := State.records_putMinibar faulted r (u.minibars[r].rest .locked).applyMark
  generalize v.putMinibar r (u.minibars[r].rest .locked).applyMark = x at put ⊢
  have answered := (x.answerScan_records r (u.minibars[r].rest .locked) u.minibars[r].purpose .ok 0 u.minibars[r].missing).trans put
  generalize x.answerScan r (u.minibars[r].rest .locked) u.minibars[r].purpose .ok 0 u.minibars[r].missing = y at answered ⊢
  obtain ⟨reported, -, room⟩ := y.reportFinal_spec r s.minibars[r].isFinalScan false
  have rooms : y.rooms = s.rooms := (State.records_rooms answered :).trans asked.rooms
  rw [rooms] at room
  exact ⟨(asked.atRoom.trans (State.atRoom_setMinibar answered)).trans reported, room⟩

/-- One minibar and its room after the minibar's part of a second. -/
structure State.MinibarTicked (s t : State) (r : Fin 48) : Prop where
  atRoom : s.AtRoom t r
  room : t.rooms[r] = s.rooms[r].scanEnds s.minibars[r]
  window : s.minibars[r].state = .granted → ∀ n, 1 < n → s.minibars[r].deadline = some n →
    t.minibars[r] = { s.minibars[r] with deadline := some (n - 1) }
  scan : s.minibars[r].state = .scanning → 1 < s.minibars[r].scanCount →
    t.minibars[r] = { s.minibars[r] with scanCount := s.minibars[r].scanCount - 1 }

/-- A minibar with nothing that counts. -/
theorem State.minibarTicked_idle (s : State) (r : Fin 48) (scan : s.minibars[r].state ≠ .scanning)
    (window : s.minibars[r].state = .granted → s.minibars[r].deadline = none) : s.MinibarTicked s r where
  atRoom := State.atRoom_of_records rfl r
  room := by
    refine (Room.scanEnds_quiet (fun h => scan (Minibar.expires_scanning h)) fun h => ?_).symm
    obtain ⟨granted, -, last, -⟩ := of_decide_eq_true h
    rw [window granted] at last
    simp at last
  window granted n _ hn := by rw [window granted] at hn; cases hn
  scan h := absurd h scan

theorem State.tickMinibar_spec (s : State) (r : Fin 48) (doorless : s.Doorless r) : s.MinibarTicked (s.tickMinibar r) r := by
  unfold State.tickMinibar
  dsimp only
  cases state : s.minibars[r].state with
  | offline | locked | opened => exact s.minibarTicked_idle r (by rw [state]; nofun) (by rw [state]; nofun)
  | granted =>
    dsimp only
    cases deadline : s.minibars[r].deadline with
    | none => exact s.minibarTicked_idle r (by rw [state]; nofun) fun _ => deadline
    | some n =>
      dsimp only
      have last : s.minibars[r].deadline = some 0 ∨ s.minibars[r].deadline = some 1 ↔ n ≤ 1 := by
        rw [deadline, Option.some_inj, Option.some_inj]
        omega
      by_cases ends : n ≤ 1
      · rw [if_pos ends]
        have atEnd (t : State) (atRoom : s.AtRoom t r) (room : t.rooms[r] = s.rooms[r].scanEnds s.minibars[r]) : s.MinibarTicked t r :=
          ⟨atRoom, room, fun _ k hk e => by rw [deadline] at e; cases e; omega, fun h => by rw [state] at h; cases h⟩
        unfold State.minibarWindowEnds
        dsimp only
        cases mark : s.minibars[r].finalMark with
        | true =>
          obtain ⟨atRoom, room⟩ := s.startFinal_spec r doorless
          rw [if_pos rfl]
          refine atEnd _ atRoom (room.trans ?_)
          rw [Room.scanEnds_granted _ state]
          refine if_congr (and_congr_left fun _ => ?_) rfl rfl
          unfold Minibar.endsEmpty
          rw [decide_eq_true_iff]
          exact ⟨fun h => ⟨state, mark, last.2 ends, h⟩, fun h => h.2.2.2⟩
        | false =>
          rw [if_neg nofun]
          refine atEnd _ (s.atRoom_putMinibar r _) ?_
          rw [s.putMinibar_rooms, Room.scanEnds_granted _ state, if_neg]
          intro h
          have := (of_decide_eq_true h.1).2.1
          rw [mark] at this
          cases this
      · rw [if_neg ends]
        refine ⟨s.atRoom_putMinibar r _, ?_, fun _ k _ e => ?_, fun h => by rw [state] at h; cases h⟩
        · rw [s.putMinibar_rooms, Room.scanEnds_granted _ state, if_neg]
          exact fun h => ends (last.1 (of_decide_eq_true h.1).2.2.1)
        · obtain rfl : n = k := by rw [deadline] at e; cases e; rfl
          exact (s.putMinibar_same r _).trans (by simp only [state])
  | scanning =>
    have notGranted : s.minibars[r].state ≠ .granted := by rw [state]; nofun
    dsimp only
    by_cases ends : s.minibars[r].scanCount ≤ 1
    · rw [if_pos ends]
      obtain ⟨atRoom, room⟩ := s.scanExpires_spec r state doorless
      refine ⟨atRoom, room.trans ?_, fun h => absurd h notGranted, fun _ h => absurd ends (by omega)⟩
      rw [Room.scanEnds_scanning _ state]
      refine if_congr (and_congr_left fun _ => ?_) rfl rfl
      unfold Minibar.expires
      rw [decide_eq_true_iff, Minibar.isFinalScan_iff]
      exact ⟨fun h => ⟨state, ends, h⟩, fun h => h.2.2⟩
    · rw [if_neg ends]
      refine ⟨s.atRoom_putMinibar r _, ?_, fun h => absurd h notGranted, fun _ _ => (s.putMinibar_same r _).trans (by simp only [state])⟩
      rw [s.putMinibar_rooms, Room.scanEnds_scanning _ state, if_neg]
      exact fun h => ends (of_decide_eq_true h.1).2.1

end Sys2Proof.Machine

namespace Sys2Proof.Machine

open Sys2Proof

/-! ## The rooms in a second (R28) -/

/-- A room after its own part of a second. -/
def Room.waited (y : Room) : Room :=
  if y.state ≠ .departing then y else if y.wait ≤ 1 then y.closed true else { y with wait := y.wait - 1 }

theorem State.tickRoom_spec (s : State) (r : Fin 48) :
    s.AtRoom (s.tickRoom r) r ∧ (s.tickRoom r).minibars = s.minibars ∧ (s.tickRoom r).rooms[r] = s.rooms[r].waited := by
  have wrote {t : State} (x : Room) (records : t.records = ({ s with rooms := s.rooms.set r x } : State).records) :
      s.AtRoom t r ∧ t.minibars = s.minibars ∧ t.rooms[r] = x := by
    refine ⟨State.atRoom_setRoom records, (State.records_minibars records :), ?_⟩
    rw [(State.records_rooms records :)]
    exact vector_set_same _ r x
  unfold State.tickRoom Room.waited
  dsimp only
  split_ifs
  · exact ⟨State.atRoom_of_records rfl r, rfl, rfl⟩
  · exact wrote _ (s.closeRoom_records r false _)
  · exact wrote _ (s.putRoom_records r _)

/-- A room and its minibar. -/
def State.roomPair (s : State) (r : Fin 48) : Room × Minibar := (s.rooms[r], s.minibars[r])

theorem State.AtRoom.other {s t : State} {r k : Fin 48} (h : s.AtRoom t r) (hk : k ≠ r) : t.roomPair k = s.roomPair k :=
  Prod.ext (h.rooms k hk) (h.minibars k hk)

/-- The minibars, each once (R110, R114). -/
theorem State.tickMinibars_spec (s : State) (doorless : ∀ r, s.Doorless r) :
    s.DoorsStand (allRooms.foldl State.tickMinibar s) ∧ ∀ r : Fin 48, ∃ u : State, u.roomPair r = s.roomPair r ∧
      (allRooms.foldl State.tickMinibar s).roomPair r = (u.tickMinibar r).roomPair r ∧ u.MinibarTicked (u.tickMinibar r) r := by
  have ticked (u : State) (r : Fin 48) (hu : s.DoorsStand u) : u.MinibarTicked (u.tickMinibar r) r :=
    u.tickMinibar_spec r (hu.doorless (doorless r))
  have step (u : State) (r : Fin 48) (hu : s.DoorsStand u) : s.DoorsStand (u.tickMinibar r) := hu.trans (ticked u r hu).atRoom.doors
  have far (u : State) (r k : Fin 48) (hu : s.DoorsStand u) (hk : k ≠ r) : (u.tickMinibar r).roomPair k = u.roomPair k :=
    (ticked u r hu).atRoom.other hk
  refine ⟨foldl_keeps step allRooms (.refl s), fun r => ?_⟩
  obtain ⟨u, hu, before, after⟩ := foldl_visits (look := State.roomPair) step far allRooms_nodup (s := s) (.refl s) (mem_allRooms r)
  exact ⟨u, before, after, ticked u r hu⟩

/-- The rooms, each once. -/
theorem State.tickRooms_spec (s : State) : s.DoorsStand (allRooms.foldl State.tickRoom s) ∧
    ∀ r : Fin 48, (allRooms.foldl State.tickRoom s).roomPair r = (s.rooms[r].waited, s.minibars[r]) := by
  have step (u : State) (r : Fin 48) (hu : s.DoorsStand u) : s.DoorsStand (u.tickRoom r) := hu.trans (u.tickRoom_spec r).1.doors
  have far (u : State) (r k : Fin 48) (_ : s.DoorsStand u) (hk : k ≠ r) : (u.tickRoom r).roomPair k = u.roomPair k :=
    (u.tickRoom_spec r).1.other hk
  refine ⟨foldl_keeps step allRooms (.refl s), fun r => ?_⟩
  obtain ⟨u, -, before, after⟩ := foldl_visits (look := State.roomPair) step far allRooms_nodup (s := s) (.refl s) (mem_allRooms r)
  obtain ⟨-, minibars, room⟩ := u.tickRoom_spec r
  obtain ⟨rooms, minibar⟩ := Prod.mk.inj before
  rw [after]
  exact Prod.ext (by rw [← rooms]; exact room) (by rw [← minibar]; exact congrArg (fun v : Vector Minibar 48 => v[r]) minibars)

/-- The doors, the minibars and the rooms after their parts of a second. -/
structure State.TablesTicked (s t : State) : Prop where
  doors : ∀ l a, (t.drop l a).door = (s.drop l a).door.map (DoorSide.ticked s.site.heldLimit)
  rooms : ∀ r : Fin 48, t.rooms[r] = (s.rooms[r].scanEnds s.minibars[r]).waited
  window : ∀ r : Fin 48, s.minibars[r].state = .granted → ∀ n, 1 < n → s.minibars[r].deadline = some n →
    t.minibars[r] = { s.minibars[r] with deadline := some (n - 1) }
  scan : ∀ r : Fin 48, s.minibars[r].state = .scanning → 1 < s.minibars[r].scanCount →
    t.minibars[r] = { s.minibars[r] with scanCount := s.minibars[r].scanCount - 1 }

theorem State.tickTables_spec (s : State) (inv : s.BindingInv) : s.TablesTicked s.tickTables := by
  unfold State.tickTables
  obtain ⟨onLines, doors⟩ := s.tickDoors_spec inv
  generalize allDrops.foldl State.tickDoor s = u at onLines doors
  have doorless (r : Fin 48) : u.Doorless r := fun l a hb => by
    rw [doors] at hb ⊢
    have none_ : (s.drop l a).door = none := Drop.doorless inv fun b e => by
      obtain rfl : b = .minibar r := Option.some.inj (e.symm.trans hb)
      rfl
    rw [Drop.onDoor_none none_, none_]
  obtain ⟨minibarDoors, minibars⟩ := u.tickMinibars_spec doorless
  generalize allRooms.foldl State.tickMinibar u = v at minibarDoors minibars
  obtain ⟨roomDoors, rooms⟩ := v.tickRooms_spec
  generalize allRooms.foldl State.tickRoom v = t at roomDoors rooms
  have visited (r : Fin 48) : ∃ x y : State, x.rooms[r] = s.rooms[r] ∧ x.minibars[r] = s.minibars[r] ∧ x.MinibarTicked y r ∧
      t.rooms[r] = y.rooms[r].waited ∧ t.minibars[r] = y.minibars[r] := by
    obtain ⟨x, before, after, ticked⟩ := minibars r
    obtain ⟨room, minibar⟩ := Prod.mk.inj before
    obtain ⟨room', minibar'⟩ := Prod.mk.inj after
    obtain ⟨waited, same⟩ := Prod.mk.inj (rooms r)
    rw [onLines.rooms] at room
    rw [onLines.minibars] at minibar
    exact ⟨x, _, room, minibar, ticked, waited.trans (congrArg Room.waited room'), same.trans minibar'⟩
  refine ⟨fun l a => ?_, fun r => ?_, fun r state n hn deadline => ?_, fun r state count => ?_⟩
  · rw [((minibarDoors.trans roomDoors) l a).1, doors]
    rfl
  · obtain ⟨x, y, room, minibar, ticked, waited, -⟩ := visited r
    rw [waited, ticked.room, room, minibar]
  · obtain ⟨x, y, -, minibar, ticked, -, same⟩ := visited r
    have counted := ticked.window (by rw [minibar]; exact state) n hn (by rw [minibar]; exact deadline)
    rw [same, counted, minibar]
  · obtain ⟨x, y, -, minibar, ticked, -, same⟩ := visited r
    have counted := ticked.scan (by rw [minibar]; exact state) (by rw [minibar]; exact count)
    rw [same, counted, minibar]

end Sys2Proof.Machine

namespace Sys2Proof.Machine

open Sys2Proof

/-! ## The encoder's card wait in a second (R89) -/

theorem State.EndedWith.rewriteSite {s : State} {k : Fin 16} {res : Result} {data : List Byte} (h : s.EndedWith k res data) :
    s.rewriteSite.EndedWith k res data :=
  h.congr (fun x hx => s.keepsBytes_rewriteSite x fun e => by unfold ofSiteMirror at e; unfold ofBlock at hx; omega) h.1.2.2.1 id

theorem State.EndedWith.encoderStep {s : State} {f : State → State} {k : Fin 16} {res : Result} {data : List Byte} (h : (f s).EndedWith k res data) :
    (s.encoderStep f).EndedWith k res data := by
  unfold State.encoderStep
  dsimp only
  split
  · exact h
  · exact h.rewriteSite

theorem State.encoderStep_encoder (s : State) (f : State → State) : (s.encoderStep f).encoder = (f s).encoder := by
  obtain ⟨m, n, e⟩ := s.encoderStep_changes f
  rw [e]

theorem State.ByEncoder.tables {s t : State} (h : s.ByEncoder t) : t.lines = s.lines ∧ t.rooms = s.rooms ∧ t.minibars = s.minibars := by
  obtain ⟨e, r, n, c, k, rfl⟩ := h
  exact ⟨rfl, rfl, rfl⟩

/-- With no order waiting the encoder is free when its order ends. -/
theorem State.finishOrder_alone (s : State) (o : EncOrder) (res : Result) (alone : s.encoder.waiting = []) :
    s.finishOrder o res = s.endOrder o res := by
  have none_ : firstRanked (s.endOrder o res).encoder.waiting = none := by
    show firstRanked s.encoder.waiting = none
    rw [alone]
    rfl
  unfold State.finishOrder State.arbitrate
  rw [none_, if_neg (show ¬(s.endOrder o res).encoder.running.isSome = true from nofun)]

theorem State.tickEncoder_waits (s : State) (o : EncOrder) (running : s.encoder.running = some o) (sensing : s.encoder.state = .sensing)
    (h : 1 < o.waitCount) : s.tickEncoder.encoder = { s.encoder with running := some { o with waitCount := o.waitCount - 1 } } := by
  unfold State.tickEncoder
  rw [running]
  dsimp only
  rw [if_neg (not_not_intro sensing), if_neg (by omega)]
  rfl

/-- The card wait runs out: NO_CARD, and the encoder is free. -/
theorem State.tickEncoder_ends (s : State) (o : EncOrder) (running : s.encoder.running = some o) (sensing : s.encoder.state = .sensing)
    (h : o.waitCount ≤ 1) (alone : s.encoder.waiting = []) :
    s.tickEncoder.encoder = s.encoder.free ∧ ∃ data, s.tickEncoder.EndedWith o.block .noCard data := by
  have run : s.tickEncoder = s.encoderStep fun u => u.finishOrder { o with waitCount := 0 } .noCard := by
    unfold State.tickEncoder
    rw [running]
    dsimp only
    rw [if_neg (not_not_intro sensing), if_pos h]
  have finish := s.finishOrder_alone { o with waitCount := 0 } .noCard alone
  have ended : ∃ data, (s.endOrder { o with waitCount := 0 } .noCard).EndedWith o.block .noCard data := by
    refine ⟨s.encData { o with waitCount := 0 } .noCard, ?_⟩
    have completed := s.complete_endedWith o.block .noCard (s.encData { o with waitCount := 0 } .noCard)
    exact completed.congr (fun _ _ => rfl) completed.1.2.2.1 id
  obtain ⟨data, ended⟩ := ended
  rw [run, State.encoderStep_encoder]
  refine ⟨by rw [finish]; rfl, data, State.EndedWith.encoderStep ?_⟩
  rw [finish]
  exact ended

/-! ## The rest of a second: the search, the minute tick, the lines -/

theorem State.EndedWith.search {s : State} {k : Fin 16} {res : Result} {data : List Byte} (h : s.EndedWith k res data) :
    s.search.EndedWith k res data := by
  refine h.congr (fun x hx => s.keepsBytes_search x fun e => ?_) ?_ s.maySetJournal_search.told
  · unfold ofDescriptors at e
    unfold ofBlock at hx
    omega
  · obtain ⟨r, c, j, e, -⟩ := s.search_changes
    rw [e]
    exact h.1.2.2.1

/-- The minute tick, in a second that wraps. -/
def State.minuteDelivered (wraps : Bool) (minute : Nat) (s : State) : State := if wraps then s.minuteTick minute else s

theorem State.minuteDelivered_records (wraps : Bool) (minute : Nat) (s : State) : (s.minuteDelivered wraps minute).records = ({ s with
    rooms := if wraps then s.rooms.map (Room.overstayed s.site.checkoutGrace minute) else s.rooms
    revs := if wraps then s.revs.filter fun e => !e.expired minute else s.revs } : State).records := by
  unfold State.minuteDelivered
  cases wraps with
  | true => exact s.minuteTick_records minute
  | false => rfl

theorem State.EndedWith.minuteDelivered {s : State} {k : Fin 16} {res : Result} {data : List Byte} (h : s.EndedWith k res data)
    (wraps : Bool) (minute : Nat) : (s.minuteDelivered wraps minute).EndedWith k res data := by
  unfold State.minuteDelivered
  split
  · obtain ⟨qs, routine, reports⟩ := s.minuteTick_routine minute
    exact h.reports reports routine
  · exact h

theorem State.work_minuteDelivered (s : State) (wraps : Bool) (minute : Nat) : State.Work .wide s (s.minuteDelivered wraps minute) := by
  unfold State.minuteDelivered
  split
  · exact s.work_minuteTick minute
  · exact .refl s

/-- A second after its last receiver but the search. -/
def State.secondEnds (wraps : Bool) (minute : Nat) (s : State) : State := (s.search.minuteDelivered wraps minute).settle

/-- What the end of a second leaves: the drops, the minibars and the encoder; rooms tested for overstay alone; orders that have ended. -/
structure State.SecondEnded (s t : State) (wraps : Bool) (minute : Nat) : Prop where
  drop : ∀ l a, t.drop l a = s.drop l a
  minibars : t.minibars = s.minibars
  encoder : t.encoder = s.encoder
  rooms : t.rooms = if wraps then s.rooms.map (Room.overstayed s.site.checkoutGrace minute) else s.rooms
  ended : ∀ k res data, s.EndedWith k res data → t.Ended k res
  sought : s.search.Sought t

theorem State.secondEnds_spec (s : State) (wraps : Bool) (minute : Nat) (no : s.NoGoDue) : s.SecondEnded (s.secondEnds wraps minute) wraps minute := by
  have work := s.search.work_minuteDelivered wraps minute
  have ended := fun k res data (h : s.EndedWith k res data) => h.search.minuteDelivered wraps minute
  have records := s.search.minuteDelivered_records wraps minute
  unfold State.secondEnds
  generalize s.search.minuteDelivered wraps minute = x at work ended records ⊢
  have searched := s.search_records
  have lines : x.lines = s.lines := (State.records_lines records :).trans (State.records_lines searched :)
  have settled := x.settle_goesOn (no.of_course fun l => by rw [lines])
  have sought := (work.trans (State.work_settle x).wide).sought
  generalize x.settle = t at settled sought ⊢
  exact {
    drop := fun l a => (settled.drop l a).trans (by unfold State.drop; rw [lines])
    minibars := settled.minibars.trans ((State.records_minibars records :).trans (State.records_minibars searched :))
    encoder := (congrArg State.encoder settled.beyondLines :).trans ((State.records_encoder records :).trans (State.records_encoder searched :))
    rooms := by
      rw [settled.rooms, (State.records_rooms records :), State.records_rooms searched, State.records_site searched]
    ended := fun k res data h => settled.ended (ended k res data h).1
    sought := sought }

/-- A running second, part after part. -/
theorem State.tickRunning_parts (s : State) :
    s.tickRunning = s.secondBegins.tickTables.tickEncoder.secondEnds s.clock.wraps (s.clock.addSeconds 1).minute := by
  have clock : s.secondBegins.secondsReceivers.clock = s.clock.addSeconds 1 :=
    (s.work_secondBegins.trans (State.work_secondsReceivers _)).clock
  rw [s.tickRunning_eq, clock, State.secondsReceivers_eq]
  rfl

/-- The part before the receivers touches the clock alone among the records. -/
theorem State.secondBegins_records (s : State) : s.secondBegins.records = ({ s with clock := s.clock.addSeconds 1 } : State).records := by
  unfold State.secondBegins
  dsimp only
  split
  · exact (State.admitRequest_records _ _).trans rfl
  · rfl

theorem State.secondBegins_sought (s : State) : s.Sought s.secondBegins := by
  have clock : s.Sought { s with clock := s.clock.addSeconds 1 } := State.NoSearch.sought ⟨rfl, rfl, rfl, fun _ _ => rfl⟩ rfl
  exact (clock.trans (State.sought_rewriteSite _)).trans s.work_secondBegins.sought

/-- What a second leaves of the records that count (R6). -/
structure State.Counted (s t : State) : Prop where
  doors : ∀ l a, (t.drop l a).door = (s.drop l a).door.map (DoorSide.ticked s.site.heldLimit)
  rooms : ∀ r : Fin 48, t.rooms[r] = if s.clock.wraps
    then ((s.rooms[r].scanEnds s.minibars[r]).waited).overstayed s.site.checkoutGrace (s.clock.addSeconds 1).minute
    else (s.rooms[r].scanEnds s.minibars[r]).waited
  window : ∀ r : Fin 48, s.minibars[r].state = .granted → ∀ n, 1 < n → s.minibars[r].deadline = some n →
    t.minibars[r] = { s.minibars[r] with deadline := some (n - 1) }
  scan : ∀ r : Fin 48, s.minibars[r].state = .scanning → 1 < s.minibars[r].scanCount →
    t.minibars[r] = { s.minibars[r] with scanCount := s.minibars[r].scanCount - 1 }
  waits : ∀ o, s.encoder.running = some o → s.encoder.state = .sensing → 1 < o.waitCount →
    t.encoder = { s.encoder with running := some { o with waitCount := o.waitCount - 1 } }
  noCard : ∀ o, s.encoder.running = some o → s.encoder.state = .sensing → o.waitCount ≤ 1 → s.encoder.waiting = [] →
    t.encoder = s.encoder.free ∧ t.Ended o.block .noCard
  searches : s.journal.filling = none → t.journal.queue ≠ [] → s.Searches t
  noSearch : s.journal.filling ≠ none ∨ t.journal.queue = [] → s.NoSearch t

/-- The receivers of the seconds tick before the search have been reached. -/
structure State.Received (s v : State) : Prop where
  tables : s.TablesTicked v
  course : ∀ l : Fin 2, v.lines[l].course = s.lines[l].course
  site : v.site = s.site
  waits : ∀ o, s.encoder.running = some o → s.encoder.state = .sensing → 1 < o.waitCount →
    v.encoder = { s.encoder with running := some { o with waitCount := o.waitCount - 1 } }
  noCard : ∀ o, s.encoder.running = some o → s.encoder.state = .sensing → o.waitCount ≤ 1 → s.encoder.waiting = [] →
    v.encoder = s.encoder.free ∧ ∃ data, v.EndedWith o.block .noCard data
  sought : s.Sought v

theorem State.tickTables_received (s : State) (binding : s.BindingInv) : s.Received s.tickTables.tickEncoder := by
  have tables := s.tickTables_spec binding
  have work : State.Work .calm s s.tickTables := s.work_tickTables
  generalize s.tickTables = u at tables work
  have encoder : u.encoder = s.encoder := work.encoder nofun
  have others := u.byEncoder_tickEncoder
  have encoderWork := u.work_tickEncoder
  have waits := u.tickEncoder_waits
  have ends := u.tickEncoder_ends
  rw [encoder] at waits ends
  generalize u.tickEncoder = v at others encoderWork waits ends
  obtain ⟨lines, rooms, minibars⟩ := others.tables
  exact {
    tables := {
      doors := fun l a => by
        have kept : v.drop l a = u.drop l a := by unfold State.drop; rw [lines]
        rw [kept, tables.doors]
      rooms := fun r => by rw [rooms, tables.rooms]
      window := fun r => by rw [minibars]; exact tables.window r
      scan := fun r => by rw [minibars]; exact tables.scan r }
    course := fun l => by rw [lines, work.course l]
    site := encoderWork.site.trans work.site
    waits := waits
    noCard := ends
    sought := work.sought.trans encoderWork.sought }

/-- What stands at the receivers' start is what stood at the second's, the clock and the journal apart. -/
theorem State.TablesTicked.of_records {s b v : State} {c : Clock} (h : b.TablesTicked v)
    (records : b.records = ({ s with clock := c } : State).records) : s.TablesTicked v := by
  have lines : b.lines = s.lines := (State.records_lines records :)
  have rooms : b.rooms = s.rooms := (State.records_rooms records :)
  have minibars : b.minibars = s.minibars := (State.records_minibars records :)
  have site : b.site = s.site := (State.records_site records :)
  obtain ⟨doors, room, window, scan⟩ := h
  unfold State.drop at doors
  rw [lines, site] at doors
  rw [rooms, minibars] at room
  rw [minibars] at window scan
  exact ⟨doors, room, window, scan⟩

theorem State.secondBegins_received (s : State) (binding : s.BindingInv) : s.Received s.secondBegins.tickTables.tickEncoder := by
  have records := s.secondBegins_records
  have sought := s.secondBegins_sought
  generalize s.secondBegins = b at records sought
  have lines : b.lines = s.lines := (State.records_lines records :)
  have encoder : b.encoder = s.encoder := (State.records_encoder records :)
  have received := b.tickTables_received (by unfold State.BindingInv State.drop; rw [lines]; exact binding)
  obtain ⟨tables, course, site, waits, noCard, search⟩ := received
  rw [encoder] at waits noCard
  rw [lines] at course
  exact ⟨tables.of_records records, course, site.trans (State.records_site records :), waits, noCard, sought.trans search⟩

theorem State.tickRunning_counted (s : State) (binding : s.BindingInv) (line : s.LineInv) : s.Counted s.tickRunning := by
  have received := s.secondBegins_received binding
  rw [s.tickRunning_parts]
  generalize s.secondBegins.tickTables.tickEncoder = v at received
  obtain ⟨tables, course, site, waits, noCard, sought⟩ := received
  have after := v.secondEnds_spec s.clock.wraps (s.clock.addSeconds 1).minute (line.noGoDue.of_course course)
  generalize v.secondEnds s.clock.wraps (s.clock.addSeconds 1).minute = t at after
  obtain ⟨searches, noSearch⟩ := sought.searched after.sought
  exact {
    doors := fun l a => by rw [after.drop, tables.doors]
    rooms := fun r => by
      rw [after.rooms, site, ← tables.rooms]
      split
      · exact Vector.getElem_map _ r.isLt
      · rfl
    window := fun r => by rw [after.minibars]; exact tables.window r
    scan := fun r => by rw [after.minibars]; exact tables.scan r
    waits := fun o running sensing h => after.encoder.trans (waits o running sensing h)
    noCard := fun o running sensing h alone => by
      obtain ⟨free, data, ended⟩ := noCard o running sensing h alone
      exact ⟨after.encoder.trans free, after.ended _ _ _ ended⟩
    searches := searches
    noSearch := noSearch }

end Sys2Proof.Machine

namespace Sys2Proof.Machine

open Sys2Proof

/-! ## The counts a second moves (R6) -/

theorem Room.overstayed_of_ne {y : Room} (h : y.state ≠ .occupied) (grace minute : Nat) : y.overstayed grace minute = y := if_neg fun e => h e.1

theorem Room.closed_overstayed (unscanned : Bool) (y : Room) (grace minute : Nat) :
    (y.closed unscanned).overstayed grace minute = y.closed unscanned :=
  Room.overstayed_of_ne (show RoomState.vacant ≠ .occupied from nofun) _ _

theorem Room.closed_waited (unscanned : Bool) (y : Room) : (y.closed unscanned).waited = y.closed unscanned := if_pos nofun

theorem Room.waited_last {y : Room} (departing : y.state = .departing) (h : y.wait ≤ 1) : y.waited = y.closed true := by
  unfold Room.waited
  rw [if_neg (not_not_intro departing), if_pos h]

theorem Room.waited_more {y : Room} (departing : y.state = .departing) (h : 1 < y.wait) : y.waited = { y with wait := y.wait - 1 } := by
  unfold Room.waited
  rw [if_neg (not_not_intro departing), if_neg (by omega)]

/-- A room that is not DEPARTING has no count. -/
theorem Room.idle_second {y : Room} (h : y.state ≠ .departing) (m : Minibar) : (y.scanEnds m).waited = y := by
  have still : y.scanEnds m = y := by
    unfold Room.scanEnds
    rw [if_neg fun e => h e.2, if_neg fun e => h e.2]
  rw [still]
  exact if_pos h

/-- A DEPARTING room in a second: what closes it, and the wait. -/
theorem Room.departing_second {y : Room} (departing : y.state = .departing) (m : Minibar) :
    (m.expires = true → (y.scanEnds m).waited = y.closed true) ∧ (m.endsEmpty = true → (y.scanEnds m).waited = y.closed false) ∧
    (m.expires ≠ true → m.endsEmpty ≠ true → (y.scanEnds m).waited = y.waited) := by
  refine ⟨fun h => ?_, fun h => ?_, fun scan window => by rw [Room.scanEnds_quiet scan window]⟩
  · rw [Room.scanEnds, if_pos ⟨h, departing⟩]
    exact y.closed_waited true
  · rw [Room.scanEnds_granted y (Minibar.endsEmpty_granted h), if_pos ⟨h, departing⟩]
    exact y.closed_waited false

/-- The minute tick makes no difference to a room that was DEPARTING. -/
theorem Room.departing_second_minute {y : Room} (departing : y.state = .departing) (m : Minibar) (grace minute : Nat) :
    ((y.scanEnds m).waited).overstayed grace minute = (y.scanEnds m).waited := by
  obtain ⟨scan, window, rest⟩ := y.departing_second departing m
  by_cases expires : m.expires = true
  · rw [scan expires, Room.closed_overstayed]
  · by_cases ends : m.endsEmpty = true
    · rw [window ends, Room.closed_overstayed]
    · rw [rest expires ends]
      by_cases last : y.wait ≤ 1
      · rw [Room.waited_last departing last, Room.closed_overstayed]
      · rw [Room.waited_more departing (by omega)]
        exact Room.overstayed_of_ne (by rw [departing]; nofun) _ _

theorem State.ClockInv.wraps_iff {s : State} (h : s.ClockInv) : s.clock.wraps = true ↔ s.clock.state = .running ∧ s.clock.second = 59 := by
  unfold Clock.wraps
  have inMinute := h.1
  rw [decide_eq_true_iff]
  exact and_congr_right fun _ => by omega

/-- The minute of a second that wraps. -/
theorem State.ClockInv.nextMinute {s : State} (h : s.ClockInv) (wraps : s.clock.wraps = true) :
    (s.clock.addSeconds 1).minute = s.clock.minute + 1 := by
  obtain ⟨run, last⟩ := h.wraps_iff.1 wraps
  rw [h.addSeconds_one]
  unfold Clock.nextSecond
  rw [if_neg (by omega), if_pos run]

/-- The rooms of a running second, DEPARTING and OCCUPIED. -/
theorem State.Counted.departing {s t : State} (h : s.Counted t) {r : Fin 48} (departing : s.rooms[r].state = .departing) :
    t.rooms[r] = (s.rooms[r].scanEnds s.minibars[r]).waited := by
  rw [h.rooms, Room.departing_second_minute departing, ite_self]

theorem State.Counted.occupied {s t : State} (h : s.Counted t) {r : Fin 48} (occupied : s.rooms[r].state = .occupied) :
    t.rooms[r] = if s.clock.wraps then s.rooms[r].overstayed s.site.checkoutGrace (s.clock.addSeconds 1).minute else s.rooms[r] := by
  rw [h.rooms, Room.idle_second (by rw [occupied]; nofun)]

/-- Settles O19: every count a second moves, the rooms it closes, the minute tick's receivers, and the search at its end. -/
theorem secondMovesTheCounts : Obligations.SecondMovesTheCounts := by
  intro s ready counting clock binding line minuteTick
  have counted := s.tickRunning_counted binding line
  have revs := s.tickRunning_revs
  have run : exec .secondsTick s = .next s.tickRunning := by rw [State.exec_secondsTick, s.tickSecond_ready ready counting]
  have wraps : s.clock.wraps = true ↔ minuteTick := clock.wraps_iff
  refine ⟨s.tickRunning, run, fun l a d hd => ?_, fun r state n hn deadline => counted.window r state n hn deadline, counted.scan,
    fun r departing => ?_, fun r occupied => ⟨fun ⟨tick, due⟩ => ?_, fun still => ?_⟩, fun o running sensing => ⟨counted.waits o running sensing,
      fun last alone => ?_⟩, fun tick => ?_, fun no => ?_, counted.searches, counted.noSearch⟩
  · rw [counted.doors, hd]
    rfl
  · have room := counted.departing departing
    obtain ⟨scan, window, rest⟩ := s.rooms[r].departing_second departing s.minibars[r]
    refine ⟨fun h => room.trans (scan (decide_eq_true h)), fun h _ => room.trans (window (decide_eq_true h)),
      fun h _ => ⟨false, room.trans (window (decide_eq_true h))⟩, fun noScan noWindow => ?_⟩
    have waited := room.trans (rest (fun h => noScan (of_decide_eq_true h)) fun h => noWindow (of_decide_eq_true h))
    exact ⟨fun h => waited.trans (Room.waited_last departing h), fun h => waited.trans (Room.waited_more departing h)⟩
  · rw [counted.occupied occupied, if_pos (wraps.2 tick), clock.nextMinute (wraps.2 tick)]
    exact if_pos ⟨occupied, due⟩
  · rw [counted.occupied occupied]
    by_cases tick : s.clock.wraps = true
    · rw [if_pos tick, clock.nextMinute tick]
      exact if_neg fun h => still ⟨wraps.1 tick, h.2⟩
    · exact if_neg tick
  · obtain ⟨free, ended⟩ := counted.noCard o running sensing last alone
    rw [free]
    exact ⟨rfl, rfl, rfl, ended⟩
  · rw [revs, if_pos (wraps.2 tick), clock.nextMinute (wraps.2 tick)]
  · rw [revs, if_neg fun h => no (wraps.1 h)]

end Sys2Proof.Machine

namespace Sys2Proof.Machine

open Sys2Proof

/-! ## Quiet work: what a command does to the tables beside an advance, a copy record, a serial and an order of the lists -/

/-- What quiet work keeps of a room: its label, generation and issued mask, and whether a stay runs in it. -/
def Room.keys (x : Room) : Nat × Nat × Byte × Bool := (x.label, x.generation, x.issued, x.state.inStay)

/-- Quiet work: no serial is given, the Revocation List only loses entries, each room keeps its keys, and no minibar leaves its bounds. -/
structure State.Quiet (s t : State) : Prop where
  serial : t.serial = s.serial
  revs : t.revs.Sublist s.revs
  rooms : ∀ r : Fin 48, t.rooms[r].keys = s.rooms[r].keys
  minibars : ∀ r : Fin 48, s.minibars[r].Bounded → t.minibars[r].Bounded

theorem State.Quiet.refl (s : State) : s.Quiet s := ⟨rfl, .refl _, fun _ => rfl, fun _ => id⟩

theorem State.Quiet.trans {s t u : State} (h : s.Quiet t) (h' : t.Quiet u) : s.Quiet u where
  serial := h'.serial.trans h.serial
  revs := h'.revs.trans h.revs
  rooms r := (h'.rooms r).trans (h.rooms r)
  minibars r b := h'.minibars r (h.minibars r b)

theorem State.Quiet.foldl {ι : Type} {f : State → ι → State} (h : ∀ (u : State) i, u.Quiet (f u i)) (xs : List ι) (s : State) :
    s.Quiet (xs.foldl f s) :=
  foldl_keeps (I := fun u : State => s.Quiet u) (fun u i hu => hu.trans (h u i)) xs (.refl s)

/-- Work that leaves the four tables is quiet. -/
theorem State.quiet_of_tables {s t : State} (serial : t.serial = s.serial) (revs : t.revs = s.revs) (rooms : t.rooms = s.rooms)
    (minibars : t.minibars = s.minibars) : s.Quiet t :=
  ⟨serial, by rw [revs], fun r => by rw [rooms], fun r => by rw [minibars]; exact id⟩

theorem State.OnLines.quiet {s t : State} (h : s.OnLines t) : s.Quiet t :=
  State.quiet_of_tables (congrArg State.serial h :) h.revs h.rooms h.minibars

theorem State.quiet_of_records {s t : State} (h : t.records = s.records) : s.Quiet t := (State.OnLines.of_records h).quiet

theorem State.ByEncoder.quiet {s t : State} (h : s.ByEncoder t) : s.Quiet t := by
  obtain ⟨_, _, _, _, _, rfl⟩ := h
  exact State.quiet_of_tables rfl rfl rfl rfl

/-! ### A minibar's record stays within its bounds (R116) -/

theorem Minibar.bounded_recharge {m : Minibar} (carried : m.carried ≤ 999999) (limit : m.limit ≤ 999999)
    (trays : ∀ t : Fin 8, m.trays[t].taken ≤ m.trays[t].stock ∧ m.trays[t].base ≤ m.trays[t].stock) : m.recharge.Bounded := by
  unfold Minibar.recharge
  split
  · exact ⟨le_refl _, carried, limit, trays⟩
  · exact ⟨Nat.le_of_not_lt ‹_›, carried, limit, trays⟩

theorem Minibar.Bounded.startStay {m : Minibar} (h : m.Bounded) : m.startStay.Bounded := by
  obtain ⟨-, -, limit, trays⟩ := h
  have based : ({ m with carried := 0, trays := m.trays.map fun t => { t with base := t.taken } } : Minibar).recharge.Bounded :=
    Minibar.bounded_recharge (Nat.zero_le _) limit fun t => by
      simp only [Fin.getElem_fin, Vector.getElem_map]
      exact ⟨(trays t).1, (trays t).1⟩
  exact based

theorem Minibar.Bounded.applyMark {m : Minibar} (h : m.Bounded) : m.applyMark.Bounded := by
  unfold Minibar.applyMark
  split
  · exact h.startStay
  · exact h

theorem Tray.read_bounded (t : Tray) (reading : Nat) (h : t.taken ≤ t.stock ∧ t.base ≤ t.stock) :
    (t.read reading).taken ≤ (t.read reading).stock ∧ (t.read reading).base ≤ (t.read reading).stock := by
  unfold Tray.read
  split_ifs
  · exact ⟨Nat.zero_le _, h.2⟩
  · exact h
  · exact ⟨Nat.min_le_right _ _, h.2⟩

theorem Tray.restock_bounded (t : Tray) (reading : Nat) (h : t.taken ≤ t.stock ∧ t.base ≤ t.stock) :
    (t.restock reading).taken ≤ (t.restock reading).stock ∧ (t.restock reading).base ≤ (t.restock reading).stock := by
  unfold Tray.restock
  split_ifs
  · exact h
  · exact ⟨Nat.zero_le _, Nat.zero_le _⟩

theorem Minibar.Bounded.weighed {m : Minibar} (h : m.Bounded) : m.weighed.Bounded := by
  obtain ⟨-, carried, limit, trays⟩ := h
  unfold Minibar.weighed
  split
  · refine Minibar.bounded_recharge (Nat.min_le_left _ _) limit fun t => ?_
    simp only [Minibar.applyRestock, Fin.getElem_fin, Vector.getElem_ofFn]
    split
    · exact trays t
    · exact Tray.restock_bounded _ _ (trays t)
  · refine Minibar.bounded_recharge carried limit fun t => ?_
    simp only [Minibar.applyReadings, Fin.getElem_fin, Vector.getElem_ofFn]
    split
    · exact trays t
    · exact Tray.read_bounded _ _ (trays t)

/-! ### The operations are quiet -/

theorem State.quiet_setLine (s : State) (l : Fin 2) (x : Line) : s.Quiet (s.setLine l x) := (s.onLines_setLine l x).quiet

theorem State.quiet_setDrop (s : State) (l : Fin 2) (a : Fin 64) (d : Drop) : s.Quiet (s.setDrop l a d) := (s.onLines_setDrop l a d).quiet

theorem State.quiet_setOwed (s : State) (l : Fin 2) (a : Fin 64) (o : Option Owed) : s.Quiet (s.setOwed l a o) := (s.onLines_setOwed l a o).quiet

theorem State.quiet_setQueue (s : State) (l : Fin 2) (q : List QMsg) : s.Quiet (s.setQueue l q) := (s.onLines_setQueue l q).quiet

theorem State.quiet_setActivity (s : State) (l : Fin 2) (x : Activity) : s.Quiet (s.setActivity l x) := s.quiet_setLine l _

theorem State.quiet_putDoor (s : State) (l : Fin 2) (a : Fin 64) (x : Option DoorSide) : s.Quiet (s.putDoor l a x) :=
  (s.onLines_putDoor l a x).quiet

theorem State.quiet_admitRequest (s : State) (q : Request) : s.Quiet (s.admitRequest q) := State.quiet_of_records (s.admitRequest_records q)

theorem State.quiet_rewriteSite (s : State) : s.Quiet s.rewriteSite := State.quiet_of_records s.rewriteSite_records

theorem State.quiet_rewriteRoom (s : State) (r : Fin 48) : s.Quiet (s.rewriteRoom r) := State.quiet_of_records (s.rewriteRoom_records r)

theorem State.quiet_complete (s : State) (b : Fin 16) (res : Result) (data : List Byte) : s.Quiet (s.complete b res data) :=
  State.quiet_of_records (s.complete_records b res data)

theorem State.quiet_completeFor (s : State) (o : Owner) (res : Result) (data : List Byte) : s.Quiet (s.completeFor o res data) :=
  State.quiet_of_records (s.completeFor_records o res data)

theorem State.quiet_search (s : State) : s.Quiet s.search := State.quiet_of_records s.search_records

/-- A room record written with the keys of the one that stood. -/
theorem State.quiet_putRoom (s : State) (r : Fin 48) (x : Room) (kept : x.keys = s.rooms[r].keys) : s.Quiet (s.putRoom r x) := by
  obtain ⟨m, k, e⟩ := s.putRoom_changes r x
  rw [e]
  refine ⟨rfl, .refl _, fun i => ?_, fun _ => id⟩
  show (s.rooms.set r x)[i].keys = _
  by_cases hi : i = r
  · subst hi
    rw [vector_set_same, kept]
  · rw [vector_set_ne _ _ hi]

/-- A minibar record written within bounds, given those of the one that stood. -/
theorem State.quiet_putMinibar (s : State) (r : Fin 48) (x : Minibar) (sound : s.minibars[r].Bounded → x.Bounded) : s.Quiet (s.putMinibar r x) := by
  obtain ⟨m, k, e⟩ := s.putMinibar_changes r x
  rw [e]
  refine ⟨rfl, .refl _, fun _ => rfl, fun i h => ?_⟩
  show (s.minibars.set r x)[i].Bounded
  by_cases hi : i = r
  · subst hi
    rw [vector_set_same]
    exact sound h
  · rw [vector_set_ne _ _ hi]
    exact h

theorem State.admitRequest_minibars (s : State) (q : Request) : (s.admitRequest q).minibars = s.minibars :=
  State.records_minibars (s.admitRequest_records q)

theorem State.admitRequest_rooms (s : State) (q : Request) : (s.admitRequest q).rooms = s.rooms :=
  State.records_rooms (s.admitRequest_records q)

/-- A request, and then a minibar record written within bounds. -/
theorem State.quiet_request_putMinibar (s : State) (q : Request) (r : Fin 48) (x : Minibar) (sound : s.minibars[r].Bounded → x.Bounded) :
    s.Quiet ((s.admitRequest q).putMinibar r x) :=
  (s.quiet_admitRequest q).trans (State.quiet_putMinibar _ r x (by rw [s.admitRequest_minibars]; exact sound))

/-! The rooms. -/

theorem State.quiet_closeRoom (s : State) (r : Fin 48) (scanned : Bool) (charge : Nat) (departing : s.rooms[r].state = .departing) :
    s.Quiet (s.closeRoom r scanned charge) := by
  unfold State.closeRoom
  refine State.Quiet.trans ?_ (State.quiet_completeFor _ _ _ _)
  refine State.Quiet.trans ?_ (State.quiet_admitRequest _ _)
  refine State.Quiet.trans ?_ (State.quiet_admitRequest _ _)
  exact s.quiet_putRoom r _ (by simp only [Room.keys, departing]; rfl)

theorem State.quiet_finalReport (s : State) (r : Fin 48) (scanned : Bool) (charge : Nat) : s.Quiet (s.finalReport r scanned charge) := by
  unfold State.finalReport
  split
  · exact s.quiet_closeRoom _ _ _ ‹_›
  · exact .refl s

theorem State.quiet_tickRoom (s : State) (r : Fin 48) : s.Quiet (s.tickRoom r) := by
  unfold State.tickRoom
  dsimp only
  split_ifs with departing
  · exact .refl s
  · exact s.quiet_closeRoom _ _ _ (not_not.1 departing)
  · exact s.quiet_putRoom _ _ rfl

theorem State.quiet_overstayTest (minute : Nat) (s : State) (r : Fin 48) : s.Quiet (State.overstayTest minute s r) := by
  unfold State.overstayTest
  dsimp only
  split
  · rename_i due
    exact (s.quiet_putRoom r _ (by simp only [Room.keys, due.1]; rfl)).trans (State.quiet_admitRequest _ _)
  · exact .refl s

theorem State.quiet_prune (s : State) (minute : Nat) : s.Quiet (s.prune minute) := by
  have fewer : s.Quiet { s with revs := s.revs.filter fun e => !e.expired minute } :=
    ⟨rfl, List.filter_sublist, fun _ => rfl, fun _ => id⟩
  exact fewer.trans (State.Quiet.foldl (fun u e => u.quiet_admitRequest _) _ _)

theorem State.quiet_minuteTick (s : State) (minute : Nat) : s.Quiet (s.minuteTick minute) :=
  (State.Quiet.foldl (State.quiet_overstayTest minute) allRooms s).trans (State.quiet_prune _ minute)

theorem State.quiet_guestGranted (s : State) (r : Fin 48) : s.Quiet (s.guestGranted r) := by
  unfold State.guestGranted
  dsimp only
  split
  · exact s.quiet_putRoom r _ rfl
  · exact .refl s

/-! The directed queue. -/

theorem State.quiet_minibarGrantLost (s : State) (r : Fin 48) (place cause : Nat) : s.Quiet (s.minibarGrantLost r place cause) := by
  unfold State.minibarGrantLost
  dsimp only
  split
  · exact .refl s
  · refine s.quiet_request_putMinibar _ r _ fun h => ?_
    split
    · exact Minibar.Bounded.applyMark (m := ({ s.minibars[r] with pending := none } : Minibar).rest .locked) h
    · exact h

theorem State.quiet_openLost (s : State) (l : Fin 2) (a : Fin 64) (asker : Asker) (cause : Nat) : s.Quiet (s.openLost l a asker cause) := by
  unfold State.openLost
  split
  · exact (s.doorGrantLost_onLines l a cause).quiet
  · split
    · exact .refl s
    · exact s.quiet_minibarGrantLost _ _ _
  · exact .refl s

theorem State.quiet_request (s : State) (l : Fin 2) (m : QMsg) : s.Quiet (s.request l m).1 := by
  have owe : s.Quiet (s.owe l m).1 := by
    unfold State.owe
    split
    · exact .refl s
    · exact s.quiet_setOwed _ _ _
  unfold State.request
  dsimp only
  split
  · exact owe
  · split
    · exact .refl s
    · split
      · have h := (s.quiet_setQueue l (s.lines[l].queue.map fun q => if q.addr = m.addr then m else q)).trans
          (State.quiet_setOwed _ l m.addr none)
        split
        · exact h.trans (State.quiet_openLost _ _ _ _ _)
        · exact h
      · split
        · exact (s.quiet_setQueue _ _).trans (State.quiet_setOwed _ _ _ _)
        · exact owe

theorem State.quiet_ask (s : State) (l : Fin 2) (a : Fin 64) (msg : Directed) (asker : Asker) : s.Quiet (s.ask l a msg asker) :=
  s.quiet_request l _

theorem State.quiet_disposeOne (l : Fin 2) (keep : Bool) (s : State) (m : QMsg) : s.Quiet (State.disposeOne l keep s m) := by
  have mark : s.Quiet (if keep ∧ (s.drop l m.addr).owed.isSome then s
      else s.setOwed l m.addr (some { msg := m.msg, asker := m.asker })) := by
    split
    · exact .refl s
    · exact s.quiet_setOwed _ _ _
  unfold State.disposeOne
  split
  · exact s.quiet_openLost _ _ _ _
  · exact mark
  · exact mark
  all_goals exact .refl s

theorem State.quiet_dispose (s : State) (l : Fin 2) : s.Quiet (s.dispose l) := by
  unfold State.dispose
  dsimp only
  refine State.Quiet.trans ?_ (State.Quiet.foldl (State.quiet_disposeOne l false) _ _)
  split
  · exact s.quiet_setLine _ _
  · exact (s.quiet_setLine _ _).trans (State.quiet_disposeOne _ _ _ _)

theorem State.quiet_placeOwed (s : State) (l : Fin 2) : s.Quiet (s.placeOwed l) := by
  refine State.Quiet.foldl (fun u a => ?_) _ s
  unfold State.placeOwedAt
  dsimp only
  split
  · exact .refl u
  · split
    · exact (u.quiet_setQueue _ _).trans (State.quiet_setOwed _ _ _ _)
    · exact .refl u

/-! The minibars. -/

theorem State.quiet_askMinibar (s : State) (r : Fin 48) (msg : Directed) : s.Quiet (s.askMinibar r msg) := by
  unfold State.askMinibar
  split
  · exact .refl s
  · exact s.quiet_ask _ _ _ _

theorem State.quiet_answerScan (s : State) (r : Fin 48) (m : Minibar) (purpose : Option ScanPurpose) (res : Result) (read missing : Byte) :
    s.Quiet (s.answerScan r m purpose res read missing) := State.quiet_of_records (s.answerScan_records r m purpose res read missing)

theorem State.quiet_reportFinal (s : State) (r : Fin 48) (isFinal scanned : Bool) : s.Quiet (s.reportFinal r isFinal scanned) := by
  unfold State.reportFinal
  split
  · exact s.quiet_finalReport _ _ _
  · exact .refl s

theorem State.quiet_finishScan (s : State) (r : Fin 48) (m : Minibar) (sound : s.minibars[r].Bounded → m.Bounded) : s.Quiet (s.finishScan r m) := by
  unfold State.finishScan
  dsimp only
  refine State.Quiet.trans ?_ (State.quiet_reportFinal _ _ _ _)
  refine State.Quiet.trans ?_ (State.quiet_answerScan _ _ _ _ _ _ _)
  refine State.Quiet.trans ?_ (State.quiet_rewriteRoom _ r)
  generalize hu : (if m.newFaults (m.purpose = some .restock) ≠ 0 then
    s.minibarFault r (s.minibarPlace r) 1 m.charge (m.newFaults (m.purpose = some .restock)) else s) = u
  have faulted : u.records = s.records := by
    rw [← hu]
    split
    · exact s.admitRequest_records _
    · rfl
  have entered := (u.scanEntry_records r m).trans faulted
  refine (State.quiet_of_records entered).trans ⟨rfl, .refl _, fun _ => rfl, fun i h => ?_⟩
  show ((u.scanEntry r m).minibars.set r (m.weighed.rest .locked).applyMark)[i].Bounded
  by_cases hi : i = r
  · subst hi
    rw [vector_set_same]
    rw [State.records_minibars entered] at h
    exact Minibar.Bounded.applyMark (m := m.weighed.rest .locked) (sound h).weighed
  · rw [vector_set_ne _ _ hi]
    exact h

theorem State.quiet_startScan (s : State) (r : Fin 48) (purpose : ScanPurpose) (single : Option Nat) : s.Quiet (s.startScan r purpose single) := by
  unfold State.startScan
  dsimp only
  split_ifs
  · exact s.quiet_finishScan _ _ id
  · cases single
    all_goals
      refine State.Quiet.trans ?_ (State.quiet_askMinibar _ _ _)
      exact s.quiet_putMinibar r _ id

theorem State.quiet_minibarReached (s : State) (r : Fin 48) : s.Quiet (s.minibarReached r) := by
  unfold State.minibarReached
  dsimp only
  split
  · exact s.quiet_putMinibar r _ fun h => Minibar.Bounded.applyMark (m := s.minibars[r].rest .locked) h
  · exact .refl s

theorem Minibar.Bounded.gone {m : Minibar} (h : m.Bounded) : m.offline.applyMark.Bounded := Minibar.Bounded.applyMark (m := m.offline) h

theorem State.quiet_minibarLost (s : State) (r : Fin 48) (place : Nat) : s.Quiet (s.minibarLost r place) := by
  unfold State.minibarLost
  dsimp only
  split
  · exact .refl s
  · exact s.quiet_putMinibar r _ .gone
  · refine State.Quiet.trans ?_ (State.quiet_reportFinal _ _ _ _)
    split
    · exact s.quiet_putMinibar r _ .gone
    · exact s.quiet_request_putMinibar _ r _ .gone
  · exact (s.quiet_putMinibar r _ .gone).trans (State.quiet_reportFinal _ _ _ _)
  · exact ((s.quiet_request_putMinibar _ r _ .gone).trans (State.quiet_answerScan _ _ _ _ _ _ _)).trans (State.quiet_reportFinal _ _ _ _)

theorem State.quiet_minibarWindowEnds (s : State) (r : Fin 48) : s.Quiet (s.minibarWindowEnds r) := by
  unfold State.minibarWindowEnds
  dsimp only
  split
  · exact s.quiet_startScan _ _ _
  · exact s.quiet_putMinibar r _ fun h => Minibar.Bounded.applyMark (m := s.minibars[r].rest .locked) h

theorem State.quiet_scanExpires (s : State) (r : Fin 48) : s.Quiet (s.scanExpires r) := by
  unfold State.scanExpires
  dsimp only
  refine State.Quiet.trans ?_ (State.quiet_reportFinal _ _ _ _)
  refine State.Quiet.trans ?_ (State.quiet_answerScan _ _ _ _ _ _ _)
  refine (s.quiet_askMinibar r .stopScan).trans (State.quiet_request_putMinibar _ _ r _ fun h => ?_)
  exact Minibar.Bounded.applyMark (m := (s.askMinibar r .stopScan).minibars[r].rest .locked) h

theorem State.quiet_tickMinibar (s : State) (r : Fin 48) : s.Quiet (s.tickMinibar r) := by
  unfold State.tickMinibar
  dsimp only
  split
  · split
    · exact .refl s
    · split
      · exact s.quiet_minibarWindowEnds r
      · exact s.quiet_putMinibar r _ id
  · split
    · exact s.quiet_scanExpires r
    · exact s.quiet_putMinibar r _ id
  all_goals exact .refl s

theorem State.quiet_finalRequested (s : State) (r : Fin 48) : s.Quiet (s.finalRequested r) := by
  unfold State.finalRequested
  dsimp only
  split
  · exact s.quiet_startScan _ _ _
  · refine State.Quiet.trans ?_ (State.quiet_askMinibar _ _ _)
    exact s.quiet_putMinibar r _ id
  · exact s.quiet_putMinibar r _ id
  · exact s.quiet_putMinibar r _ id
  · exact s.quiet_finalReport _ _ _

theorem State.quiet_putDeny (s : State) (r : Fin 48) (reason : Deny) : s.Quiet (s.putDeny r reason) := by
  obtain ⟨m, k, e⟩ := s.putDeny_changes r reason
  rw [e]
  exact State.quiet_of_tables rfl rfl rfl rfl

theorem State.quiet_minibarRead (s : State) (l : Fin 2) (a : Fin 64) (r : Fin 48) (c : List Byte) : s.Quiet (s.minibarRead l a r c) := by
  unfold State.minibarRead
  split
  · unfold State.minibarRefuse
    dsimp only
    refine State.Quiet.trans ?_ (State.quiet_putDeny _ _ _)
    refine State.Quiet.trans ?_ (State.quiet_admitRequest _ _)
    split
    · exact .refl s
    · exact s.quiet_request _ _
  · unfold State.minibarGrant
    dsimp only
    generalize ({ addr := a, msg := .openLock (s.drop l a).openTime, asker := .minibarUnit } : QMsg) = m
    refine (s.quiet_request l m).trans ?_
    split
    · refine State.Quiet.trans ?_ (State.quiet_admitRequest _ _)
      exact State.quiet_putMinibar _ r _ id
    · exact State.quiet_admitRequest _ _

theorem State.quiet_minibarOpened (s : State) (r : Fin 48) : s.Quiet (s.minibarOpened r) := by
  unfold State.minibarOpened
  dsimp only
  split
  · exact .refl s
  · refine s.quiet_putMinibar r _ fun h => ?_
    split
    · exact h
    · exact h

theorem State.quiet_latchReported (s : State) (r : Fin 48) : s.Quiet (s.latchReported r) := by
  unfold State.latchReported
  split
  · exact s.quiet_startScan _ _ _
  · exact .refl s

theorem State.quiet_minibarDoorOpen (s : State) (r : Fin 48) (place : Nat) : s.Quiet (s.minibarDoorOpen r place) := by
  unfold State.minibarDoorOpen
  dsimp only
  split
  · exact .refl s
  · exact .refl s
  · exact s.quiet_request_putMinibar _ r _ id
  · exact s.quiet_putMinibar r _ id
  · refine State.Quiet.trans ?_ (State.quiet_answerScan _ _ _ _ _ _ _)
    refine (s.quiet_askMinibar r .stopScan).trans ((State.quiet_admitRequest _ _).trans (State.quiet_request_putMinibar _ _ r _ ?_))
    rw [State.admitRequest_minibars]
    exact id

theorem State.quiet_minibarDoorClosed (s : State) (r : Fin 48) : s.Quiet (s.minibarDoorClosed r) := by
  unfold State.minibarDoorClosed
  dsimp only
  split
  · exact s.quiet_startScan _ _ _
  · exact .refl s

theorem State.quiet_trayReadings (s : State) (r : Fin 48) (first : Nat) (readings : List Nat) : s.Quiet (s.trayReadings r first readings) := by
  unfold State.trayReadings
  dsimp only
  split_ifs
  · exact .refl s
  · exact s.quiet_finishScan r _ id
  · exact s.quiet_putMinibar r _ id

/-! The doors. -/

theorem State.quiet_tickDoor (s : State) (p : Fin 2 × Fin 64) : s.Quiet (s.tickDoor p) := (s.tickDoor_spec p).1.quiet

theorem State.quiet_doorPresence (s : State) (l : Fin 2) (a : Fin 64) (p : Presence) : s.Quiet (s.doorPresence l a p) :=
  (s.doorPresence_spec l a p).1.onLines.quiet

theorem State.quiet_doorEntry (s : State) (l : Fin 2) (a : Fin 64) (kind : EntryKind) (value : Nat) : s.Quiet (s.doorEntry l a kind value) :=
  s.quiet_admitRequest _

theorem State.quiet_doorReport (s : State) (l : Fin 2) (a : Fin 64) (isOpen : Bool) (bolt : Bolt) (egress : Bool) :
    s.Quiet (s.doorReport l a isOpen bolt egress) := by
  unfold State.doorReport
  split
  · exact .refl s
  · dsimp only
    split
    · exact s.quiet_putDoor _ _ _
    · split
      · exact (s.quiet_putDoor _ _ _).trans (State.quiet_doorEntry _ _ _ _ _)
      · exact s.quiet_putDoor _ _ _
    · split
      · exact (s.quiet_putDoor _ _ _).trans (State.quiet_doorEntry _ _ _ _ _)
      · exact s.quiet_putDoor _ _ _
    · exact s.quiet_putDoor _ _ _

theorem State.quiet_noticeGuest (s : State) (cls : CardClass) (c : List Byte) : s.Quiet (s.noticeGuest cls c) := by
  unfold State.noticeGuest
  split
  · exact s.quiet_guestGranted _
  · exact .refl s

theorem State.quiet_doorRefuse (s : State) (l : Fin 2) (a : Fin 64) (c : List Byte) (reason : Deny) : s.Quiet (s.doorRefuse l a c reason) := by
  have entered (u : State) (q : Request) (h : s.Quiet u) : s.Quiet (u.admitRequest q) := h.trans (u.quiet_admitRequest q)
  unfold State.doorRefuse
  dsimp only
  split
  · refine State.Quiet.trans (entered _ _ ?_) (State.quiet_putDeny _ _ _)
    split
    · exact .refl s
    · exact s.quiet_request _ _
  · refine entered _ _ ?_
    split
    · exact .refl s
    · exact s.quiet_request _ _

theorem State.quiet_doorGrant (s : State) (l : Fin 2) (a : Fin 64) (cls : CardClass) (c : List Byte) : s.Quiet (s.doorGrant l a cls c) := by
  unfold State.doorGrant
  split
  · exact .refl s
  · split
    · exact (s.quiet_admitRequest _).trans (State.quiet_noticeGuest _ _ _)
    · unfold State.doorOpenGrant
      dsimp only
      refine (s.quiet_request l { addr := a, msg := .openLock (s.drop l a).openTime, asker := .doorUnit }).trans ?_
      split
      · exact ((State.quiet_putDoor _ _ _ _).trans (State.quiet_admitRequest _ _)).trans (State.quiet_noticeGuest _ _ _)
      · refine State.Quiet.trans ?_ (State.quiet_admitRequest _ _)
        split
        · exact State.quiet_admitRequest _ _
        · exact .refl _

theorem State.quiet_doorRead (s : State) (l : Fin 2) (a : Fin 64) (c : List Byte) : s.Quiet (s.doorRead l a c) := by
  unfold State.doorRead
  split
  · exact s.quiet_doorRefuse _ _ _ _
  · exact s.quiet_doorGrant _ _ _ _

theorem State.quiet_doorOpened (s : State) (l : Fin 2) (a : Fin 64) : s.Quiet (s.doorOpened l a) := by
  unfold State.doorOpened
  split
  · exact .refl s
  · split
    · exact .refl s
    · exact s.quiet_putDoor _ _ _

theorem State.quiet_zoneModeChanged (s : State) (z : Fin 8) (old new : ZoneMode) : s.Quiet (s.zoneModeChanged z old new) := by
  have asks (msg : Directed) (u : State) (p : Fin 2 × Fin 64) : u.Quiet (State.askGate z msg u p) := by
    unfold State.askGate
    split
    · exact u.quiet_ask _ _ _ _
    · exact .refl u
  have holds (u : State) (p : Fin 2 × Fin 64) : u.Quiet (State.zoneHeldAt z u p) := by
    unfold State.zoneHeldAt
    dsimp only
    split
    · split
      · split
        · exact (u.quiet_putDoor _ _ _).trans (State.quiet_doorEntry _ _ _ _ _)
        · exact u.quiet_putDoor _ _ _
      · exact .refl u
    · exact .refl u
  have frees (u : State) (p : Fin 2 × Fin 64) : u.Quiet (State.zoneFreedAt z u p) := by
    unfold State.zoneFreedAt
    dsimp only
    split
    · split
      · exact u.quiet_putDoor _ _ _
      · exact .refl u
    · exact .refl u
  unfold State.zoneModeChanged
  split_ifs
  · exact (State.Quiet.foldl (asks .hold) allDrops s).trans (State.Quiet.foldl holds allDrops _)
  · exact (State.Quiet.foldl (asks .latch) allDrops s).trans (State.Quiet.foldl frees allDrops _)
  · exact .refl s

/-! The lines. -/

theorem State.quiet_askZoneHold (s : State) (l : Fin 2) (a : Fin 64) : s.Quiet (s.askZoneHold l a) := by
  unfold State.askZoneHold
  split
  · exact s.quiet_ask _ _ _ _
  · exact .refl s

theorem State.quiet_tellOwner (s : State) (l : Fin 2) (a : Fin 64) : s.Quiet (s.tellOwner l a) := by
  unfold State.tellOwner
  dsimp only
  split
  · exact .refl s
  · exact s.quiet_doorPresence _ _ _
  · split
    · exact (s.quiet_doorPresence _ _ _).trans (State.quiet_askZoneHold _ _ _)
    · exact s.quiet_doorPresence _ _ _
  · split
    · split
      · exact s.quiet_minibarReached _
      · exact .refl s
    · exact s.quiet_minibarLost _ _

theorem State.quiet_rewriteDrop (s : State) (l : Fin 2) (a : Fin 64) : s.Quiet (s.rewriteDrop l a) :=
  State.quiet_of_records (s.rewriteDrop_records l a)

theorem State.quiet_rewriteRoomOf (s : State) (b : Option Binding) : s.Quiet (s.rewriteRoomOf b) :=
  State.quiet_of_records (s.rewriteRoomOf_records b)

theorem State.quiet_changeDrop (s : State) (l : Fin 2) (a : Fin 64) (d : Drop) (entry : Option (EntryKind × Nat)) :
    s.Quiet (s.changeDrop l a d entry) := by
  unfold State.changeDrop
  dsimp only
  split
  · exact s.quiet_setDrop _ _ _
  · refine (s.quiet_setDrop l a d).trans (State.Quiet.trans ?_ (((State.quiet_rewriteDrop _ l a).trans (State.quiet_rewriteRoomOf _ _)).trans
      (State.quiet_tellOwner _ _ _)))
    split
    · exact .refl _
    · exact State.quiet_admitRequest _ _

theorem State.quiet_endGo (s : State) (l : Fin 2) (res : Result) (surveyed : Bool) : s.Quiet (s.endGo l res surveyed) := by
  unfold State.endGo
  split
  · exact .refl s
  · exact (s.quiet_setLine _ _).trans (State.quiet_complete _ _ _ _)

theorem State.quiet_lineEntry (s : State) (l : Fin 2) (left : LineState) (cause : Nat) : s.Quiet (s.lineEntry l left cause) :=
  s.quiet_admitRequest _

theorem State.quiet_sweepDrops (s : State) (l : Fin 2) (f : Drop → Drop) : s.Quiet (s.sweepDrops l f) :=
  State.Quiet.foldl (fun u _ => u.quiet_changeDrop _ _ _ _) _ s

theorem State.quiet_setLineState (s : State) (l : Fin 2) (st : LineState) : s.Quiet (s.setLineState l st) :=
  (s.quiet_setLine l _).trans (State.quiet_rewriteSite _)

theorem State.quiet_setCause (s : State) (c : Half) : s.Quiet (s.setCause c) := State.quiet_of_records (s.setCause_records c)

theorem State.quiet_setRate (s : State) (l : Fin 2) (rate divisor : Nat) : s.Quiet (s.setRate l rate divisor) := s.quiet_setLine l _

theorem State.quiet_enterOff (s : State) (l : Fin 2) : s.Quiet (s.enterOff l) := by
  unfold State.enterOff
  dsimp only
  refine State.Quiet.trans ?_ (State.quiet_endGo _ _ _ _)
  refine State.Quiet.trans ?_ (State.quiet_lineEntry _ _ _ _)
  refine State.Quiet.trans ?_ (State.quiet_rewriteSite _)
  refine State.Quiet.trans ?_ (State.quiet_setRate _ _ _ _)
  exact ((s.quiet_setLine l _).trans (State.quiet_dispose _ l)).trans (State.quiet_sweepDrops _ l _)

theorem State.quiet_chooseExchange (s : State) (l : Fin 2) : s.Quiet (s.chooseExchange l) := by
  unfold State.chooseExchange
  dsimp only
  split
  · exact s.quiet_setActivity _ _
  · split
    · exact (s.quiet_setQueue _ _).trans (State.quiet_setActivity _ _ _)
    · split
      · exact .refl s
      · exact (s.quiet_setLine _ _).trans (State.quiet_setActivity _ _ _)

theorem State.quiet_pump (s : State) (l : Fin 2) : s.Quiet (s.pump l) := by
  unfold State.pump
  dsimp only
  split
  · split
    · exact s.quiet_enterOff _
    · exact s.quiet_setActivity _ _
    · exact s.quiet_chooseExchange _
  · exact .refl s

theorem State.quiet_settle (s : State) : s.Quiet s.settle := (s.quiet_pump 0).trans (State.quiet_pump _ 1)

/-- The minibars of a line told one after another of what becomes of it. -/
theorem State.quiet_minibarsLost (s : State) (l : Fin 2) : s.Quiet (s.minibarsLost l) := by
  refine State.Quiet.foldl (fun u a => ?_) _ s
  split
  · exact .refl u
  · exact u.quiet_minibarLost _ _

theorem State.quiet_minibarsReached (s : State) (l : Fin 2) : s.Quiet (s.minibarsReached l) := by
  refine State.Quiet.foldl (fun u a => ?_) _ s
  split
  · exact .refl u
  · split
    · exact u.quiet_minibarReached _
    · exact .refl u

theorem State.quiet_enterReady (s : State) (l : Fin 2) (cause : Nat) (surveyed : Bool) : s.Quiet (s.enterReady l cause surveyed) := by
  unfold State.enterReady
  dsimp only
  exact (((s.quiet_setActivity l _).trans (State.quiet_setLineState _ l _)).trans (State.quiet_lineEntry _ l _ _)).trans
    (State.quiet_endGo _ l _ _)

theorem State.quiet_enterRun (s : State) (l : Fin 2) (cause : Nat) (surveyed : Bool) : s.Quiet (s.enterRun l cause surveyed) := by
  unfold State.enterRun
  dsimp only
  refine State.Quiet.trans ?_ (State.quiet_endGo _ _ _ _)
  refine State.Quiet.trans ?_ (State.quiet_lineEntry _ _ _ _)
  exact (((s.quiet_setLine l _).trans (State.quiet_setLineState _ l _)).trans (State.quiet_placeOwed _ l)).trans
    (State.quiet_minibarsReached _ l)

theorem State.quiet_enterSurvey (s : State) (l : Fin 2) : s.Quiet (s.enterSurvey l) := by
  unfold State.enterSurvey
  dsimp only
  exact (((s.quiet_setLineState l _).trans (State.quiet_dispose _ l)).trans (State.quiet_setActivity _ l _)).trans
    (State.quiet_lineEntry _ l _ _)

theorem State.quiet_enterHush (s : State) (l : Fin 2) : s.Quiet (s.enterHush l) := by
  unfold State.enterHush
  dsimp only
  exact ((((s.quiet_setLineState l _).trans (State.quiet_dispose _ l)).trans (State.quiet_minibarsLost _ l)).trans
    (State.quiet_lineEntry _ l _ _)).trans (State.quiet_endGo _ l _ _)

theorem State.quiet_enterWake (s : State) (l : Fin 2) (cause : Nat) : s.Quiet (s.enterWake l cause) := by
  unfold State.enterWake
  dsimp only
  have entered := ((s.quiet_setLineState l .wake).trans (State.quiet_setActivity _ l .wakeBreak)).trans
    (State.quiet_lineEntry _ l s.lines[l].state cause)
  split
  · exact entered.trans (State.quiet_setCause _ _)
  · exact entered

theorem State.quiet_faultEndsGo (s : State) (l : Fin 2) : s.Quiet (s.faultEndsGo l) := by
  unfold State.faultEndsGo
  split
  · exact .refl _
  · split
    · exact State.quiet_enterOff _ _
    · exact State.quiet_endGo _ _ _ _

theorem State.quiet_enterFault (s : State) (l : Fin 2) : s.Quiet (s.enterFault l) := by
  unfold State.enterFault
  dsimp only
  refine State.Quiet.trans ?_ (State.quiet_faultEndsGo _ _)
  refine State.Quiet.trans ?_ (State.quiet_setCause _ _)
  refine State.Quiet.trans ?_ (State.quiet_lineEntry _ _ _ _)
  exact ((s.quiet_setLineState l _).trans (State.quiet_dispose _ l)).trans (State.quiet_sweepDrops _ l _)

theorem State.quiet_surveyOver (s : State) (l : Fin 2) : s.Quiet (s.surveyOver l) := by
  unfold State.surveyOver
  split
  · exact s.quiet_enterReady _ _ _
  · split
    · exact s.quiet_enterRun _ _ _
    · exact s.quiet_enterReady _ _ _

theorem State.quiet_surveyNext (s : State) (l : Fin 2) (a : Fin 64) : s.Quiet (s.surveyNext l a) := by
  unfold State.surveyNext
  dsimp only
  split_ifs
  · exact s.quiet_setActivity _ _
  · exact s.quiet_setActivity _ _
  · exact s.quiet_surveyOver _

/-! Replies and windows of a line. -/

theorem State.quiet_openDone (s : State) (l : Fin 2) (a : Fin 64) (asker : Asker) : s.Quiet (s.openDone l a asker) := by
  unfold State.openDone
  split
  · exact s.quiet_doorOpened _ _
  · split
    · exact .refl s
    · exact s.quiet_minibarOpened _
  · exact .refl s

theorem State.quiet_reportEnd (s : State) (l : Fin 2) (m : QMsg) (success : Bool) : s.Quiet (s.reportEnd l m success) := by
  unfold State.reportEnd
  split
  · split_ifs
    · exact .refl s
    · exact s.quiet_openDone _ _ _
    · exact s.quiet_openLost _ _ _ _
  · split
    · split
      · exact .refl s
      · exact s.quiet_latchReported _
    · exact .refl s
  all_goals exact .refl s

theorem State.quiet_endExchange (s : State) (l : Fin 2) (x : Exchange) (success : Bool) : s.Quiet (s.endExchange l x success) := by
  unfold State.endExchange
  dsimp only
  split
  · exact ((s.quiet_setActivity l _).trans (State.quiet_placeOwed _ l)).trans (State.quiet_reportEnd _ _ _ _)
  all_goals exact s.quiet_setActivity l _

theorem State.quiet_deliver (s : State) (l : Fin 2) (a : Fin 64) (r : Report) : s.Quiet (s.deliver l a r) := by
  unfold State.deliver
  split
  · split
    · exact s.quiet_minibarRead _ _ _ _
    · exact s.quiet_doorRead _ _ _
  · unfold State.deliverDoorState
    split
    · split
      · exact .refl s
      · exact s.quiet_doorReport _ _ _ _ _
      · exact s.quiet_doorReport _ _ _ _ _
      · split
        · exact s.quiet_minibarDoorOpen _ _
        · exact s.quiet_minibarDoorClosed _
    · exact .refl s
  · split
    · exact s.quiet_trayReadings _ _ _
    · exact .refl s

theorem State.quiet_answered (s : State) (l : Fin 2) (x : Exchange) (report : Option Report) : s.Quiet (s.answered l x report) := by
  unfold State.answered
  dsimp only
  have ended := (s.quiet_endExchange l x true).trans (State.quiet_setDrop _ l x.addr { (s.endExchange l x true).drop l x.addr with miss := 0 })
  split
  · exact ended.trans (State.quiet_setLine _ _ _)
  · exact ended.trans (State.quiet_setLine _ _ _)
  all_goals
    split
    · exact ended
    · exact ended.trans (State.quiet_deliver _ _ _ _)

theorem State.quiet_identified (s : State) (l : Fin 2) (a : Fin 64) (kind : Nat) (fast : Bool) : s.Quiet (s.identified l a kind fast) := by
  unfold State.identified
  dsimp only
  exact s.quiet_changeDrop _ _ _ _

theorem State.quiet_identTaken (s : State) (l : Fin 2) (x : Exchange) (kind : Nat) (fast : Bool) : s.Quiet (s.identTaken l x kind fast) := by
  unfold State.identTaken
  split
  · exact ((s.quiet_endExchange l x true).trans (State.quiet_identified _ l _ _ _)).trans (State.quiet_surveyNext _ _ _)
  · unfold State.returned
    dsimp only
    have back := ((s.quiet_endExchange l x true).trans (State.quiet_setLine _ l { (s.endExchange l x true).lines[l] with returning := none })).trans
      (State.quiet_identified _ l x.addr kind fast)
    split
    · exact back
    · exact back.trans (State.quiet_deliver _ _ _ _)

theorem State.quiet_takeReply (s : State) (l : Fin 2) (x : Exchange) (r : Reply) : s.Quiet (s.takeReply l x r) := by
  unfold State.takeReply
  split
  case h_6 => exact s.quiet_identTaken _ _ _ _
  all_goals exact s.quiet_answered _ _ _

theorem State.quiet_attemptFailed (s : State) (l : Fin 2) (x : Exchange) : s.Quiet (s.attemptFailed l x) := by
  unfold State.attemptFailed
  split_ifs
  · exact s.quiet_setActivity _ _
  · exact ((s.quiet_endExchange l x false).trans (State.quiet_changeDrop _ _ _ _ _)).trans (State.quiet_surveyNext _ _ _)
  · unfold State.failed
    dsimp only
    refine (s.quiet_endExchange l x false).trans (State.Quiet.trans ?_ (State.quiet_changeDrop _ _ _ _ _))
    split
    · exact State.quiet_setLine _ _ _
    · exact .refl _

theorem State.quiet_judgeReply (s : State) (l : Fin 2) (x : Exchange) (good : Option Reply) : s.Quiet (s.judgeReply l x good) := by
  unfold State.judgeReply
  refine State.Quiet.trans ?_ (State.quiet_settle _)
  split
  · exact s.quiet_takeReply _ _ _
  · exact s.quiet_attemptFailed _ _

theorem State.quiet_receive (s : State) (l : Fin 2) (x : Exchange) (chars : List LineChar) : s.Quiet (s.receive l x chars) := by
  unfold State.receive
  dsimp only
  split
  · exact s.quiet_setActivity _ _
  · exact s.quiet_judgeReply _ _ _

theorem State.quiet_reply (s : State) (l : Fin 2) (r : Reply) : s.Quiet (s.reply l r) := by
  unfold State.reply
  split
  · exact .refl s
  · split
    · exact s.quiet_judgeReply _ _ _
    · exact s.quiet_receive _ _ _

theorem State.quiet_rawReply (s : State) (l : Fin 2) (chars : List LineChar) : s.Quiet (s.rawReply l chars) := by
  unfold State.rawReply
  split
  · exact .refl s
  · exact s.quiet_receive _ _ _

theorem State.quiet_windowOut (s : State) (l : Fin 2) : s.Quiet (s.windowOut l) := by
  unfold State.windowOut
  split
  · exact .refl s
  · exact (s.quiet_attemptFailed l _).trans (State.quiet_settle _)

theorem State.quiet_putRate (s : State) (l : Fin 2) (rate divisor : Nat) : s.Quiet (s.putRate l rate divisor) := by
  unfold State.putRate
  dsimp only
  split
  · exact s.quiet_setRate _ _ _
  · exact (s.quiet_setRate _ _ _).trans (State.quiet_rewriteSite _)

theorem State.quiet_broadcastEnds (s : State) (l : Fin 2) : s.Quiet (s.broadcastEnds l) := by
  unfold State.broadcastEnds
  split
  · refine State.Quiet.trans ?_ (State.quiet_settle _)
    split
    · exact (s.quiet_setRate l _ _).trans (State.quiet_surveyOver _ _)
    · exact (s.quiet_putRate l _ _).trans (State.quiet_setActivity _ _ _)
  · exact (s.quiet_enterHush l).trans (State.quiet_settle _)
  all_goals exact .refl s

theorem State.quiet_longBreak (s : State) (l : Fin 2) : s.Quiet (s.longBreak l) := by
  unfold State.longBreak
  split
  case h_5 | h_6 | h_7 => exact .refl s
  all_goals exact s.quiet_enterFault l

theorem State.quiet_wakeAsked (s : State) (l : Fin 2) (millis : Nat) : s.Quiet (s.wakeAsked l millis) := by
  unfold State.wakeAsked
  dsimp only
  split_ifs
  · exact (s.quiet_admitRequest _).trans (State.quiet_enterWake _ _ _)
  · exact s.quiet_admitRequest _
  · exact .refl s

theorem State.quiet_watchClean (s : State) (l : Fin 2) : s.Quiet (s.watchClean l) := by
  unfold State.watchClean
  split
  · exact s.quiet_enterReady _ _ _
  · exact .refl s

theorem State.quiet_watchBroken (s : State) (l : Fin 2) : s.Quiet (s.watchBroken l) := by
  unfold State.watchBroken
  split
  · exact (s.quiet_setActivity l _).trans (State.quiet_endGo _ _ _ _)
  · exact .refl s

theorem State.quiet_breakSent (s : State) (l : Fin 2) : s.Quiet (s.breakSent l) := by
  unfold State.breakSent
  split
  · exact s.quiet_setActivity l _
  · exact .refl s

theorem State.quiet_settled (s : State) (l : Fin 2) : s.Quiet (s.settled l) := by
  unfold State.settled
  split
  · exact (s.quiet_enterRun l _ _).trans (State.quiet_settle _)
  · exact .refl s

theorem State.quiet_startGo (s : State) (l : Fin 2) (target : Target) : s.Quiet (s.startGo l target) := by
  unfold State.startGo
  split
  · exact State.quiet_endGo _ _ _ _
  · exact State.quiet_pump _ _
  · exact State.quiet_pump _ _
  · exact State.quiet_enterOff _ _
  · exact State.quiet_setActivity _ _ _
  · exact State.quiet_enterReady _ _ _ _
  · exact State.quiet_enterSurvey _ _
  · exact State.quiet_enterSurvey _ _
  · exact State.quiet_enterWake _ _ _
  · exact (State.quiet_enterRun _ _ _ _).trans (State.quiet_pump _ _)
  · exact .refl _

theorem State.quiet_takeGo (s : State) (b : Fin 16) (l : Fin 2) (target : Target) : s.Quiet (s.takeGo b l target) := by
  unfold State.takeGo
  refine State.Quiet.trans ?_ (State.quiet_startGo _ _ _)
  exact s.quiet_setLine l _

/-! Time. -/

theorem State.quiet_secondsReceivers (s : State) : s.Quiet s.secondsReceivers :=
  (((State.Quiet.foldl State.quiet_tickDoor allDrops s).trans (State.Quiet.foldl State.quiet_tickMinibar allRooms _)).trans
    (State.Quiet.foldl State.quiet_tickRoom allRooms _)).trans ((State.byEncoder_tickEncoder _).quiet.trans (State.quiet_search _))

theorem State.quiet_putClock (s : State) (c : Clock) : s.Quiet (s.putClock c) := State.quiet_of_tables rfl rfl rfl rfl

theorem State.quiet_tickRunning (s : State) : s.Quiet s.tickRunning := by
  rw [s.tickRunning_eq]
  refine State.Quiet.trans ?_ (State.quiet_settle _)
  have begun : s.Quiet s.secondBegins := by
    unfold State.secondBegins
    dsimp only
    split
    · exact (s.quiet_putClock _).trans (State.quiet_admitRequest _ _)
    · exact s.quiet_putClock _
  have received := begun.trans (State.quiet_secondsReceivers _)
  split
  · exact received.trans (State.quiet_minuteTick _ _)
  · exact received

theorem State.quiet_tickSecond (s : State) : s.Quiet s.tickSecond := by
  unfold State.tickSecond
  split_ifs
  · exact .refl s
  · exact s.quiet_tickRunning
  · unfold State.tickUnready
    dsimp only
    split
    · exact s.quiet_putClock _
    · exact State.quiet_of_tables rfl rfl rfl rfl

end Sys2Proof.Machine

namespace Sys2Proof.Machine

open Sys2Proof

/-! ## What every command keeps of rooms, minibars and counters -/

/-- Work that keeps the laws of the rooms and those of the minibars (R17 to R19, R116). -/
structure State.Sound (s t : State) : Prop where
  rooms : s.RoomInv → t.RoomInv
  minibars : s.MinibarInv → t.MinibarInv

/-- Work that gives at most one serial (R32). -/
def State.SerialRises (s t : State) : Prop := t.serial = s.serial ∨ t.serial = s.serial + 1 ∧ s.serial < 0xFFFFFFFF

/-- Work that keeps a room's generation, or advances it once (R19). -/
def State.GenerationRises (s t : State) (r : Fin 48) : Prop :=
  t.rooms[r].generation = s.rooms[r].generation ∨
    (t.rooms[r].generation = (s.rooms[r].generation + 1) % 256 ∧ t.rooms[r].issued = 0 ∧ ∀ g m, RevEntry.guest r g m ∉ t.revs)

/-- What a command between starts keeps: the laws of the rooms and minibars, and the counters' rise. -/
structure State.Lawful (s t : State) : Prop extends s.Sound t where
  serial : s.SerialRises t
  generations : ∀ r, s.GenerationRises t r

theorem State.Sound.refl (s : State) : s.Sound s := ⟨id, id⟩

theorem State.Sound.trans {s t u : State} (h : s.Sound t) (h' : t.Sound u) : s.Sound u := ⟨h'.rooms ∘ h.rooms, h'.minibars ∘ h.minibars⟩

theorem Room.keys_eq {x y : Room} (h : x.keys = y.keys) :
    x.label = y.label ∧ x.generation = y.generation ∧ x.issued = y.issued ∧ x.state.inStay = y.state.inStay := by
  simpa only [Room.keys, Prod.mk.injEq] using h

theorem State.Quiet.sound {s t : State} (h : s.Quiet t) : s.Sound t where
  rooms inv := by
    refine ⟨fun r k differ same => ?_, fun r out => ?_⟩
    · obtain ⟨label, -, -, -⟩ := Room.keys_eq (h.rooms r)
      obtain ⟨label', -, -, -⟩ := Room.keys_eq (h.rooms k)
      rw [label, label'] at same
      rw [label]
      exact inv.1 r k differ same
    · obtain ⟨-, -, issued, inStay⟩ := Room.keys_eq (h.rooms r)
      rw [issued]
      exact inv.2 r (inStay ▸ out)
  minibars inv r := h.minibars r (inv r)

theorem State.GenerationRises.after {s t u : State} {r : Fin 48} (h : s.GenerationRises t r) (quiet : t.Quiet u) : s.GenerationRises u r := by
  obtain ⟨-, generation, issued, -⟩ := Room.keys_eq (quiet.rooms r)
  unfold State.GenerationRises
  rw [generation, issued]
  exact h.imp_right fun ⟨up, empty, unlisted⟩ => ⟨up, empty, fun g m listed => unlisted g m (quiet.revs.subset listed)⟩

/-- Quiet work after lawful work. -/
theorem State.Lawful.after {s t u : State} (h : s.Lawful t) (quiet : t.Quiet u) : s.Lawful u where
  toSound := h.toSound.trans quiet.sound
  serial := by
    have kept := h.serial
    unfold State.SerialRises at kept ⊢
    rwa [quiet.serial]
  generations r := (h.generations r).after quiet

/-- Quiet work before lawful work. -/
theorem State.Quiet.before {s t u : State} (quiet : s.Quiet t) (h : t.Lawful u) : s.Lawful u where
  toSound := quiet.sound.trans h.toSound
  serial := by
    have kept := h.serial
    unfold State.SerialRises at kept ⊢
    rwa [quiet.serial] at kept
  generations r := by
    obtain ⟨-, generation, -, -⟩ := Room.keys_eq (quiet.rooms r)
    have kept := h.generations r
    unfold State.GenerationRises at kept ⊢
    rwa [generation] at kept

theorem State.Lawful.refl (s : State) : s.Lawful s := ⟨.refl s, .inl rfl, fun _ => .inl rfl⟩

theorem State.Quiet.lawful {s t : State} (h : s.Quiet t) : s.Lawful t := (State.Lawful.refl s).after h

/-- Work on the Revocation List alone. -/
theorem State.lawful_of_revs {s t : State} (serial : t.serial = s.serial) (rooms : t.rooms = s.rooms) (minibars : t.minibars = s.minibars) :
    s.Lawful t where
  rooms inv := by rw [State.RoomInv, rooms]; exact inv
  minibars inv := by rw [State.MinibarInv, minibars]; exact inv
  serial := .inl serial
  generations r := .inl (by rw [rooms])

/-! ### Rooms -/

/-- A room record written with a label no other room holds, and an issued mask that is empty outside a stay. -/
theorem State.sound_setRoom {s t : State} {r : Fin 48} {x : Room} (rooms : t.rooms = s.rooms.set r x) (minibars : t.minibars = s.minibars)
    (label : x.label = s.rooms[r].label ∨ x.label = 0 ∨ ∀ k, k ≠ r → s.rooms[k].label ≠ x.label)
    (mask : (s.rooms[r].state.inStay = false → s.rooms[r].issued = 0) → x.state.inStay = false → x.issued = 0) : s.Sound t where
  minibars inv := by rw [State.MinibarInv, minibars]; exact inv
  rooms inv := by
    obtain ⟨labels, masks⟩ := inv
    have alone (k : Fin 48) (differ : k ≠ r) (same : s.rooms[k].label = x.label) : x.label = 0 := by
      rcases label with kept | zero | free
      · rw [kept] at same ⊢
        exact labels r k differ.symm same.symm
      · exact zero
      · exact absurd same (free k differ)
    rw [State.RoomInv, rooms]
    refine ⟨fun k j differ same => ?_, fun k out => ?_⟩
    · by_cases hk : k = r
      · subst hk
        rw [vector_set_same, vector_set_ne _ _ (Ne.symm differ)] at same
        rw [vector_set_same]
        exact alone j (Ne.symm differ) same.symm
      · rw [vector_set_ne _ _ hk] at same ⊢
        by_cases hj : j = r
        · subst hj
          rw [vector_set_same] at same
          rw [same]
          exact alone k hk same
        · rw [vector_set_ne _ _ hj] at same
          exact labels k j differ same
    · by_cases hk : k = r
      · subst hk
        rw [vector_set_same] at out ⊢
        exact mask (masks k) out
      · rw [vector_set_ne _ _ hk] at out ⊢
        exact masks k out

/-- A room record written with the generation that stood. -/
theorem State.lawful_putRoom (s : State) (r : Fin 48) (x : Room) (generation : x.generation = s.rooms[r].generation)
    (label : x.label = s.rooms[r].label ∨ x.label = 0 ∨ ∀ k, k ≠ r → s.rooms[k].label ≠ x.label)
    (mask : (s.rooms[r].state.inStay = false → s.rooms[r].issued = 0) → x.state.inStay = false → x.issued = 0) : s.Lawful (s.putRoom r x) := by
  obtain ⟨m, k, e⟩ := s.putRoom_changes r x
  rw [e]
  refine ⟨State.sound_setRoom rfl rfl label mask, .inl rfl, fun i => .inl ?_⟩
  show (s.rooms.set r x)[i].generation = _
  by_cases hi : i = r
  · subst hi
    rw [vector_set_same, generation]
  · rw [vector_set_ne _ _ hi]

theorem guest_notMem_notOfRoom (revs : List RevEntry) (r : Fin 48) (g : Nat) (m : Byte) :
    RevEntry.guest r g m ∉ revs.filter (RevEntry.notOfRoom r) := by
  simp [RevEntry.notOfRoom]

/-- An advance: the generation rises by one, the issued mask is empty, and the list holds no entry of the room (R19, R71). -/
theorem State.lawful_advance (s : State) (r : Fin 48) (edit : Room → Room)
    (kept : ∀ x, (edit x).label = x.label ∧ (edit x).generation = x.generation ∧ (edit x).issued = x.issued) : s.Lawful (s.advance r edit) := by
  obtain ⟨label, generation, issued⟩ := kept s.rooms[r].advanced
  refine State.Lawful.after (t := { s with
    revs := s.revs.filter (RevEntry.notOfRoom r), rooms := s.rooms.set r (edit s.rooms[r].advanced) }) ?_ (State.quiet_rewriteRoom _ r)
  refine ⟨State.sound_setRoom rfl rfl (.inl label) fun _ _ => issued, .inl rfl, fun i => ?_⟩
  by_cases hi : i = r
  · subst hi
    refine .inr ?_
    dsimp only
    rw [vector_set_same]
    exact ⟨generation, issued, guest_notMem_notOfRoom _ i⟩
  · refine .inl ?_
    dsimp only
    rw [vector_set_ne _ _ hi]

theorem State.advance_serial (s : State) (r : Fin 48) (edit : Room → Room) : (s.advance r edit).serial = s.serial :=
  (State.quiet_rewriteRoom _ r).serial

theorem State.quiet_stayStarts (s : State) (r : Fin 48) : s.Quiet (s.stayStarts r) := by
  unfold State.stayStarts
  dsimp only
  split
  · exact s.quiet_putMinibar r _ fun h => h.startStay
  · exact s.quiet_putMinibar r _ fun h => h.startStay
  all_goals exact s.quiet_putMinibar r _ id

theorem State.lawful_recordCopy {s t : State} {r : Fin 48} {generation copy untilMinute : Nat} {mode : IssueMode}
    (taken : s.recordCopy r generation copy untilMinute mode = some t) : s.Lawful t := by
  unfold State.recordCopy at taken
  dsimp only at taken
  split at taken
  · cases taken
  · split at taken
    · split at taken
      · cases taken
        refine State.Lawful.after ?_ (State.quiet_admitRequest _ _)
        refine State.Lawful.after ?_ (State.quiet_stayStarts _ _)
        exact s.lawful_putRoom r _ rfl (.inl rfl) fun _ out => by cases out
      · cases taken
    · rename_i occupied
      cases taken
      refine s.lawful_putRoom r _ rfl (.inl rfl) fun _ out => ?_
      cases (congrArg RoomState.inStay occupied).symm.trans out
    · rename_i overstay
      split at taken
      · cases taken
        refine State.Lawful.after ?_ (State.quiet_admitRequest _ _)
        exact s.lawful_putRoom r _ rfl (.inl rfl) fun _ out => by cases out
      · cases taken
        refine s.lawful_putRoom r _ rfl (.inl rfl) fun _ out => ?_
        cases (congrArg RoomState.inStay overstay).symm.trans out
    all_goals cases taken

/-! ### The encoder -/

theorem State.quiet_send (s : State) (o : EncOrder) (st : EncState) (msg : EncMsg) (stage : Stage) : s.Quiet (s.send o st msg stage) :=
  (s.byEncoder_setEncoder _).quiet

theorem State.quiet_finishOrder (s : State) (o : EncOrder) (res : Result) : s.Quiet (s.finishOrder o res) :=
  ((s.byEncoder_endOrder o res).trans (State.byEncoder_arbitrate 17 _)).quiet

theorem State.quiet_ejectAndEnd (s : State) (o : EncOrder) (res : Result) : s.Quiet (s.ejectAndEnd o res) := s.quiet_send _ _ _ _

/-- A card is built after work that gave no serial: at most one serial is given in all. -/
theorem State.Lawful.buildAndWrite {s t : State} (h : s.Lawful t) (same : t.serial = s.serial) (o : EncOrder) : s.Lawful (t.buildAndWrite o) := by
  unfold State.buildAndWrite
  split
  · exact h.after (t.quiet_ejectAndEnd _ _)
  · split
    · exact h.after (t.quiet_ejectAndEnd _ _)
    · rename_i serial u given
      refine State.Lawful.after ?_ (u.quiet_send _ _ _ _)
      unfold State.takeSerial at given
      split at given
      · rename_i below
        cases given
        rw [same] at below
        exact ⟨⟨h.rooms, h.minibars⟩, .inr ⟨congrArg (· + 1) same, below⟩, h.generations⟩
      · cases given

theorem State.lawful_cardArrived (s : State) (o : EncOrder) : s.Lawful (s.cardArrived o) := by
  unfold State.cardArrived
  split
  · split
    · exact (s.quiet_ejectAndEnd _ _).lawful
    · rename_i r _ _ _ _ t asked
      unfold State.askAdvance at asked
      split at asked
      · cases asked
        exact (s.lawful_advance r id fun _ => ⟨rfl, rfl, rfl⟩).buildAndWrite (s.advance_serial r id) _
      · cases asked
  · split
    · exact (s.quiet_ejectAndEnd _ _).lawful
    · exact (State.Lawful.refl s).buildAndWrite rfl _

theorem State.lawful_cardFound (s : State) (o : EncOrder) (c : Option (List Byte)) : s.Lawful (s.cardFound o c) := by
  unfold State.cardFound
  dsimp only
  split
  · exact (s.quiet_ejectAndEnd _ _).lawful
  · split
    · exact (s.quiet_ejectAndEnd _ _).lawful
    · exact (s.quiet_send _ _ _ _).lawful
    · exact s.lawful_cardArrived _
    · exact s.lawful_cardArrived _

theorem State.quiet_cardIssued (s : State) (o : EncOrder) : s.Quiet (s.cardIssued o) :=
  (s.quiet_admitRequest _).trans (State.quiet_send _ _ _ _ _)

theorem State.lawful_verified (s : State) (o : EncOrder) : s.Lawful (s.verified o) := by
  unfold State.verified
  split
  · split
    · rename_i taken
      exact (State.lawful_recordCopy taken).after (State.quiet_cardIssued _ _)
    · exact (s.quiet_send _ _ _ _).lawful
  · exact (s.quiet_cardIssued _).lawful
  all_goals exact (s.quiet_send _ _ _ _).lawful

theorem State.quiet_writeFailed (s : State) (o : EncOrder) (attempt : Nat) : s.Quiet (s.writeFailed o attempt) := by
  unfold State.writeFailed
  split
  all_goals exact s.quiet_send _ _ _ _

theorem State.quiet_boundary (s : State) (o : EncOrder) : s.Quiet (s.boundary o) := by
  unfold State.boundary
  split_ifs
  · exact s.quiet_finishOrder _ _
  · exact (State.ByEncoder.trans ⟨_, _, _, _, _, rfl⟩ (State.byEncoder_arbitrate 17 _)).quiet
  · split
    · exact s.quiet_send _ _ _ _
    · exact s.quiet_finishOrder _ _

theorem State.quiet_spoilWritten (s : State) (o : EncOrder) (cause : Nat) : s.Quiet (s.spoilWritten o cause) :=
  (s.quiet_send _ _ _ _).trans (State.quiet_admitRequest _ _)

theorem State.quiet_spoilEjected (s : State) (o : EncOrder) (cause : Nat) : s.Quiet (s.spoilEjected o cause) := by
  unfold State.spoilEjected
  split_ifs
  · exact s.quiet_finishOrder _ _
  · exact s.quiet_finishOrder _ _
  · exact s.quiet_boundary _

theorem State.quiet_verifiedEjected (s : State) (o : EncOrder) : s.Quiet (s.verifiedEjected o) := by
  unfold State.verifiedEjected
  split
  · exact (s.quiet_admitRequest _).trans (State.quiet_finishOrder _ _ _)
  · split
    · exact s.quiet_boundary _
    · exact s.quiet_finishOrder _ _
  · exact s.quiet_finishOrder _ _

theorem State.quiet_takeDone (s : State) (stage : Stage) (o : EncOrder) : s.Quiet (takeDone stage o s) := by
  unfold takeDone
  split
  · exact s.quiet_send _ _ _ _
  · exact s.quiet_spoilWritten _ _
  · exact s.quiet_spoilEjected _ _
  · exact s.quiet_verifiedEjected _
  · exact s.quiet_finishOrder _ _
  all_goals exact .refl s

/-- An answer of the encoder, taken in any stage. -/
theorem State.lawful_takeAnswer (s : State) (o : EncOrder) (a : EncAnswer) : s.Lawful (s.takeAnswer o a) := by
  have answered : s.Quiet s.encAnswered := (s.byEncoder_setEncoder _).quiet
  unfold State.takeAnswer
  dsimp only
  cases a with
  | cardState card =>
    refine (answered.trans ?_).lawful
    simp only [takeCardState]
    split
    · split_ifs
      · exact State.quiet_send _ _ _ _ _
      · exact State.quiet_send _ _ _ _ _
      · exact .refl _
    · exact .refl _
  | image bytes =>
    refine answered.before ?_
    simp only [takeImage]
    split
    · exact State.lawful_cardFound _ _ _
    · split
      · exact State.lawful_verified _ _
      · exact (State.quiet_writeFailed _ _ _).lawful
    · exact .refl _
  | readFail =>
    refine answered.before ?_
    simp only [takeReadFail]
    split
    · exact State.lawful_cardFound _ _ _
    · exact (State.quiet_writeFailed _ _ _).lawful
    · exact .refl _
  | done => exact (answered.trans (State.quiet_takeDone _ _ _)).lawful
  | writeFail =>
    refine (answered.trans ?_).lawful
    simp only [takeWriteFail]
    split
    · exact State.quiet_writeFailed _ _ _
    · exact State.quiet_spoilWritten _ _ _
    · exact .refl _

theorem State.Lawful.encoderStep {s : State} {f : State → State} (h : s.Lawful (f s)) : s.Lawful (s.encoderStep f) := by
  unfold State.encoderStep
  dsimp only
  split
  · exact h
  · exact h.after (State.quiet_rewriteSite _)

theorem State.quiet_encAttemptFailed (s : State) (o : EncOrder) (x : EncExchange) : s.Quiet (s.encAttemptFailed o x) := by
  unfold State.encAttemptFailed
  split
  · exact State.quiet_of_tables rfl rfl rfl rfl
  · exact (s.byEncoder_setEncoder _).quiet.trans (State.quiet_finishOrder _ _ _)

theorem State.lawful_judgeAnswer (s : State) (o : EncOrder) (x : EncExchange) (good : Option EncAnswer) : s.Lawful (s.judgeAnswer o x good) := by
  refine State.Lawful.encoderStep ?_
  cases good with
  | some a => exact s.lawful_takeAnswer o a
  | none => exact (s.quiet_encAttemptFailed o x).lawful

theorem State.lawful_encReceive (s : State) (o : EncOrder) (x : EncExchange) (chars : List LineChar) : s.Lawful (s.encReceive o x chars) := by
  unfold State.encReceive
  dsimp only
  split
  · exact s.lawful_judgeAnswer _ _ _
  · split
    · exact (s.byEncoder_setEncoder _).quiet.lawful
    · exact s.lawful_judgeAnswer _ _ _

theorem State.lawful_encReply (s : State) (a : EncAnswer) : s.Lawful (s.encReply a) := by
  unfold State.encReply
  split
  · split
    · exact s.lawful_judgeAnswer _ _ _
    · exact s.lawful_encReceive _ _ _
  · exact .refl s

theorem State.lawful_encRaw (s : State) (chars : List LineChar) : s.Lawful (s.encRaw chars) := by
  unfold State.encRaw
  split
  · exact s.lawful_encReceive _ _ _
  · exact .refl s

theorem State.lawful_encTimeout (s : State) : s.Lawful s.encTimeout := by
  unfold State.encTimeout
  split
  · exact State.Lawful.encoderStep (s.quiet_encAttemptFailed _ _).lawful
  · exact .refl s

theorem State.quiet_pace (s : State) : s.Quiet s.pace := by
  unfold State.pace
  split
  · exact .refl s
  · split_ifs
    · exact .refl s
    · exact State.quiet_of_tables rfl rfl rfl rfl
    · exact s.quiet_send _ _ _ _

end Sys2Proof.Machine

namespace Sys2Proof.Machine

open Sys2Proof

/-! ### MINIBAR_SET keeps the bounds (R119) -/

theorem Tray.capped_bounded (t : Tray) : t.capped.taken ≤ t.capped.stock ∧ t.capped.base ≤ t.capped.stock :=
  ⟨Nat.min_le_right _ _, Nat.min_le_right _ _⟩

theorem MinibarFields.trayStep_bounded (f : MinibarFields) (t : Nat) (x : Tray) :
    (f.trayStep t x).taken ≤ (f.trayStep t x).stock ∧ (f.trayStep t x).base ≤ (f.trayStep t x).stock := by
  unfold MinibarFields.trayStep
  split
  · exact ⟨le_refl _, le_refl _⟩
  · split
    all_goals exact Tray.capped_bounded _

theorem Tray.recounted_bounded (t : Tray) (h : t.taken ≤ t.stock ∧ t.base ≤ t.stock) :
    t.recounted.taken ≤ t.recounted.stock ∧ t.recounted.base ≤ t.recounted.stock := by
  unfold Tray.recounted
  split_ifs
  · exact ⟨Nat.zero_le _, h.2⟩
  · exact h
  · split
    · exact h
    · split
      · exact h
      · exact ⟨Nat.min_le_right _ _, h.2⟩

theorem MinibarFields.apply_bounded (f : MinibarFields) (m : Minibar) (h : m.Bounded) : (f.apply m).Bounded := by
  obtain ⟨-, carried, -, -⟩ := h
  refine Minibar.bounded_recharge carried (Nat.min_le_right _ _) fun t => ?_
  simp only [Fin.getElem_fin, Vector.getElem_map, Vector.getElem_ofFn]
  exact Tray.recounted_bounded _ (f.trayStep_bounded _ _)

/-! ### The orders the table engine serves -/

theorem State.quiet_chooseOrder (s : State) : s.Quiet s.chooseOrder := State.quiet_of_tables rfl rfl rfl rfl

/-- An order served: what its body does, and what goes on elsewhere. -/
theorem State.lawful_serve {body : Held → State → State} {goOn : State → State} (s : State) (b : Fin 16) (k : OrderKind)
    (lawful : ∀ h : Held, s.Lawful (body h s)) (goesOn : ∀ u : State, u.Quiet (goOn u)) : s.Lawful (s.serve b k body goOn) := by
  rcases s.serve_cases b k body goOn with kept | ⟨h, -, -, -, -, served⟩
  · rw [kept]
    exact .refl s
  · rw [served]
    exact ((lawful h).after (State.quiet_chooseOrder _)).after (goesOn _)

theorem State.quiet_putSite (s : State) (x : Site) : s.Quiet (s.putSite x) := by
  have written : s.Quiet { s with site := x } := State.quiet_of_tables rfl rfl rfl rfl
  unfold State.putSite
  dsimp only
  split
  · exact written
  · exact written.trans (State.quiet_rewriteSite _)

theorem State.quiet_siteSetup (h : Held) (s : State) : s.Quiet (s.siteSetup h) := by
  unfold State.siteSetup
  dsimp only
  split_ifs
  · exact s.quiet_complete _ _ _
  · exact s.quiet_complete _ _ _
  · refine State.Quiet.trans ?_ (State.quiet_complete _ _ _ _)
    refine State.Quiet.trans ?_ (State.quiet_admitRequest _ _)
    exact s.quiet_putSite _

theorem State.quiet_passTo (s : State) (b : Fin 16) (o : Owner) : s.Quiet (s.passTo b o) := State.quiet_of_tables rfl rfl rfl rfl

theorem State.quiet_setClock (h : Held) (s : State) : s.Quiet (s.setClock h) := by
  unfold State.setClock
  dsimp only
  split_ifs
  · exact s.quiet_complete _ _ _
  · exact s.quiet_complete _ _ _
  · exact s.quiet_complete _ _ _
  · exact (((s.quiet_putClock _).trans (State.quiet_admitRequest _ _)).trans (State.quiet_minuteTick _ _)).trans (State.quiet_complete _ _ _ _)
  · exact ((s.quiet_putClock _).trans (State.quiet_admitRequest _ _)).trans (State.quiet_complete _ _ _ _)

theorem State.quiet_zoneSet (h : Held) (s : State) : s.Quiet (s.zoneSet h) := by
  unfold State.zoneSet
  dsimp only
  split
  · split
    · exact s.quiet_complete _ _ _
    · refine State.Quiet.trans ?_ (State.quiet_complete _ _ _ _)
      refine State.Quiet.trans ?_ (State.quiet_zoneModeChanged _ _ _ _)
      refine State.Quiet.trans ?_ (State.quiet_admitRequest _ _)
      exact State.quiet_of_tables rfl rfl rfl rfl
  · exact s.quiet_complete _ _ _

/-- An action taken in its state keeps generation and mask, and gives a label of its own or none (R17, R18). -/
theorem State.lawful_roomAction (s : State) (r : Fin 48) (action : RoomAction) (label : Nat) (fits : s.rooms[r].state = action.takenIn)
    (good : ¬ (action = .assign ∧ s.badLabel r label = true)) : s.Lawful (s.moveRoom r (action.apply label s.rooms[r]) false) := by
  have out : s.rooms[r].state.inStay = false := by
    rw [fits]
    cases action <;> rfl
  have issued : (action.apply label s.rooms[r]).issued = s.rooms[r].issued := by cases action <;> rfl
  refine State.Lawful.after ?_ (State.quiet_admitRequest _ _)
  refine s.lawful_putRoom r _ (by cases action <;> rfl) ?_ fun mask _ => issued.trans (mask out)
  cases action with
  | assign =>
    refine .inr (.inr fun k differ same => good ⟨rfl, ?_⟩)
    simp only [State.badLabel, Bool.or_eq_true, List.any_eq_true, decide_eq_true_eq]
    exact .inr ⟨k, mem_allRooms k, differ, same⟩
  | release => exact .inr (.inl rfl)
  | outOfService => exact .inl rfl
  | return_ => exact .inl rfl

theorem State.lawful_roomSet (h : Held) (s : State) : s.Lawful (s.roomSet h) := by
  unfold State.roomSet
  dsimp only
  split
  · split_ifs with bad elsewhere
    · exact (s.quiet_complete _ _ _).lawful
    · exact (s.quiet_complete _ _ _).lawful
    · exact (s.lawful_roomAction _ _ _ (not_not.1 elsewhere) bad).after (State.quiet_complete _ _ _ _)
  · exact (s.quiet_complete _ _ _).lawful

theorem State.lawful_checkout (h : Held) (s : State) : s.Lawful (s.checkout h) := by
  unfold State.checkout
  split
  · exact (s.quiet_complete _ _ _).lawful
  · rename_i r _
    split
    · unfold State.takeCheckout
      dsimp only
      refine State.Lawful.after ?_ (State.quiet_finalRequested _ _)
      refine State.Lawful.after ?_ (State.quiet_admitRequest _ _)
      refine State.Lawful.after ?_ (State.quiet_passTo _ _ _)
      exact s.lawful_advance r _ fun _ => ⟨rfl, rfl, rfl⟩
    · exact (s.quiet_complete _ _ _).lawful

theorem State.lawful_revoke (h : Held) (s : State) : s.Lawful (s.revoke h) := by
  unfold State.revoke
  split
  · exact (s.quiet_complete _ _ _).lawful
  · unfold State.serveRevokeGuest
    dsimp only
    refine State.Lawful.after ?_ (State.quiet_complete _ _ _ _)
    split
    · refine State.Lawful.after ?_ (State.quiet_rewriteRoom _ _)
      refine State.Lawful.after ?_ (State.quiet_admitRequest _ _)
      exact State.lawful_of_revs rfl rfl rfl
    · exact State.lawful_of_revs rfl rfl rfl
  · unfold State.serveRevokeStaff
    dsimp only
    refine State.Lawful.after ?_ (State.quiet_complete _ _ _ _)
    split
    · refine State.Lawful.after ?_ (State.quiet_admitRequest _ _)
      exact State.lawful_of_revs rfl rfl rfl
    · exact State.lawful_of_revs rfl rfl rfl

theorem State.lawful_unrevoke (h : Held) (s : State) : s.Lawful (s.unrevoke h) := by
  unfold State.unrevoke
  split
  · exact (s.quiet_complete _ _ _).lawful
  · unfold State.serveUnrevokeGuest
    dsimp only
    refine State.Lawful.after ?_ (State.quiet_complete _ _ _ _)
    split
    · refine State.Lawful.after ?_ (State.quiet_rewriteRoom _ _)
      refine State.Lawful.after ?_ (State.quiet_admitRequest _ _)
      exact State.lawful_of_revs rfl rfl rfl
    · exact State.lawful_of_revs rfl rfl rfl
  · unfold State.serveUnrevokeStaff
    split
    · refine State.Lawful.after ?_ (State.quiet_complete _ _ _ _)
      refine State.Lawful.after ?_ (State.quiet_admitRequest _ _)
      exact State.lawful_of_revs rfl rfl rfl
    · exact (s.quiet_complete _ _ _).lawful

theorem State.quiet_minibarSet (h : Held) (s : State) : s.Quiet (s.minibarSet h) := by
  have taken (b : Fin 16) (r : Fin 48) (f : MinibarFields) : s.Quiet (s.takeMinibarSet b r f) := by
    have put : s.Quiet (s.putMinibar r (f.apply s.minibars[r])) := s.quiet_putMinibar r _ (f.apply_bounded _)
    unfold State.takeMinibarSet
    dsimp only
    refine State.Quiet.trans ?_ (State.quiet_complete _ _ _ _)
    split
    · exact put.trans (State.quiet_admitRequest _ _)
    · exact put
  unfold State.minibarSet
  split
  · exact s.quiet_complete _ _ _
  · dsimp only
    split
    · exact s.quiet_complete _ _ _
    · split
      · exact taken _ _ _
      · exact taken _ _ _
      all_goals exact s.quiet_complete _ _ _

theorem State.quiet_minibarScan (h : Held) (s : State) : s.Quiet (s.minibarScan h) := by
  unfold State.minibarScan
  split
  · exact s.quiet_complete _ _ _
  · dsimp only
    split
    · exact s.quiet_complete _ _ _
    · split
      case h_5 => exact (s.quiet_passTo _ _).trans (State.quiet_startScan _ _ _ _)
      all_goals exact s.quiet_complete _ _ _

theorem State.quiet_bindDrop (s : State) (l : Fin 2) (a : Fin 64) (b : Binding) (openTime : Nat) : s.Quiet (s.bindDrop l a b openTime) := by
  have rejudged (u : State) : u.Quiet (u.rejudge l a b) := by
    unfold State.rejudge
    dsimp only
    split
    · exact u.quiet_rewriteRoomOf _
    · exact u.quiet_changeDrop _ _ _ _
  have doorBound (u : State) : u.Quiet (u.doorBound l a) := u.quiet_putDoor _ _ _
  have told (u : State) : u.Quiet (u.tellBound l a b) := by
    unfold State.tellBound
    dsimp only
    split
    · exact doorBound u
    · split
      · exact (doorBound u).trans (State.quiet_askZoneHold _ _ _)
      · exact doorBound u
    · split
      · exact u.quiet_minibarReached _
      · exact .refl u
  exact ((s.quiet_setDrop l a _).trans (rejudged _)).trans (told _)

theorem State.quiet_unbindDrop (s : State) (l : Fin 2) (a : Fin 64) (b : Binding) : s.Quiet (s.unbindDrop l a b) := by
  have told (u : State) : u.Quiet (u.tellUnbound l a b) := by
    unfold State.tellUnbound
    split
    · exact .refl u
    · exact .refl u
    · exact u.quiet_minibarLost _ _
  have unbound : s.Quiet ((s.unbound l a b).tellUnbound l a b) := by
    unfold State.unbound
    dsimp only
    refine State.Quiet.trans ?_ (told _)
    refine State.Quiet.trans ?_ (State.quiet_rewriteRoomOf _ _)
    refine State.Quiet.trans ?_ (State.quiet_setDrop _ _ _ _)
    unfold State.latchAsked
    split
    · exact s.quiet_ask _ _ _ _
    · exact .refl s
  rw [s.unbindDrop_eq]
  split
  · exact unbound.trans (State.quiet_changeDrop _ _ _ _ _)
  · exact unbound

theorem State.quiet_dropSet (h : Held) (s : State) : s.Quiet (s.dropSet h) := by
  unfold State.dropSet
  split
  · exact s.quiet_complete _ _ _
  · split
    · exact s.quiet_complete _ _ _
    · exact (s.quiet_bindDrop _ _ _ _).trans (State.quiet_complete _ _ _ _)
  · split
    · exact s.quiet_complete _ _ _
    · exact (s.quiet_unbindDrop _ _ _).trans (State.quiet_complete _ _ _ _)

theorem State.quiet_lineSetup (h : Held) (s : State) : s.Quiet (s.lineSetup h) := by
  have taken (b : Fin 16) (l : Fin 2) (u : Setup) : s.Quiet (s.takeSetup b l u) := by
    have put : s.Quiet (s.putSetup l u) := by
      unfold State.putSetup
      dsimp only
      split
      · exact s.quiet_setLine _ _
      · exact (s.quiet_setLine _ _).trans (State.quiet_rewriteSite _)
    unfold State.takeSetup
    split_ifs
    · exact s.quiet_complete _ _ _
    · exact put.trans (State.quiet_complete _ _ _ _)
    · exact s.quiet_complete _ _ _
  unfold State.lineSetup
  dsimp only
  split
  · split
    · exact taken _ _ _
    · exact s.quiet_complete _ _ _
  · exact s.quiet_complete _ _ _

theorem State.quiet_endDescriptor (s : State) (f : Filling) (st : EndStatus) : s.Quiet (s.endDescriptor f st) := by
  unfold State.endDescriptor
  dsimp only
  refine State.Quiet.trans ?_ (State.quiet_search _)
  refine State.Quiet.trans ?_ (State.quiet_setCause _ _)
  exact State.quiet_of_tables rfl rfl rfl rfl

theorem State.quiet_returnDescriptor (s : State) (f : Filling) : s.Quiet (s.returnDescriptor f) := by
  unfold State.returnDescriptor
  dsimp only
  refine State.Quiet.trans ?_ (State.quiet_search _)
  exact State.quiet_of_tables rfl rfl rfl rfl

theorem State.quiet_journalCut (h : Held) (s : State) : s.Quiet (s.journalCut h) := by
  have answers (u : State) (b : Fin 16) (f : Option Filling) (res : Result) : u.Quiet (u.answerCut b f res) := u.quiet_complete _ _ _
  unfold State.journalCut
  split
  · exact answers _ _ _ _
  · split
    · exact answers _ _ _ _
    · split_ifs
      · exact answers _ _ _ _
      · exact (s.quiet_returnDescriptor _).trans (answers _ _ _ _)
      · exact (s.quiet_endDescriptor _ _).trans (answers _ _ _ _)

theorem State.quiet_cancel (h : Held) (s : State) : s.Quiet (s.cancel h) := by
  unfold State.cancel
  split
  · exact s.quiet_complete _ _ _
  · split
    · refine State.Quiet.trans ?_ (State.quiet_complete _ _ _ _)
      exact State.quiet_of_tables rfl rfl rfl rfl
    · split
      · exact s.quiet_complete _ _ _
      · split
        · exact (s.quiet_complete _ _ _).trans (State.quiet_complete _ _ _ _)
        · unfold State.cancelEncoder
          split
          · refine State.Quiet.trans ?_ (State.quiet_complete _ _ _ _)
            refine State.Quiet.trans ?_ (State.quiet_complete _ _ _ _)
            exact State.quiet_of_tables rfl rfl rfl rfl
          · refine State.Quiet.trans ?_ (State.quiet_complete _ _ _ _)
            unfold State.markCancel
            split
            · exact .refl s
            · split
              · exact State.quiet_of_tables rfl rfl rfl rfl
              · exact .refl s
        all_goals exact s.quiet_complete _ _ _

/-! ### Intake -/

theorem State.quiet_hold (s : State) (h : Held) : s.Quiet (s.hold h) := State.quiet_of_tables rfl rfl rfl rfl

theorem State.quiet_handToEncoder (s : State) (h : Held) (o : Except Result EncOrder) : s.Quiet (s.handToEncoder h o) := by
  unfold State.handToEncoder
  split
  · exact s.quiet_complete _ _ _
  · refine (s.quiet_hold _).trans (State.byEncoder_encoderStep ?_).quiet
    exact (State.byEncoder_setEncoder _ _).trans (State.byEncoder_arbitrate 17 _)

theorem State.quiet_takeBlock (s : State) (b : Fin 16) : s.Quiet (s.takeBlock b) := by
  have handed (u : State) (h : Held) : u.Quiet (u.handOver h) := by
    unfold State.handOver
    split
    · exact u.quiet_handToEncoder _ _
    · exact u.quiet_handToEncoder _ _
    · exact u.quiet_handToEncoder _ _
    · unfold State.handToLine
      split
      · exact u.quiet_complete _ _ _
      · exact (u.quiet_hold _).trans (State.quiet_takeGo _ _ _ _)
    all_goals exact u.quiet_hold _
  unfold State.takeBlock
  dsimp only
  split
  · exact .refl s
  · split
    · refine State.Quiet.trans ?_ (State.quiet_complete _ _ _ _)
      exact State.quiet_of_tables rfl rfl rfl rfl
    · refine State.Quiet.trans ?_ (handed _ _)
      exact State.quiet_of_tables rfl rfl rfl rfl

theorem State.quiet_attentionWrite (s : State) (writes : List HostWrite) (value : Half) : s.Quiet (s.attentionWrite writes value) := by
  have intake (u : State) : u.Quiet u.intake := by
    have blocks : u.Quiet (allBlocks.foldl State.takeBlock { u with latch := false }) := by
      refine State.Quiet.trans ?_ (State.Quiet.foldl State.quiet_takeBlock _ _)
      exact State.quiet_of_tables rfl rfl rfl rfl
    unfold State.intake
    dsimp only
    split
    · exact blocks.trans (State.quiet_chooseOrder _)
    · exact blocks
  have written : s.Quiet (s.hostWrites writes) := State.quiet_of_tables rfl rfl rfl rfl
  unfold State.attentionWrite
  dsimp only
  split_ifs
  · exact .refl s
  · exact written.trans ((intake _).trans (State.quiet_search _))
  · exact written

theorem State.quiet_journalWrite (s : State) : s.Quiet s.journalWrite := by
  have entered (f : Filling) (e : Entry) (rest : List Entry) : s.Quiet (s.writeEntry f e rest) := by
    unfold State.writeEntry
    dsimp only
    refine State.Quiet.trans ?_ (State.quiet_rewriteSite _)
    split
    all_goals exact State.quiet_of_tables rfl rfl rfl rfl
  unfold State.journalWrite
  split
  · dsimp only
    split
    · exact entered _ _ _
    · exact (entered _ _ _).trans (State.quiet_endDescriptor _ _ _)
  · exact .refl s

/-! ### Every command between starts -/

theorem State.quiet_mainLost (s : State) : s.Quiet s.mainLost where
  serial := rfl
  revs := .refl _
  rooms r := by
    simp only [State.mainLost, Fin.getElem_fin, Vector.getElem_map]
    rfl
  minibars r h := by
    simp only [State.mainLost, Fin.getElem_fin, Vector.getElem_map]
    exact h

theorem State.quiet_if {s t : State} {p : Prop} [Decidable p] (h : s.Quiet t) : s.Quiet (if p then t else s) := by
  split
  · exact h
  · exact .refl s

theorem State.quiet_waitExpired (s : State) (r : Fin 48) (departing : s.rooms[r].state = .departing) : s.Quiet (s.waitExpired r) :=
  s.quiet_closeRoom r false _ departing

theorem State.quiet_tickGrant (s : State) (l : Fin 2) (a : Fin 64) : s.Quiet (s.tickGrant l a) := by
  unfold State.tickGrant
  split
  · exact .refl s
  · exact s.quiet_putDoor _ _ _

theorem State.quiet_tickHeld (s : State) (l : Fin 2) (a : Fin 64) : s.Quiet (s.tickHeld l a) := (s.tickHeld_spec l a).1.quiet

end Sys2Proof.Machine

namespace Sys2Proof.Machine

open Sys2Proof

/-- A command that is not a start (R17 to R19, R32, R116). -/
theorem exec_lawful {c : Instr} {s t : State} (between : startsPart c = false) (run : exec c s = .next t) : s.Lawful t := by
  cases c
  case softReset | coldStart | supplyStart | pinStart => cases between
  all_goals
    cases run
  case siteSetup b => exact s.lawful_serve b _ (fun h => (State.quiet_siteSetup h s).lawful) .refl
  case setClock b => exact s.lawful_serve b _ (fun h => (State.quiet_setClock h s).lawful) .refl
  case zoneSet b => exact s.lawful_serve b _ (fun h => (State.quiet_zoneSet h s).lawful) State.quiet_settle
  case roomSet b => exact s.lawful_serve b _ (State.lawful_roomSet · s) .refl
  case checkout b => exact s.lawful_serve b _ (State.lawful_checkout · s) State.quiet_settle
  case revoke b => exact s.lawful_serve b _ (State.lawful_revoke · s) .refl
  case unrevoke b => exact s.lawful_serve b _ (State.lawful_unrevoke · s) .refl
  case minibarSet b => exact s.lawful_serve b _ (fun h => (State.quiet_minibarSet h s).lawful) .refl
  case minibarScan b => exact s.lawful_serve b _ (fun h => (State.quiet_minibarScan h s).lawful) State.quiet_settle
  case dropSet b => exact s.lawful_serve b _ (fun h => (State.quiet_dropSet h s).lawful) State.quiet_settle
  case lineSetup b => exact s.lawful_serve b _ (fun h => (State.quiet_lineSetup h s).lawful) .refl
  case journalCut b => exact s.lawful_serve b _ (fun h => (State.quiet_journalCut h s).lawful) .refl
  case cancel b => exact s.lawful_serve b _ (fun h => (State.quiet_cancel h s).lawful) .refl
  case issue | readCard | eraseCard | lineGo | attentionLatchSet => exact (s.quiet_attentionWrite _ _).lawful
  case causeClear | maskWrite | startFlagsClear =>
    refine State.Quiet.lawful (State.quiet_if ?_)
    exact State.quiet_of_tables rfl rfl rfl rfl
  case mainSupplyFail =>
    refine (State.quiet_if ?_).lawful
    exact s.quiet_mainLost.trans (State.quiet_of_tables rfl rfl rfl rfl)
  case secondsTick => exact s.quiet_tickSecond.lawful
  case clockEnd => exact (State.quiet_if s.quiet_tickSecond).lawful
  case departingWaitExpiry r =>
    by_cases due : s.ticks = true ∧ s.rooms[r].state = .departing ∧ s.rooms[r].wait ≤ 1
    · rw [if_pos due]
      exact (s.quiet_waitExpired r due.2.1).lawful
    · rw [if_neg due]
      exact .refl s
  case grantDeadlineExpiry l a => exact (State.quiet_if (s.quiet_tickGrant l a)).lawful
  case doorHeld l a => exact (State.quiet_if (s.quiet_tickHeld l a)).lawful
  case minibarDeadlineExpiry r => exact (State.quiet_if ((s.quiet_minibarWindowEnds r).trans (State.quiet_settle _))).lawful
  case scanExpiry r => exact (State.quiet_if ((s.quiet_scanExpires r).trans (State.quiet_settle _))).lawful
  case cardWaitExpiry => exact (State.quiet_if s.byEncoder_tickEncoder.quiet).lawful
  case journalWrite => exact s.quiet_journalWrite.lawful
  case nil l | cardRead l _ | doorState l _ _ _ | trayData l _ _ _ | ident l _ _ | ack l => exact (s.quiet_reply l _).lawful
  case badReply l _ _ => exact (s.quiet_rawReply l _).lawful
  case replyWindowExpiry l => exact (s.quiet_windowOut l).lawful
  case broadcastWindowEnd l => exact (s.quiet_broadcastEnds l).lawful
  case longBreak l => exact (s.quiet_longBreak l).lawful
  case wakeRequest l millis => exact (s.quiet_wakeAsked l millis).lawful
  case faultWatchEnd l => exact (s.quiet_watchClean l).lawful
  case faultWatchBreak l => exact (s.quiet_watchBroken l).lawful
  case wakeBreakEnd l => exact (s.quiet_breakSent l).lawful
  case wakeSettleEnd l => exact (s.quiet_settled l).lawful
  case cardState | image | readFail | done | writeFail => exact s.lawful_encReply _
  case sensePace => exact s.quiet_pace.lawful
  case encoderBadReply => exact s.lawful_encRaw _
  case encoderReplyTimeout => exact s.lawful_encTimeout
  case clockCrystalStop =>
    refine State.Quiet.lawful ?_
    exact State.quiet_of_tables rfl rfl rfl rfl

/-- Settles O11: every command between starts is lawful; an advance and a serial come at most once in it. -/
theorem countersRise : Obligations.CountersRise := by
  intro c s t between run
  have lawful := exec_lawful between run
  exact ⟨lawful.serial, lawful.generations⟩

/-! ### Starts -/

theorem Room.restarted_keys (x : Room) : x.restarted.keys = x.keys := by
  unfold Room.restarted
  split
  · rename_i departing
    simp only [Room.keys, departing]
    rfl
  · rfl

theorem State.quiet_batteryKept (s : State) : s.Quiet s.batteryKept where
  serial := rfl
  revs := .refl _
  rooms r := by
    simp only [State.batteryKept, Fin.getElem_fin, Vector.getElem_map]
    exact Room.restarted_keys _
  minibars r h := by
    simp only [State.batteryKept, Fin.getElem_fin, Vector.getElem_map]
    exact h.applyMark

/-- The COLD records meet the laws. -/
theorem State.sound_batteryCold (s : State) : s.Sound s.batteryCold where
  rooms _ := by
    refine ⟨fun r k _ _ => ?_, fun r _ => ?_⟩
    all_goals
      simp only [State.batteryCold, Fin.getElem_fin, Vector.getElem_replicate]
      rfl
  minibars _ r := by
    simp only [State.batteryCold, Fin.getElem_fin, Vector.getElem_replicate]
    refine ⟨Nat.zero_le _, Nat.zero_le _, by decide, fun t => ?_⟩
    simp only [Minibar.cold, Fin.getElem_fin, Vector.getElem_replicate]
    exact ⟨le_refl _, le_refl _⟩

theorem State.sound_restores (s : State) : s.Sound s.restores := by
  have mirrors (u : State) : u.Quiet u.writeMirrors := by
    refine State.Quiet.trans (t := allRooms.foldl State.rewriteRoom u.rewriteSite) ?_ (State.quiet_of_tables rfl rfl rfl rfl)
    exact u.quiet_rewriteSite.trans (State.Quiet.foldl State.quiet_rewriteRoom _ _)
  have cleared (u : State) : u.Quiet { u with ram := u.ram.clear 0 0xB00 } := State.quiet_of_tables rfl rfl rfl rfl
  unfold State.restores
  dsimp only
  refine State.Sound.trans ?_ (mirrors _).sound
  refine State.Sound.trans ?_ (cleared _).sound
  split
  · exact s.quiet_batteryKept.sound
  · exact s.sound_batteryCold

theorem State.sound_start (s : State) (k : StartKind) (f : Findings) (course : StartCourse) : s.Sound (s.start k f course) := by
  have begun (n : Nat) : s.Quiet (s.begins k n) := s.quiet_mainLost.trans (State.quiet_of_tables rfl rfl rfl rfl)
  have stops (u : State) : u.Quiet u.startStops := State.quiet_of_tables rfl rfl rfl rfl
  have tested (u : State) : u.Quiet (u.selfTests k f) := State.quiet_of_tables rfl rfl rfl rfl
  have entries (u : State) (rooms : List (Fin 48)) : u.Quiet (rooms.foldl State.restartEntry u.startEntry) :=
    (u.quiet_admitRequest _).trans (State.Quiet.foldl (fun v r => v.quiet_admitRequest _) _ _)
  have ends (u : State) : u.Quiet u.endStart := by
    unfold State.endStart
    dsimp only
    split
    · refine State.Quiet.trans ?_ (State.quiet_minuteTick _ _)
      exact State.quiet_of_tables rfl rfl rfl rfl
    · exact State.quiet_of_tables rfl rfl rfl rfl
  unfold State.start
  dsimp only
  generalize (if ((s.begins k course.seconds).selfTests k f).tableCheck = true then
    ((s.begins k course.seconds).selfTests k f).departing else []) = departing
  have restored := ((begun course.seconds).trans (tested _)).sound.trans (State.sound_restores _)
  split_ifs
  · exact (begun _).sound
  · exact ((begun _).trans (stops _)).sound
  · exact ((begun _).trans (tested _)).sound
  · exact restored
  · exact restored.trans (entries _ _).sound
  · exact restored.trans ((entries _ _).trans (ends _)).sound

theorem State.Sound.ite {s t : State} {p : Prop} [Decidable p] (h : s.Sound t) : s.Sound (if p then t else s) := by
  split
  · exact h
  · exact .refl s

/-- Every command, starts among them, keeps the laws of rooms and minibars. -/
theorem exec_sound {c : Instr} {s t : State} (run : exec c s = .next t) : s.Sound t := by
  cases starts : startsPart c with
  | false => exact (exec_lawful starts run).toSound
  | true =>
    cases c
    case softReset =>
      cases run
      exact State.Sound.ite (s.sound_start _ _ _)
    case coldStart =>
      cases run
      exact s.sound_start _ _ _
    case supplyStart =>
      cases run
      exact s.sound_start _ _ _
    case pinStart =>
      cases run
      exact State.Sound.ite (s.sound_start _ _ _)
    all_goals cases starts

theorem step_sound {s t : State} (run : step s = .next t) : s.Sound t := by
  unfold step at run
  split at run
  · cases run
    exact .refl s
  · rename_i c rest _
    have taken : s.Quiet { s with pending := rest } := State.quiet_of_tables rfl rfl rfl rfl
    exact taken.sound.trans (exec_sound run)

/-- Settles O6: every command keeps the laws, those of a start by the kept or the COLD records. -/
theorem roomsAndMinibarsKept : Obligations.RoomsAndMinibarsKept :=
  ⟨fun _ _ inv run => (step_sound run).rooms inv, fun _ _ inv run => (step_sound run).minibars inv⟩

end Sys2Proof.Machine

namespace Sys2Proof.Machine

open Sys2Proof

/-! ## ROOM_SET (R15 to R18) -/

/-- A byte of a room mirror after a rewriting. -/
theorem State.byte_rewriteRoom (s : State) (r : Fin 48) (i : Nat) (h : i < 32) :
    (s.rewriteRoom r).byte (0x480 + 32 * r.val + i) =
      (({ s with roomCounts := s.roomCounts.set r (s.roomCounts[r] + 2) } : State).roomMirror r).getD i 0 := by
  refine (State.byte_store_in { s with roomCounts := s.roomCounts.set r (s.roomCounts[r] + 2) } (roomMirrorAddr r) _
    (0x480 + 32 * r.val + i) (Nat.le_add_right _ _) ?_).trans ?_
  · rw [State.roomMirror_length]
    exact Nat.add_lt_add_left h _
  · rw [roomMirrorAddr, Nat.add_sub_cancel_left]

/-- After a rewriting the room mirror shows label and state (R15). -/
theorem State.rewriteRoom_showsRoom (s : State) (r : Fin 48) :
    (s.rewriteRoom r).field (0x482 + 32 * r.val) 2 = s.rooms[r].label % 65536 ∧
    (s.rewriteRoom r).byte (0x484 + 32 * r.val) = byteOf s.rooms[r].state.code := by
  constructor
  · rw [show 0x482 + 32 * r.val = roomMirrorAddr r + 2 by unfold roomMirrorAddr; omega]
    refine (State.field_store _ (roomMirrorAddr r) _ 2 2 (by simp)).trans ?_
    exact leNat_leBytes 2 s.rooms[r].label
  · rw [show 0x484 + 32 * r.val = 0x480 + 32 * r.val + 4 by omega, s.byte_rewriteRoom r 4 (by omega)]
    rfl

theorem RoomState.code_toNat (x : RoomState) : (byteOf x.code).toNat = x.code := by cases x <;> rfl

/-- A change of state is shown: the record, and then the room mirror (R15). -/
theorem State.putRoom_showsRoom (s : State) (r : Fin 48) (x : Room) (moved : x.state ≠ s.rooms[r].state) :
    (s.putRoom r x).field (0x482 + 32 * r.val) 2 = x.label % 65536 ∧ ((s.putRoom r x).byte (0x484 + 32 * r.val)).toNat = x.state.code := by
  have differ : x.shown ≠ s.rooms[r].shown := fun same => moved (congrArg Room.state same :)
  have written : s.putRoom r x = ({ s with rooms := s.rooms.set r x } : State).rewriteRoom r := if_neg differ
  obtain ⟨label, state⟩ := ({ s with rooms := s.rooms.set r x } : State).rewriteRoom_showsRoom r
  rw [written, label, state, RoomState.code_toNat]
  dsimp only
  rw [vector_set_same]
  exact ⟨rfl, rfl⟩

/-- Bytes of a room mirror that later work keeps. -/
theorem State.KeepsBytes.showsRoom {s t : State} {part : Nat → Prop} (h : s.KeepsBytes t part) (r : Fin 48)
    (apart : ∀ x, ofRoomMirror r x → ¬ part x) :
    t.field (0x482 + 32 * r.val) 2 = s.field (0x482 + 32 * r.val) 2 ∧ t.byte (0x484 + 32 * r.val) = s.byte (0x484 + 32 * r.val) :=
  ⟨State.field_congr fun x low high => h x (apart x ⟨by omega, by omega⟩), h _ (apart _ ⟨by omega, by omega⟩)⟩

/-- An action taken, in full (R15, R16, R18). -/
theorem State.roomSet_taken (s : State) (b : Fin 16) (r : Fin 48) (y : Room) (moved : y.state ≠ s.rooms[r].state)
    (run : exec (.roomSet b) s = .next ((s.moveRoom r y false).complete b .ok []).chooseOrder) :
    ∃ t, exec (.roomSet b) s = .next t ∧ s.Completes t b .ok ∧ t.records = ({ s with rooms := s.rooms.set r y } : State).records ∧
      s.Asks t { kind := .roomState, room := r.val, subject := y.generation, value := y.state.code * 256 + s.rooms[r].state.code } ∧
      t.field (0x482 + 32 * r.val) 2 = y.label % 65536 ∧ (t.byte (0x484 + 32 * r.val)).toNat = y.state.code ∧
      s.KeepsBytes t fun x => ofResult b x ∨ ofDescriptors x ∨ ofSiteMirror x ∨ ofRoomMirror r x := by
  have reports := s.reports_moveRoom r y false
  have records := s.moveRoom_records r y false
  have request : roomStateRequest r y s.rooms[r].state false =
      { kind := .roomState, room := r.val, subject := y.generation, value := y.state.code * 256 + s.rooms[r].state.code } := rfl
  obtain ⟨label, state⟩ := s.putRoom_showsRoom r y moved
  obtain ⟨label', state'⟩ := ((s.putRoom r y).keepsBytes_admitRequest (roomStateRequest r y s.rooms[r].state false)).showsRoom r
    fun x room other => by
      simp only [ofRoomMirror, ofDescriptors, ofSiteMirror] at room other
      omega
  have moves : (s.putRoom r y).admitRequest (roomStateRequest r y s.rooms[r].state false) = s.moveRoom r y false := rfl
  rw [moves, label] at label'
  rw [moves] at state'
  rw [← state'] at state
  rw [request] at reports
  generalize s.moveRoom r y false = u at *
  have keeps := u.keepsBytes_complete b .ok []
  obtain ⟨label'', state''⟩ := keeps.showsRoom r fun x room other => by
    simp only [ofRoomMirror, ofResult] at room other
    omega
  refine ⟨_, run, State.completes_complete b .ok [] reports.held (reports.cause fun q hq => ?_), ?_, State.Logs.asks reports.logs,
    label''.trans label', (congrArg BitVec.toNat state'').trans state, ?_⟩
  · rw [List.mem_singleton.1 hq]
    rfl
  · rw [State.chooseOrder_records, State.complete_records, records]
  · refine State.KeepsBytes.chooseOrder ((reports.bytes.mono fun x => ?_).trans (keeps.mono fun x => .inl))
    rintro (room | descriptors | site)
    · exact .inr (.inr (.inr room))
    · exact .inr (.inl descriptors)
    · exact .inr (.inr (.inl site))

theorem State.badLabel_iff (s : State) (r : Fin 48) (label : Nat) :
    s.badLabel r label = true ↔ label = 0 ∨ 9999 < label ∨ ∃ k : Fin 48, k ≠ r ∧ s.rooms[k].label = label := by
  simp only [State.badLabel, Bool.or_eq_true, List.any_eq_true, decide_eq_true_eq, or_assoc]
  exact or_congr_right (or_congr_right ⟨fun ⟨k, _, held⟩ => ⟨k, held⟩, fun ⟨k, held⟩ => ⟨k, mem_allRooms k, held⟩⟩)

theorem RoomAction.ofCode_eq_none {n : Nat} (h : 3 < n) : RoomAction.ofCode n = none := by
  match n, h with
  | _ + 4, _ => rfl

section
variable (s : State) (h : Held)

theorem State.roomSet_bad (out : 48 ≤ leAt h.params 0 1 ∨ 3 < leAt h.params 1 1) : s.roomSet h = s.complete h.block .badParam [] := by
  unfold State.roomSet
  rcases out with room | action
  · rw [asFin_none room]
  · rw [RoomAction.ofCode_eq_none action]
    cases asFin 48 (leAt h.params 0 1) <;> rfl

variable {r : Fin 48} {action : RoomAction} (room : leAt h.params 0 1 = r.val) (code : RoomAction.ofCode (leAt h.params 1 1) = some action)
include room code

theorem State.roomSet_eq :
    s.roomSet h =
      if action = .assign ∧ s.badLabel r (leAt h.params 2 2) then s.complete h.block .badParam []
      else if s.rooms[r].state ≠ action.takenIn then s.complete h.block .roomState []
      else (s.moveRoom r (action.apply (leAt h.params 2 2) s.rooms[r]) false).complete h.block .ok [] := by
  unfold State.roomSet
  rw [room, asFin_val, code]

end

/-- Settles O27, by the action: refused for its fields, refused for the room's state, or taken. -/
theorem roomSetMovesTheRoom : Obligations.RoomSetMovesTheRoom := by
  intro s b h serves
  have hb := serves.block
  have run : exec (.roomSet b) s = .next (s.roomSet h).chooseOrder := congrArg Host.Outcome.next (serves.serve State.roomSet id)
  have refused (res : Result) (e : s.roomSet h = s.complete h.block res []) : ∃ t, exec (.roomSet b) s = .next t ∧ s.Refuses t b res :=
    ⟨_, run, by rw [e, hb]; exact s.refuses_complete b res []⟩
  dsimp only
  refine ⟨fun out => refused _ (s.roomSet_bad h out), fun r room => ⟨fun assign bad => ?_, ?_, fun y => ?_⟩⟩
  · rw [← s.badLabel_iff] at bad
    exact refused _ ((s.roomSet_eq h room (by rw [assign]; rfl)).trans (if_pos ⟨rfl, bad⟩))
  · have elsewhere {action : RoomAction} (code : RoomAction.ofCode (leAt h.params 1 1) = some action)
        (good : ¬ (action = .assign ∧ s.badLabel r (leAt h.params 2 2) = true)) (out : s.rooms[r].state ≠ action.takenIn) :=
      refused .roomState ((s.roomSet_eq h room code).trans ((if_neg good).trans (if_pos out)))
    rw [← s.badLabel_iff]
    rintro (⟨code, good, out⟩ | ⟨code | code, out⟩ | ⟨code, out⟩)
    · exact elsewhere (action := .assign) (by rw [code]; rfl) (fun bad => good bad.2) out
    · exact elsewhere (action := .release) (by rw [code]; rfl) (fun bad => nomatch bad.1) out
    · exact elsewhere (action := .outOfService) (by rw [code]; rfl) (fun bad => nomatch bad.1) out
    · exact elsewhere (action := .return_) (by rw [code]; rfl) (fun bad => nomatch bad.1) out
  · have taken {action : RoomAction} (code : RoomAction.ofCode (leAt h.params 1 1) = some action)
        (good : ¬ (action = .assign ∧ s.badLabel r (leAt h.params 2 2) = true)) (stands : s.rooms[r].state = action.takenIn)
        (applied : y = action.apply (leAt h.params 2 2) s.rooms[r]) := s.roomSet_taken b r y (by
        rw [applied, stands]
        cases action <;> exact nofun) (by
      have e := (s.roomSet_eq h room code).trans ((if_neg good).trans (if_neg (not_not.2 stands)))
      rw [← applied, hb] at e
      rw [run, e])
    rw [← s.badLabel_iff]
    rintro (⟨code, good, stands, applied⟩ | ⟨code, stands, applied⟩ | ⟨code, stands, applied⟩ | ⟨code, stands, applied⟩)
    · exact taken (action := .assign) (by rw [code]; rfl) (fun bad => good bad.2) stands applied
    · exact taken (action := .release) (by rw [code]; rfl) (fun bad => nomatch bad.1) stands applied
    · exact taken (action := .outOfService) (by rw [code]; rfl) (fun bad => nomatch bad.1) stands applied
    · exact taken (action := .return_) (by rw [code]; rfl) (fun bad => nomatch bad.1) stands applied

end Sys2Proof.Machine

namespace Sys2Proof.Machine

open Sys2Proof

/-! ## The last second at a door, and of a departing wait (R28, R30, R64, R67) -/

/-- A door-side record written with the door and bolt that stood: no mirror shows it (R50). -/
theorem State.putDoor_unshown (s : State) (l : Fin 2) (a : Fin 64) {d : DoorSide} (x : DoorSide) (door : (s.drop l a).door = some d)
    (same : x.shown = d.shown) : s.putDoor l a (some x) = s.setDrop l a { s.drop l a with door := some x } := by
  unfold State.putDoor
  dsimp only
  rw [door]
  exact if_pos (congrArg some same)

theorem or_getLsbD_two {c d e : Half} (h : e = c ||| d) (told : c.getLsbD 2 = true) : e.getLsbD 2 = true := by
  rw [h, BitVec.getLsbD_or, told, Bool.true_or]

/-- An ALARM entry that is admitted sets its cause (R168). -/
theorem State.admitRequest_tellsAlarm (s : State) (q : Request) (alarm : q.kind.isAlarm = true) (room : s.journal.queue.length < 32) :
    (s.admitRequest q).cause.getLsbD 2 = true := by
  have admits (u : State) : (u.admitOne q).cause.getLsbD 2 = true := by
    have searched (v : State) : (v.setCause causeAlarm).search.cause.getLsbD 2 = true := by
      have set : (v.setCause causeAlarm).cause.getLsbD 2 = true := by simp [State.setCause, causeAlarm]
      exact (State.maySetJournal_search (v.setCause causeAlarm)).elim (fun kept => by rw [kept]; exact set)
        fun journal => or_getLsbD_two journal set
    unfold State.admitOne
    dsimp only
    rw [if_pos alarm]
    split
    · exact or_getLsbD_two rfl (searched _)
    · exact searched _
  have fits : s.admitGap.journal.queue.length < 32 := by
    rw [show s.admitGap.journal.queue = s.books.tell.queue from congrArg Books.queue s.admitGap_books]
    unfold Books.tell
    split
    · rename_i due
      have below : s.journal.queue.length < 28 := due.2
      show (s.journal.queue ++ [_]).length < 32
      rw [List.length_append, List.length_singleton]
      omega
    · exact room
  have taken : (s.takeRequest q).cause.getLsbD 2 = true := by
    unfold State.takeRequest
    dsimp only
    rw [if_pos ((admissible_iff _ _).2 (by rwa [alarm, if_pos rfl]))]
    exact admits _
  unfold State.admitRequest
  dsimp only
  split
  · exact taken
  · exact taken

/-- The entries of a room that is closed (R28, R29). -/
def Room.closedEntries (x : Room) (r : Fin 48) (scanned : Bool) (charge : Nat) : List Request :=
  [{ kind := .finalCharge, room := r.val, subject := charge, value := flagBit !scanned },
   roomStateRequest r (x.closed !scanned) .departing (!scanned)]

/-- The result data of the CHECKOUT of a room that is closed (R30). -/
def Room.closedData (x : Room) (scanned : Bool) (charge : Nat) : List Byte := [byteOf x.generation, byteOf (flagBit !scanned), 0, 0] ++ leBytes 4 charge

theorem State.complete_books (s : State) (b : Fin 16) (res : Result) (data : List Byte) : (s.complete b res data).books = s.books := rfl

/-- An order that its owner completes, after work that has ended no other and set no cause but JOURNAL. -/
theorem State.completes_byOwner {s u : State} (b : Fin 16) (res : Result) (data : List Byte) (held : u.held = s.held) (cause : s.MaySetJournal u) :
    s.Completes (u.complete b res data) b res :=
  ⟨u.complete_ended b res data, by rw [State.complete_held, held], cause.causesAfter (u.complete_cause b res data)⟩

/-- A room that is closed, and then its CHECKOUT's end. -/
theorem State.closeRoom_spec (s : State) (r : Fin 48) (scanned : Bool) (charge : Nat) :
    ∃ u, s.closeRoom r scanned charge = u.completeFor (.roomTable r) .ok (s.rooms[r].closedData scanned charge) ∧
      s.Reports u (ofRoomMirror r) (s.rooms[r].closedEntries r scanned charge) ∧
      u.records = ({ s with rooms := s.rooms.set r (s.rooms[r].closed !scanned) } : State).records := by
  have record : ({ s.rooms[r] with state := RoomState.vacant, unscanned := !scanned, wait := 0 } : Room) = s.rooms[r].closed !scanned := rfl
  have data : [byteOf s.rooms[r].generation, byteOf (flagBit !scanned), 0, 0] ++ leBytes 4 charge =
      s.rooms[r].closedData scanned charge := rfl
  unfold State.closeRoom Room.closedEntries
  dsimp only
  rw [record, data]
  refine ⟨_, rfl, ?_, ?_⟩
  · exact ((s.reports_putRoom r _).trans (State.reports_admitRequest _ _ _)).trans (State.reports_admitRequest _ _ _)
  · rw [State.admitRequest_records, State.admitRequest_records, State.putRoom_records]

theorem Room.closedEntries_routine (x : Room) (r : Fin 48) (scanned : Bool) (charge : Nat) :
    ∀ q ∈ x.closedEntries r scanned charge, q.kind.isAlarm = false := by
  simp [Room.closedEntries, roomStateRequest, EntryKind.isAlarm]

theorem State.ticks_of {s : State} (ready : s.ready = true) (counting : s.counting = true) : s.ticks = true := by
  rw [State.ticks, ready, counting]
  rfl

/-- The last second of a grant deadline. -/
theorem State.grantDeadline_ends (s : State) (l : Fin 2) (a : Fin 64) (d : DoorSide) (n : Nat) (ticks : s.ticks = true)
    (door : (s.drop l a).door = some d) (deadline : d.deadline = some n) (last : n ≤ 1) :
    exec (.grantDeadlineExpiry l a) s = .next (s.setDrop l a { s.drop l a with door := some { d with
      deadline := none, latch := if d.latch = .granted ∧ d.pending = none then .latched else d.latch } }) := by
  have due : s.grantRunsOut l a = true := by
    simp only [State.grantRunsOut, door, deadline]
    exact decide_eq_true last
  have run : exec (.grantDeadlineExpiry l a) s = .next (s.tickGrant l a) := congrArg Host.Outcome.next (if_pos (by rw [ticks, due]; rfl))
  have counted : d.tickDeadline = { d with
      deadline := none, latch := if d.latch = .granted ∧ d.pending = none then .latched else d.latch } := by
    simp only [DoorSide.tickDeadline, deadline, if_pos last, Option.isNone_iff_eq_none]
  have ticked : s.tickGrant l a = s.putDoor l a (some d.tickDeadline) := by simp only [State.tickGrant, door]
  rw [run, ticked, counted]
  exact congrArg Host.Outcome.next (s.putDoor_unshown l a _ door rfl)

/-- The second that brings a held count to the limit. -/
theorem State.doorHeld_ends (s : State) (l : Fin 2) (a : Fin 64) (d : DoorSide) (ticks : s.ticks = true) (door : (s.drop l a).door = some d)
    (timer : d.timer = true) (alarm : d.alarm = false) (last : s.site.heldLimit ≤ min (d.heldCount + 1) 65535) :
    exec (.doorHeld l a) s = .next ((s.setDrop l a { s.drop l a with door := some { d with
      heldCount := min (d.heldCount + 1) 65535, alarm := true } }).doorEntry l a .doorHeld s.site.heldLimit) := by
  have due : s.heldTooLong l a = true := by
    simp only [State.heldTooLong, door, timer, alarm]
    exact decide_eq_true last
  have run : exec (.doorHeld l a) s = .next (s.tickHeld l a) := congrArg Host.Outcome.next (if_pos (by rw [ticks, due]; rfl))
  have ticked : s.tickHeld l a =
      (s.putDoor l a (some { d with heldCount := min (d.heldCount + 1) 65535, alarm := true })).doorEntry l a .doorHeld s.site.heldLimit := by
    simp [State.tickHeld, door, timer, alarm, last]
  rw [run, ticked]
  exact congrArg (fun u : State => Host.Outcome.next (u.doorEntry l a .doorHeld s.site.heldLimit)) (s.putDoor_unshown l a _ door rfl)

/-- Settles O20, by the count that ends. -/
theorem doorAndRoomCountsEnd : Obligations.DoorAndRoomCountsEnd := by
  refine ⟨fun s l a d n ready counting => s.grantDeadline_ends l a d n (State.ticks_of ready counting),
    fun s l a d ready counting door timer alarm last => ?_, fun s r h ready counting departing last held room => ?_⟩
  · have run := s.doorHeld_ends l a d (State.ticks_of ready counting) door timer alarm last
    generalize hu : s.setDrop l a { s.drop l a with door := some { d with heldCount := min (d.heldCount + 1) 65535, alarm := true } } = u at run ⊢
    have room : doorRoom (u.drop l a).binding = (match (s.drop l a).binding with
        | some (.door r) => r.val
        | _ => 255) := by
      rw [← hu, State.setDrop_same]
      rfl
    rw [State.doorEntry, placeOf_eq, room] at run
    generalize hq : ({ kind := .doorHeld, place := 128 * l.val + a.val, room := _, value := s.site.heldLimit } : Request) = q at run ⊢
    have alarms : q.kind.isAlarm = true := by rw [← hq]; rfl
    have first : s.Reports u (fun _ => False) [] := by rw [← hu]; exact s.reports_setDrop l a _ _
    have reports := first.trans (u.reports_admitRequest q _)
    refine ⟨_, run, u.admitRequest_records q, State.Logs.asks reports.logs, reports.held, fun short => ?_,
      reports.bytes.mono fun x part => part.resolve_left id⟩
    refine u.admitRequest_tellsAlarm q alarms ?_
    rwa [first.still rfl]
  · obtain ⟨u, closes, reports, records⟩ := s.closeRoom_spec r false s.minibars[r].charge
    have run : exec (.departingWaitExpiry r) s = .next (s.closeRoom r false s.minibars[r].charge) :=
      congrArg Host.Outcome.next (if_pos ⟨State.ticks_of ready counting, departing, last⟩)
    have ends : u.completeFor (.roomTable r) .ok (s.rooms[r].closedData false s.minibars[r].charge) =
        u.complete h.block .ok (s.rooms[r].closedData false s.minibars[r].charge) := by
      simp only [State.completeFor, State.heldBy_congr reports.held, held]
    rw [closes, ends] at run
    have ended := u.complete_resultAt h.block .ok (s.rooms[r].closedData false s.minibars[r].charge)
    have data : (s.rooms[r].closedData false s.minibars[r].charge).length = 8 := by simp [Room.closedData]
    refine ⟨_, run, (u.complete_records _ _ _).trans records, State.completes_byOwner h.block .ok _ reports.held
      (reports.cause (Room.closedEntries_routine _ _ _ _)), (reports.logs.trans_nil (u.complete_books _ _ _)).admits room, ?_, ?_, ?_, ?_⟩
    · rw [ended 0 1 (by omega) (by omega)]
      simp [Room.closedData, leNat]
    · rw [ended 1 1 (by omega) (by omega)]
      rfl
    · rw [ended 4 4 (by omega) (by omega)]
      exact leNat_leBytes 4 s.minibars[r].charge
    · refine (reports.bytes.mono fun x => ?_).trans ((u.keepsBytes_complete h.block .ok _).mono fun x => .inl)
      rintro (mirror | descriptors | site)
      · exact .inr (.inr (.inr mirror))
      · exact .inr (.inl descriptors)
      · exact .inr (.inr (.inl site))

end Sys2Proof.Machine

namespace Sys2Proof.Machine

open Sys2Proof

/-! ## The battery domain under a start cut short and the loss of the main supply (R175 to R177) -/

/-- The records of the battery domain that the loss of the main domain reaches in part or leaves (R175). -/
def State.battery (s : State) : Site × Vector Zone 8 × Nat × List RevEntry × Vector Room 48 × Vector Minibar 48 × Vector Line 2 :=
  (s.site, s.zones, s.serial, s.revs, s.rooms, s.minibars, s.lines)

/-- The records as the loss of the main domain leaves them. -/
structure State.BatteryStands (s t : State) : Prop where
  site : t.site = s.site
  zones : t.zones = s.zones
  serial : t.serial = s.serial
  revs : t.revs = s.revs
  room : ∀ r : Fin 48, t.rooms[r] = { s.rooms[r] with wait := 0 }
  minibar : ∀ r : Fin 48, t.minibars[r] = s.minibars[r].offline
  line : ∀ l : Fin 2, t.lines[l] = s.lines[l].restart

theorem State.batteryStands_of {s t : State} (h : t.battery = s.mainLost.battery) : s.BatteryStands t := by
  simp only [State.battery, Prod.mk.injEq] at h
  obtain ⟨site, zones, serial, revs, rooms, minibars, lines⟩ := h
  refine ⟨site, zones, serial, revs, fun r => ?_, fun r => ?_, fun l => ?_⟩
  · simp only [rooms, State.mainLost, Fin.getElem_fin, Vector.getElem_map]
  · simp only [minibars, State.mainLost, Fin.getElem_fin, Vector.getElem_map]
  · simp only [lines, State.mainLost, Fin.getElem_fin, Vector.getElem_map]

theorem State.drop_restarted {s t : State} (line : ∀ l : Fin 2, t.lines[l] = s.lines[l].restart) (l : Fin 2) (a : Fin 64) :
    t.drop l a = (s.drop l a).restart := by
  show t.lines[l].drops[a] = _
  rw [line]
  exact Line.restart_drop _ _

/-- The records the statement names: site, zones, serial, list, rooms and minibars. -/
theorem State.BatteryStands.kept {s t : State} (h : s.BatteryStands t) :
    t.site = s.site ∧ t.zones = s.zones ∧ t.serial = s.serial ∧ t.revs = s.revs ∧
    ∀ r : Fin 48, t.rooms[r] = { s.rooms[r] with wait := 0 } ∧ t.minibars[r] = s.minibars[r].offline :=
  ⟨h.site, h.zones, h.serial, h.revs, fun r => ⟨h.room r, h.minibar r⟩⟩

/-- Setups, bindings and open times of lines at their start values. -/
theorem State.bound_of_restarted {s t : State} (line : ∀ l : Fin 2, t.lines[l] = s.lines[l].restart) (l : Fin 2) :
    t.lines[l].setup = s.lines[l].setup ∧
      ∀ a : Fin 64, (t.drop l a).binding = (s.drop l a).binding ∧ (t.drop l a).openTime = (s.drop l a).openTime := by
  refine ⟨by rw [line]; rfl, fun a => ?_⟩
  rw [State.drop_restarted line]
  exact ⟨rfl, rfl⟩

/-- A start that has begun: the records stand, and the main domain is at its start values. -/
theorem State.begins_stands (s : State) (k : StartKind) (elapsed : Nat) : s.BatteryStands (s.begins k elapsed) := State.batteryStands_of rfl

theorem State.begins_fresh (s : State) (k : StartKind) (elapsed : Nat) : (s.begins k elapsed).MainFresh :=
  State.mainFresh_of ⟨rfl, rfl, rfl, rfl, rfl, rfl, rfl, rfl⟩ fun l => ⟨_, (s.begins_stands k elapsed).line l⟩

theorem State.startStops_fresh {s : State} (h : s.MainFresh) : s.startStops.MainFresh := h

theorem State.selfTests_fresh {s : State} (h : s.MainFresh) (k : StartKind) (f : Findings) : (s.selfTests k f).MainFresh := h

/-! ### A start cut short -/

section
variable (s : State) (k : StartKind) (f : Findings) (elapsed : Nat)

theorem State.start_begun : s.start k f { seconds := elapsed, reach := .begun } = s.begins k elapsed := by
  unfold State.start
  exact if_pos rfl

theorem State.start_faulty (tests : k.testsRam = true) (fault : f.ramOk = false) :
    s.start k f { seconds := elapsed, reach := .ended } = (s.begins k elapsed).startStops := by
  unfold State.start
  dsimp only
  rw [if_neg (by decide), if_pos (by rw [tests, fault]; rfl)]

variable (ram : f.ramOk = true)
include ram

theorem State.start_tested : s.start k f { seconds := elapsed, reach := .tested } = s.tested k f elapsed := by
  have good : ¬((k.testsRam && !f.ramOk) = true) := by simp [ram]
  unfold State.start State.tested
  dsimp only
  rw [if_neg (by decide), if_neg good, if_pos rfl]

theorem State.start_restored : s.start k f { seconds := elapsed, reach := .restored } = (s.tested k f elapsed).restores := by
  have good : ¬((k.testsRam && !f.ramOk) = true) := by simp [ram]
  unfold State.start State.tested
  dsimp only
  rw [if_neg (by decide), if_neg good, if_neg (by decide), if_pos rfl]

theorem State.start_journaled (check : (s.tested k f elapsed).tableCheck = true) :
    s.start k f { seconds := elapsed, reach := .journaled } =
      (s.tested k f elapsed).departing.foldl State.restartEntry (s.tested k f elapsed).restores.startEntry := by
  have good : ¬((k.testsRam && !f.ramOk) = true) := by simp [ram]
  unfold State.tested at check
  unfold State.start State.tested
  dsimp only
  rw [if_neg (by decide), if_neg good, if_neg (by decide), if_neg (by decide), if_pos rfl, if_pos check]

end

/-! ### The journal of a start's step 3 (R165, R166) -/

/-- A journal that has taken `n` ROUTINE requests and written none, in a part whose shared RAM holds no descriptor: 28 wait, the others are
counted as lost, and JOURNAL is set once 16 wait. -/
structure State.Filled (s : State) (n : Nat) : Prop where
  unarmed : s.Unarmed
  filling : s.journal.filling = none
  queue : s.journal.queue.length = min n 28
  gap : s.journal.gap = n - 28
  cause : s.cause = if 16 ≤ n then causeJournal else 0

theorem State.Filled.congr {s t : State} {n : Nat} (h : s.Filled n) (unarmed : t.Unarmed) (journal : t.journal = s.journal) (cause : t.cause = s.cause) :
    t.Filled n := ⟨unarmed, journal ▸ h.filling, journal ▸ h.queue, journal ▸ h.gap, cause.trans h.cause⟩

/-- One more entry that finds a place. -/
theorem State.Filled.admitOne {s : State} {n : Nat} (h : s.Filled n) (q : Request) (routine : q.kind.isAlarm = false) (room : n < 28) :
    (s.admitOne q).Filled (n + 1) := by
  have unarmed := h.unarmed.admitOne q
  obtain ⟨blank, filling, queue, gap, cause⟩ := h
  have searched (j : Journal) : ({ s with journal := j } : State).search = { s with journal := j } := State.Unarmed.search (blank.of_ram rfl)
  unfold State.admitOne at unarmed ⊢
  dsimp only at unarmed ⊢
  have calm : ¬(q.kind.isAlarm = true) := by rw [routine]; decide
  rw [if_neg calm, searched] at unarmed ⊢
  by_cases full : s.journal.queue.length + 1 = 16
  · rw [if_pos ⟨full, by rw [filling]; rfl⟩] at unarmed ⊢
    have fifteen : n = 15 := by omega
    subst fifteen
    refine ⟨unarmed, filling, ?_, gap.trans rfl, ?_⟩
    · show (s.journal.queue ++ [_]).length = _
      rw [List.length_append, List.length_singleton, queue]
      rfl
    · show s.cause ||| causeJournal = _
      rw [cause]
      decide
  · rw [if_neg fun both => full both.1] at unarmed ⊢
    refine ⟨unarmed, filling, ?_, gap.trans (by omega), cause.trans (if_congr (by omega) rfl rfl)⟩
    show (s.journal.queue ++ [_]).length = _
    rw [List.length_append, List.length_singleton, queue]
    omega

/-- One more request: an entry while there is room, one more lost when there is none. -/
theorem State.Filled.admitRequest {s : State} {n : Nat} (h : s.Filled n) (q : Request) (routine : q.kind.isAlarm = false) (few : n < 65535) :
    (s.admitRequest q).Filled (n + 1) := by
  have gapless : s.admitGap = s := if_neg fun due => by
    obtain ⟨lost, room⟩ := due
    have short : s.journal.queue.length < 28 := room
    have := h.queue
    have := h.gap
    omega
  have takes : (s.takeRequest q).Filled (n + 1) := by
    unfold State.takeRequest
    dsimp only
    rw [gapless]
    by_cases room : n < 28
    · rw [if_pos ((admissible_iff _ _).2 (by rw [routine, h.queue]; simp; omega))]
      exact h.admitOne q routine room
    · rw [if_neg fun fits => by
        have := (admissible_iff _ _).1 fits
        rw [routine, h.queue] at this
        simp at this
        omega]
      refine ⟨h.unarmed.of_ram rfl, h.filling, h.queue.trans (by omega), ?_, h.cause.trans (by rw [if_pos (by omega), if_pos (by omega)])⟩
      show min (s.journal.gap + 1) 65535 = _
      rw [h.gap]
      omega
  unfold State.admitRequest
  dsimp only
  split
  · exact takes
  · exact takes.congr takes.unarmed.rewriteSite rfl rfl

theorem State.Filled.restartEntries {s : State} {n : Nat} (h : s.Filled n) (rs : List (Fin 48)) (few : n + rs.length < 65535) :
    (rs.foldl State.restartEntry s).Filled (n + rs.length) := by
  induction rs generalizing s n with
  | nil => exact h
  | cons r rs ih =>
    rw [List.length_cons] at few
    have one : (s.restartEntry r).Filled (n + 1) := h.admitRequest _ rfl (by omega)
    rw [List.length_cons, show n + (rs.length + 1) = n + 1 + rs.length by omega]
    exact ih one (by omega)

theorem State.departing_length (s : State) : s.departing.length ≤ 48 := by
  unfold State.departing
  refine (List.length_filter_le _ _).trans ?_
  rw [allRooms_eq, List.length_finRange]

theorem entriesFrom_length (s : State) (seq : Nat) (qs : List Request) : (s.entriesFrom seq qs).length = qs.length := by
  induction qs generalizing seq with
  | nil => rfl
  | cons q qs ih => simp [State.entriesFrom, ih]

/-- The journal of a start cut after its step 3: the entries as far as 28 places go, the others lost. -/
theorem State.journaled_queue {u : State} (unarmed : u.Unarmed) (hj : u.journal = Journal.cold) (hc : u.cause = 0) (rs : List (Fin 48))
    (few : rs.length ≤ 48) {t : State} (run : rs.foldl State.restartEntry u.startEntry = t) :
    t.journal.queue = (t.entriesFrom 0 (u.restartRequests rs)).take 28 ∧ t.journal.gap = (u.restartRequests rs).length - 28 ∧
      t.cause = if 16 ≤ (u.restartRequests rs).length then 0x0002 else 0 := by
  have empty : u.Filled 0 := ⟨unarmed, by rw [hj]; rfl, by rw [hj]; rfl, by rw [hj]; rfl, hc⟩
  have filled := (empty.admitRequest { kind := .start, value := twoItems u.startFlags.toNat u.selfTest.code } rfl (by omega)).restartEntries rs (by omega)
  obtain ⟨reports, records⟩ := u.journaled_reports rs fun _ => False
  have requests : (u.restartRequests rs).length = 0 + 1 + rs.length := by
    rw [State.restartRequests, List.length_cons, List.length_map]
    omega
  have same : (rs.foldl State.restartEntry (u.admitRequest { kind := .start, value := twoItems u.startFlags.toNat u.selfTest.code })) = t := run
  rw [run] at reports records
  rw [same] at filled
  refine ⟨?_, by rw [filled.gap, requests], by rw [filled.cause, requests]; rfl⟩
  have first := reports.logs.first hj
  rw [← State.entriesFrom_congr (State.records_clock records)] at first
  refine (first.eq_of_length ?_).symm
  rw [List.length_take, entriesFrom_length, filled.queue, requests, Nat.min_comm]

/-! ### The obligation -/

/-- A SUPPLY, PIN or SOFT start whose shared RAM is good, as far as it goes, with the flag it adds (R176). -/
theorem State.start_kind_cut {s : State} {v : Half} {tablesOk crystalOk : Bool} {course : StartCourse} {c : Instr} {flag : BitVec 4}
    (starts : (c = .supplyStart true tablesOk crystalOk course ∧ flag = 2) ∨ (c = .pinStart tablesOk crystalOk course ∧ flag = 4 ∧ s.powered = true) ∨
      (c = .softReset v tablesOk crystalOk course ∧ flag = 8 ∧ s.powered = true ∧ v.getLsbD 0 = true)) :
    ∃ k : StartKind, k ≠ .cold ∧ k.flags s.startFlags = s.startFlags ||| flag ∧
      exec c s = .next (s.start k { ramOk := true, tablesOk := tablesOk, crystalOk := crystalOk } course) := by
  obtain ⟨rfl, rfl⟩ | ⟨rfl, rfl, powered⟩ | ⟨rfl, rfl, powered, soft⟩ := starts
  · exact ⟨.supply, by decide, rfl, rfl⟩
  · exact ⟨.pin, by decide, rfl, congrArg Host.Outcome.next (if_pos powered)⟩
  · exact ⟨.soft, by decide, rfl, congrArg Host.Outcome.next (if_pos (by rw [powered, soft]; rfl))⟩

theorem State.records_withMirrors (s : State) (m : Memory) (n : Half) (c : Vector Half 48) :
    ({ s with ram := m, siteCount := n, roomCounts := c } : State).records = s.records := rfl

/-- What steps 2 and 3 leave of rooms, minibars and lists when the table check is good (R33, R102). -/
theorem State.cut_carried {s t : State} {k : StartKind} {f : Findings} {elapsed : Nat}
    (records : t.records = (s.carried k f elapsed).records) (held : t.held = []) (engine : t.engine = none) :
    t.MainFresh ∧ s.KeepsTables t ∧ t.ready = false ∧ t.startFlags = k.flags s.startFlags ∧ t.mirrorsStand = true ∧ t.revs = s.revs ∧
    t.clock = s.clockAfter f.crystalOk elapsed ∧
    ∀ r : Fin 48, t.minibars[r] = s.minibars[r].offline.applyMark ∧
      t.rooms[r] = if s.rooms[r].state = .departing then
        { s.rooms[r] with state := .vacant, unscanned := true, wait := 0 } else { s.rooms[r] with wait := 0 } := by
  have rest : t.sansTick = (s.carried k f elapsed).sansTick :=
    State.sansTick_of_records (s := s.carried k f elapsed) records held engine
  obtain ⟨fresh, keeps⟩ := State.carried_keeps rest
  refine ⟨fresh, keeps, State.records_ready records, (congrArg State.startFlags records :), (congrArg State.mirrorsStand records :),
    (State.records_revs records).trans rfl, (State.records_clock records).trans rfl, fun r => ⟨?_, ?_⟩⟩
  · rw [State.records_minibars records]
    exact s.carried_minibars k f elapsed r
  · rw [State.records_rooms records, s.carried_rooms]
    rfl

theorem State.KeepsTables.bound {s t : State} (h : s.KeepsTables t) (l : Fin 2) :
    t.lines[l].setup = s.lines[l].setup ∧
      ∀ a : Fin 64, (t.drop l a).binding = (s.drop l a).binding ∧ (t.drop l a).openTime = (s.drop l a).openTime := by
  obtain ⟨-, -, -, lines⟩ := h
  obtain ⟨setup, drops⟩ := lines l
  refine ⟨setup, fun a => ?_⟩
  obtain ⟨binding, openTime, -, -⟩ := drops a
  exact ⟨binding, openTime⟩

/-- Settles O17, by where the start is cut. -/
theorem batteryDomainKept : Obligations.BatteryDomainKept := by
  intro s
  dsimp only
  refine ⟨fun tablesOk crystalOk elapsed => ?_, fun crystalOk => ?_, fun v tablesOk crystalOk elapsed reach c flag starts => ?_, fun powered => ?_⟩
  · have run : exec (.supplyStart false tablesOk crystalOk { seconds := elapsed, reach := .ended }) s =
        .next (s.begins .supply elapsed).startStops := congrArg Host.Outcome.next (s.start_faulty _ _ elapsed rfl rfl)
    have stands : s.BatteryStands (s.begins .supply elapsed).startStops := State.batteryStands_of rfl
    refine ⟨_, run, State.startStops_fresh (s.begins_fresh _ _), rfl, rfl, rfl, rfl, rfl, fun _ => rfl, Bool.and_true _, rfl, stands.kept,
      State.bound_of_restarted stands.line⟩
  · have run : exec (.coldStart { ramOk := false, crystalOk := crystalOk } .ended) s = .next (s.begins .cold 0).startStops :=
      congrArg Host.Outcome.next (s.start_faulty _ _ 0 rfl rfl)
    have stands : s.BatteryStands (s.begins .cold 0).startStops := State.batteryStands_of rfl
    exact ⟨_, run, State.startStops_fresh (s.begins_fresh _ _), rfl, rfl, rfl, rfl, rfl, fun _ => rfl, stands.kept,
      State.bound_of_restarted stands.line⟩
  · obtain ⟨k, hk, flags, run⟩ := State.start_kind_cut starts
    have warm : decide (k ≠ .cold) = true := decide_eq_true hk
    have checked : (s.begins k elapsed).tableCheck = s.tableCheck := by
      show (s.tableCheck && decide (k ≠ .cold)) = _
      rw [warm, Bool.and_true]
    generalize hf : ({ ramOk := true, tablesOk := tablesOk, crystalOk := crystalOk } : Findings) = f at run
    have ram : f.ramOk = true := by rw [← hf]
    refine ⟨fun begun => ?_, fun tested => ?_, fun later good tables => ?_⟩
    · subst begun
      rw [s.start_begun] at run
      have stands := s.begins_stands k elapsed
      exact ⟨_, ⟨run, s.begins_fresh k elapsed, rfl, flags, State.bound_of_restarted stands.line⟩, stands.kept, rfl, rfl, checked, rfl, rfl⟩
    · subst tested
      rw [s.start_tested k f elapsed ram] at run
      have stands : s.BatteryStands (s.tested k f elapsed) := State.batteryStands_of rfl
      refine ⟨_, ⟨run, State.selfTests_fresh (s.begins_fresh k elapsed) _ _, rfl, flags, State.bound_of_restarted stands.line⟩, stands.kept, rfl, rfl, ?_,
        rfl, by rw [← hf]; rfl⟩
      show ((s.begins k elapsed).tableCheck && f.tablesOk) = _
      rw [checked, ← hf]
    · have check : (s.tested k f elapsed).tableCheck = true := by
        show ((s.begins k elapsed).tableCheck && f.tablesOk) = true
        rw [checked, good, ← hf]
        exact tables
      have code : (s.tested k f elapsed).selfTest.code = if crystalOk then 0 else 3 := by
        show (codeOf (decide (k ≠ .cold) && !((s.begins k elapsed).tableCheck && f.tablesOk)) f.crystalOk).code = _
        rw [warm, checked, good, ← hf]
        dsimp only
        rw [tables]
        cases crystalOk <;> rfl
      have crystal : f.crystalOk = crystalOk := by rw [← hf]
      obtain ⟨m, n, counts, restores⟩ := s.tested_restores k f elapsed check
      rcases later with rfl | rfl
      · rw [s.start_restored k f elapsed ram, restores] at run
        obtain ⟨fresh, keeps, ready, startFlags, stand, revs, clock, each⟩ :=
          State.cut_carried ((s.carried k f elapsed).records_withMirrors m n counts) rfl rfl
        rw [crystal] at clock
        exact ⟨_, ⟨run, fresh, ready, startFlags.trans flags, keeps.bound⟩,
          keeps, stand, revs, clock, each, fun _ => ⟨rfl, rfl⟩, nofun⟩
      · rw [s.start_journaled k f elapsed ram check] at run
        obtain ⟨reports, records⟩ := (s.tested k f elapsed).restores.journaled_reports (s.tested k f elapsed).departing fun _ => False
        have journal := State.journaled_queue (s.tested k f elapsed).restores_unarmed (by rw [restores]; rfl) (by rw [restores]; rfl)
          (s.tested k f elapsed).departing (State.departing_length _) rfl
        generalize (s.tested k f elapsed).departing.foldl State.restartEntry (s.tested k f elapsed).restores.startEntry = t at *
        have requests : (s.tested k f elapsed).restores.restartRequests (s.tested k f elapsed).departing =
            s.startEntries (k.flags s.startFlags) (s.tested k f elapsed).selfTest.code := by
          rw [restores]
          exact s.carried_requests k f elapsed
        rw [restores] at records reports
        obtain ⟨fresh, keeps, ready, startFlags, stand, revs, clock, each⟩ :=
          State.cut_carried (records.trans (State.records_withMirrors _ m n counts)) reports.held reports.engine
        rw [crystal] at clock
        rw [requests, code, ← startFlags] at journal
        exact ⟨_, ⟨run, fresh, ready, startFlags.trans flags, keeps.bound⟩,
          keeps, stand, revs, clock, each, nofun, fun _ => journal⟩
  · have run : exec .mainSupplyFail s = .next { s.mainLost with powered := false, ram := [], selfTest := .ok } :=
      congrArg Host.Outcome.next (if_pos powered)
    have stands : s.BatteryStands { s.mainLost with powered := false, ram := [], selfTest := .ok } := State.batteryStands_of rfl
    exact ⟨_, run, rfl, rfl, rfl, rfl, rfl, rfl, stands.kept, State.bound_of_restarted stands.line⟩

end Sys2Proof.Machine

namespace Sys2Proof.Machine

open Sys2Proof

/-! ## The unit decides as the tables of R51 to R57 do -/

theorem CardClass.code_of {n : Nat} {cls : CardClass} (h : CardClass.ofCode n = some cls) : cls.code = n := by
  unfold CardClass.ofCode at h
  split at h <;> cases h <;> rfl

theorem CardClass.ofCode_code (cls : CardClass) : CardClass.ofCode cls.code = some cls := by cases cls <;> rfl

/-- The journal interlock, as R57 states it. -/
theorem State.journalBlocked_iff (s : State) : s.journalBlocked = true ↔ 28 ≤ s.journal.queue.length := decide_eq_true_iff

theorem boltEngaged_iff (d : DoorSide) : boltEngaged (some d) = true ↔ d.bolt = .engaged := decide_eq_true_iff

theorem State.guestAtDoor_eq (s : State) (r : Fin 48) (d : DoorSide) (c : List Byte) (guest : cardClass c = 1) :
    s.guestAtDoor r (some d) c = s.classRefuses (.door r) d.bolt c := by
  rw [s.classRefuses_guest r d.bolt guest, Room.refuses_eq]
  unfold State.guestAtDoor
  by_cases named : cardRoom c = r.val
  · rw [named, asFin_val]
    dsimp only
    by_cases unused : s.rooms[r].state = .unused
    · rw [if_pos (Or.inl unused : s.rooms[r].state = .unused ∨ r ≠ r), if_pos (Or.inr unused : r.val ≠ r.val ∨ s.rooms[r].state = .unused)]
    · have here : ¬(s.rooms[r].state = .unused ∨ r ≠ r) := fun away => away.elim unused fun other => other rfl
      have here' : ¬(r.val ≠ r.val ∨ s.rooms[r].state = .unused) := fun away => away.elim (fun other => other rfl) unused
      rw [if_neg here, if_neg here']
      cases stayCheck s.rooms[r] c with
      | some reason => rfl
      | none => simp only [boltEngaged_iff, Option.none_or]
  · rw [if_pos (Or.inl named : cardRoom c ≠ r.val ∨ s.rooms[r].state = .unused)]
    cases away : asFin 48 (cardRoom c) with
    | none => rfl
    | some k =>
      have other : k ≠ r := by
        rintro rfl
        unfold asFin at away
        split at away
        · cases away
          exact named rfl
        · cases away
      exact if_pos (.inr other)

theorem State.ownRoomCheck_eq (s : State) (c : List Byte) :
    s.ownRoomCheck c =
      if h : cardRoom c < 48 then if s.rooms[cardRoom c].state = .unused then some .wrongRoom else s.rooms[cardRoom c].refuses c
      else some .wrongRoom := by
  unfold State.ownRoomCheck State.cardRoomRecord asFin
  by_cases named : cardRoom c < 48
  · rw [dif_pos named, dif_pos named, Room.refuses_eq]
    rfl
  · rw [dif_neg named, dif_neg named]
    rfl

theorem State.classRefuses_guestGate (s : State) (z : Fin 8) (bolt : Bolt) {c : List Byte} (guest : cardClass c = 1) :
    s.classRefuses (.gate z) bolt c =
      if h : cardRoom c < 48 then
        if s.rooms[cardRoom c].state = .unused then some .wrongRoom
        else (s.rooms[cardRoom c].refuses c).or
          (if (cardZones c).getLsbD z.val = false then some .noZone
           else if s.zones[z].isOpen s.clock = false then some .zoneClosed else none)
      else some .wrongRoom := by
  unfold State.classRefuses
  rw [guest]
  rfl

theorem State.guestAtGate_eq (s : State) (z : Fin 8) (bolt : Bolt) (c : List Byte) (guest : cardClass c = 1) :
    s.guestAtGate z c = s.classRefuses (.gate z) bolt c := by
  rw [s.classRefuses_guestGate z bolt guest]
  unfold State.guestAtGate
  rw [s.ownRoomCheck_eq]
  by_cases named : cardRoom c < 48
  · rw [dif_pos named, dif_pos named]
    by_cases unused : s.rooms[cardRoom c].state = .unused
    · rw [if_pos unused, if_pos unused]
    · rw [if_neg unused, if_neg unused]
      cases s.rooms[cardRoom c].refuses c with
      | some reason => rfl
      | none => simp only [Bool.not_eq_true', Option.none_or]
  · rw [dif_neg named, dif_neg named]

theorem holdsRight_iff (c : List Byte) : holdsRight c rightDeadbolt = (cardRights c).getLsbD 1 := by
  unfold holdsRight rightDeadbolt
  generalize cardRights c = rights
  revert rights
  decide

/-- The rules of a good card's class are those of the statement. -/
theorem State.classCheck_eq (s : State) {b : Binding} (hasDoor : b.hasDoor = true) (d : DoorSide) {cls : CardClass} {c : List Byte}
    (good : cls.code = cardClass c) : s.classCheck b (some d) cls c = s.classRefuses b d.bolt c := by
  cases b with
  | minibar r => cases hasDoor
  | door r =>
    cases cls with
    | guest => exact s.guestAtDoor_eq r d c good.symm
    | staff =>
      unfold State.classCheck State.staffAtDoor State.classRefuses
      rw [← good]
      simp only [CardClass.code, Bool.and_eq_true, boltEngaged_iff, Bool.not_eq_true', s.journalBlocked_iff, holdsRight_iff]
    | service =>
      unfold State.classCheck State.serviceAtDoor State.classRefuses
      rw [← good]
      simp only [CardClass.code, boltEngaged_iff, s.journalBlocked_iff]
    | emergency =>
      unfold State.classRefuses
      rw [← good]
      rfl
  | gate z =>
    cases cls with
    | guest => exact s.guestAtGate_eq z d.bolt c good.symm
    | staff | service =>
      unfold State.classCheck State.staffAtGate State.classRefuses
      rw [← good]
      simp only [CardClass.code, Bool.not_eq_true', s.journalBlocked_iff]
    | emergency =>
      unfold State.classRefuses
      rw [← good]
      rfl

/-- A good card has a class. -/
theorem evaluate_none {site : Site} {clock : Clock} {revs : List RevEntry} {c : List Byte} (good : evaluate site clock revs c = none) :
    ∃ cls, CardClass.ofCode (cardClass c) = some cls := by
  cases named : CardClass.ofCode (cardClass c) with
  | some cls => exact ⟨cls, rfl⟩
  | none =>
    unfold evaluate at good
    rw [named] at good
    split_ifs at good

section
variable {s : State} {l : Fin 2} {a : Fin 64} {b : Binding} {d : DoorSide} {c : List Byte}
  (hb : (s.drop l a).binding = some b) (hd : (s.drop l a).door = some d) (judged : (s.drop l a).presence ≠ .mismatch) (hasDoor : b.hasDoor = true)
include hb hd judged hasDoor

/-- The unit's decision on a refused card (R51). -/
theorem State.doorDecision_refused {reason : Deny} (refused : s.decides b d.bolt c = some reason) : s.doorDecision l a c = .error reason := by
  unfold State.decides at refused
  unfold State.doorDecision State.verdict
  dsimp only
  rw [hb, hd]
  dsimp only
  rw [if_neg judged]
  cases valid : evaluate s.site s.clock s.revs c with
  | some failing =>
    rw [valid] at refused
    cases refused
    rfl
  | none =>
    obtain ⟨cls, named⟩ := evaluate_none valid
    rw [valid, Option.none_or] at refused
    rw [named]
    dsimp only
    rw [s.classCheck_eq hasDoor d (CardClass.code_of named), refused]

/-- The unit's decision on a granted card (R51). -/
theorem State.doorDecision_granted (granted : s.decides b d.bolt c = none) :
    ∃ cls, CardClass.code cls = cardClass c ∧ s.doorDecision l a c = .ok cls := by
  obtain ⟨valid, class_⟩ := Option.or_eq_none_iff.1 granted
  obtain ⟨cls, named⟩ := evaluate_none valid
  refine ⟨cls, CardClass.code_of named, ?_⟩
  unfold State.doorDecision State.verdict
  dsimp only
  rw [hb, hd, valid, named]
  dsimp only
  rw [if_neg judged, s.classCheck_eq hasDoor d (CardClass.code_of named), class_]

end

/-! ## OPEN and DENY asked for at a drop (R139) -/

/-- The line after a message is queued for a drop that is owed none: the message in its place, nothing else changed. -/
def State.withMessage (s : State) (l : Fin 2) (m : QMsg) : State := (s.setQueue l (s.lines[l].queueWith m)).setOwed l m.addr none

section
variable (s : State) (l : Fin 2) (m : QMsg)

theorem State.withMessage_queue : (s.withMessage l m).lines[l].queue = s.lines[l].queueWith m :=
  (State.queue_setDrop _ _ _ _ _).trans (s.queue_setQueue l _)

theorem State.withMessage_drop (owed : (s.drop l m.addr).owed = none) : (s.withMessage l m).drop l m.addr = s.drop l m.addr := by
  unfold State.withMessage
  rw [State.setOwed_drop, s.drop_setQueue, ← owed]

theorem State.work_withMessage : State.Work .calm s (s.withMessage l m) := (s.work_setQueue l _).trans (State.work_setOwed _ _ _ _)

theorem State.withMessage_rest : s.withMessage l m = { s with lines := (s.withMessage l m).lines } := rfl

end

theorem Line.waitingFor_some {x : Line} {a : Fin 64} {m : QMsg} (h : x.waitingFor a = some m) : m ∈ x.queue ∧ m.addr = a :=
  ⟨List.mem_of_find?_eq_some h, of_decide_eq_true (List.find?_some h :)⟩

theorem Line.waitingFor_none {x : Line} {a : Fin 64} (h : x.waitingFor a = none) : ∀ m ∈ x.queue, m.addr ≠ a := fun m hm same => by
  have := List.find?_eq_none.1 h m hm
  rw [decide_eq_true same] at this
  exact this rfl

theorem Line.places_idle {x : Line} (idle : x.inExchange = none) : x.places = x.queue.length := by
  unfold Line.places
  rw [idle]
  rfl

/-- A lost OPEN that no owner has waited for. -/
theorem State.openLost_idle (s : State) (l : Fin 2) (a : Fin 64) (asker : Asker) (cause : Nat) (away : s.minibarAt l a = none)
    (noGrant : ∀ d, (s.drop l a).door = some d → d.pending = none) : s.openLost l a asker cause = s := by
  unfold State.openLost
  cases asker with
  | zoneTable => rfl
  | minibarUnit =>
    dsimp only
    rw [away]
  | doorUnit =>
    dsimp only
    unfold State.doorGrantLost
    split
    · rfl
    · rename_i d hd
      rw [noGrant d hd]

/-- An OPEN or DENY that a drop takes, where no grant is lost by it. -/
theorem State.request_taken {s : State} {l : Fin 2} {m : QMsg} (run : s.lines[l].state = .run) (idle : s.lines[l].inExchange = none)
    (takes : s.takesMessage l m.addr)
    (noLoss : m.msg.isOpen = true ∨ (s.minibarAt l m.addr = none ∧ ∀ d, (s.drop l m.addr).door = some d → d.pending = none)) :
    s.request l m = (s.withMessage l m, .queued) := by
  obtain ⟨kinds, owed, place⟩ := takes
  have owed' : s.lines[l].drops[m.addr].owed = none := owed
  unfold State.request
  dsimp only
  rw [if_neg (not_not_intro run)]
  cases waits : s.lines[l].waitingFor m.addr with
  | none =>
    have none_ := Line.waitingFor_none waits
    have free : s.lines[l].holdsBack m.addr = false := by
      unfold Line.holdsBack
      rw [waits, owed']
      rfl
    have room : s.lines[l].queue.length < 16 := place.resolve_left fun ⟨q, hq, same⟩ => none_ q hq same
    have appended : s.lines[l].queueWith m = s.lines[l].queue ++ [m] := if_neg fun ⟨q, hq, same⟩ => none_ q hq same
    rw [if_neg (by rw [free]; simp)]
    dsimp only
    rw [if_pos (by rw [Line.places_idle idle]; exact room), ← appended]
    rfl
  | some old =>
    obtain ⟨mem, same⟩ := Line.waitingFor_some waits
    have free : s.lines[l].holdsBack m.addr = false := by
      unfold Line.holdsBack
      rw [waits, owed']
      dsimp only
      rw [kinds old mem same]
      rfl
    have replaced : s.lines[l].queueWith m = s.lines[l].queue.map fun q => if q.addr = m.addr then m else q := if_pos ⟨old, mem, same⟩
    rw [if_neg (by rw [free]; simp)]
    dsimp only
    rw [← replaced]
    split
    · rename_i lost
      obtain ⟨away, noGrant⟩ := noLoss.resolve_left fun isOpen => by
        rw [isOpen] at lost
        exact nomatch lost.2
      have drop := s.withMessage_drop l m owed
      have idle : (s.withMessage l m).openLost l m.addr old.asker 3 = s.withMessage l m :=
        State.openLost_idle _ _ _ _ _ (by unfold State.minibarAt; rw [drop]; exact away) fun d hd => noGrant d (by rw [← drop]; exact hd)
      exact congrArg (·, Answer.queued) idle
    · rfl

theorem Directed.isOpenOrDeny_false {m : Directed} (noOpen : ∀ n, m ≠ .openLock n) (noDeny : ∀ n, m ≠ .deny n) : m.isOpenOrDeny = false := by
  cases m with
  | openLock n => exact absurd rfl (noOpen n)
  | deny n => exact absurd rfl (noDeny n)
  | hold | latch | scanAll | scanTray | stopScan => rfl

/-- An OPEN or DENY that a drop takes not: nothing changes. -/
theorem State.request_refused {s : State} {l : Fin 2} {m : QMsg} (run : s.lines[l].state = .run) (idle : s.lines[l].inExchange = none)
    (law : (s.lines[l].queue.map QMsg.addr).Nodup) (kind : m.msg.isOpenOrDeny = true) (refuses : s.refusesMessage l m.addr) :
    s.request l m = (s, .notQueued) := by
  unfold State.request
  dsimp only
  rw [if_neg (not_not_intro run)]
  by_cases back : s.lines[l].holdsBack m.addr = true
  · rw [if_pos ⟨kind, back⟩]
  · rw [if_neg fun h => back h.2]
    simp only [Line.holdsBack, Bool.or_eq_true, not_or, Bool.not_eq_true, Option.isSome_eq_false_iff, Option.isNone_iff_eq_none] at back
    obtain ⟨first, owed⟩ := back
    have owed' : (s.drop l m.addr).owed = none := owed
    rcases refuses with ⟨q, mem, same, noOpen, noDeny⟩ | some_ | ⟨none_, full⟩
    · cases waits : s.lines[l].waitingFor m.addr with
      | none => exact absurd same (Line.waitingFor_none waits q mem)
      | some old =>
        obtain ⟨oldMem, oldSame⟩ := Line.waitingFor_some waits
        have one : old = q := List.inj_on_of_nodup_map law oldMem mem (oldSame.trans same.symm)
        rw [waits, one] at first
        dsimp only at first
        rw [Directed.isOpenOrDeny_false noOpen noDeny] at first
        cases first
    · rw [owed'] at some_
      cases some_
    · cases waits : s.lines[l].waitingFor m.addr with
      | some old =>
        obtain ⟨oldMem, oldSame⟩ := Line.waitingFor_some waits
        exact absurd oldSame (none_ old oldMem)
      | none =>
        dsimp only
        have directed : Config.directedLimit = 16 := rfl
        rw [if_neg (by rw [Line.places_idle idle, directed]; omega)]
        exact if_pos kind

end Sys2Proof.Machine

namespace Sys2Proof.Machine

open Sys2Proof

/-! ## What a line that goes on leaves of its queue (R138) -/

theorem Line.standing_idle {x : Line} (idle : x.activity = .idle) : x.standing = x.queue := by
  unfold Line.standing
  rw [Line.inExchange_idle idle]
  rfl

theorem State.chooseExchange_standing (s : State) (l : Fin 2) (idle : s.lines[l].activity = .idle) :
    (s.chooseExchange l).lines[l].standing = s.lines[l].standing := by
  have opened (u : State) (a : Fin 64) (msg : LineMsg) (n : Nat) : (u.openExchange l a msg n).lines[l] =
      { u.lines[l] with activity := .exchange { addr := a, msg := msg, retries := n } } := u.setLine_same l _
  rw [Line.standing_idle idle]
  unfold State.chooseExchange
  dsimp only
  split
  · rw [opened]
    rfl
  · split
    · rename_i m rest waits
      rw [opened, State.setQueue, State.setLine_same, waits]
      rfl
    · rename_i empty
      split
      · exact Line.standing_idle idle
      · rename_i a y polled
        obtain ⟨pointer, round, moved⟩ := Line.nextPoll_eq _ _ _ _ polled
        rw [opened, State.setLine_same, moved]
        rfl

theorem State.chooseExchange_other (s : State) {k l : Fin 2} (other : l ≠ k) : (s.chooseExchange k).lines[l] = s.lines[l] := by
  have apart (u : State) (x : Line) : (u.setLine k x).lines[l] = u.lines[l] := u.setLine_other k l x other.symm
  have opened (u : State) (a : Fin 64) (msg : LineMsg) (n : Nat) : (u.openExchange k a msg n).lines[l] = u.lines[l] := apart u _
  unfold State.chooseExchange
  dsimp only
  split
  · exact opened _ _ _ _
  · split
    · exact (opened _ _ _ _).trans (apart _ _)
    · split
      · rfl
      · exact (opened _ _ _ _).trans (apart _ _)

theorem State.pump_standing (s : State) (h : s.NoGoDue) (k l : Fin 2) : (s.pump k).lines[l].standing = s.lines[l].standing := by
  unfold State.pump
  dsimp only
  by_cases goes : s.lines[k].state = .run ∧ s.lines[k].activity = .idle
  · have free : s.lines[k].mark = none := by
      cases mark : s.lines[k].mark with
      | none => rfl
      | some m => exact absurd goes.2 (h k m goes.1 mark)
    rw [if_pos goes, free]
    show (s.chooseExchange k).lines[l].standing = _
    by_cases same : l = k
    · subst same
      exact s.chooseExchange_standing l goes.2
    · rw [s.chooseExchange_other same]
  · rw [if_neg goes]

theorem State.settle_standing (s : State) (h : s.NoGoDue) (l : Fin 2) : s.settle.lines[l].standing = s.lines[l].standing :=
  ((s.pump 0).pump_standing ((s.pump_goesOn 0 h).noGoDue h) 1 l).trans (s.pump_standing h 0 l)

/-! ## The work of one read -/

/-- Work after a read of drop `(l, a)`: what the journal has been asked, the line's queue, the drop's door-side record, and that both lines
may go on. -/
structure State.ReadEnd (s w : State) (l : Fin 2) (a : Fin 64) (queue : List QMsg) (door : Option DoorSide) (qs : List Request) : Prop where
  logs : s.Logs w qs
  queue : w.lines[l].queue = queue
  door : (w.drop l a).door = door
  idle : w.lines[l].activity = .idle
  quiet : w.NoGoDue

section
variable {s v w : State} {l : Fin 2} {a : Fin 64} {queue : List QMsg} {door : Option DoorSide} {qs rs : List Request}

/-- Work that leaves the lines. -/
theorem State.ReadEnd.on (h : s.ReadEnd v l a queue door qs) (lines : w.lines = v.lines) (logs : v.Logs w rs) :
    s.ReadEnd w l a queue door (qs ++ rs) where
  logs := h.logs.trans logs
  queue := by rw [lines]; exact h.queue
  door := by rw [State.drop, lines]; exact h.door
  idle := by rw [lines]; exact h.idle
  quiet := h.quiet.of_course fun k => by rw [lines]

theorem State.ReadEnd.admitRequest (h : s.ReadEnd v l a queue door qs) (q : Request) : s.ReadEnd (v.admitRequest q) l a queue door (qs ++ [q]) :=
  h.on (State.records_lines (v.admitRequest_records q)) (v.logs_admitRequest q)

theorem State.ReadEnd.putDoor (h : s.ReadEnd v l a queue door qs) (x : Option DoorSide) : s.ReadEnd (v.putDoor l a x) l a queue x qs := by
  have lines := v.putDoor_lines l a x
  have work : State.Work .calm v (v.putDoor l a x) := v.work_putDoor l a x
  refine ⟨h.logs.trans_nil (State.Logs.nil_trans rfl (v.reports_putDoor l a x).logs), ?_, ?_, ?_, h.quiet.of_course work.course⟩
  · rw [lines]
    exact (v.queue_setDrop l l a _).trans h.queue
  · rw [State.drop, lines]
    exact congrArg Drop.door (v.setDrop_same l a _)
  · exact (congrArg (fun c => c.2.2.1) (work.course l)).trans h.idle

theorem Line.queueWith_congr {x y : Line} (same : y.queue = x.queue) (m : QMsg) : y.queueWith m = x.queueWith m := by
  unfold Line.queueWith
  rw [same]

theorem State.ReadEnd.withMessage {m : QMsg} (h : s.ReadEnd v l a queue door qs) (addr : m.addr = a) (owed : (v.drop l a).owed = none) :
    s.ReadEnd (v.withMessage l m) l a (v.lines[l].queueWith m) door qs := by
  subst addr
  have work := v.work_withMessage l m
  refine ⟨h.logs.trans_nil rfl, v.withMessage_queue l m, ?_, (congrArg (fun c => c.2.2.1) (work.course l)).trans h.idle, h.quiet.of_course work.course⟩
  rw [v.withMessage_drop l m owed]
  exact h.door

/-- Both lines go on after it. -/
theorem State.ReadEnd.settles (h : s.ReadEnd w l a queue door qs) :
    w.settle.lines[l].standing = queue ∧ (w.settle.drop l a).door = door ∧ s.Logs w.settle qs ∧ w.settle.rooms = w.rooms ∧
    w.settle.lastDeny = w.lastDeny ∧ w.settle.minibars = w.minibars := by
  have goes := w.settle_goesOn h.quiet
  refine ⟨?_, by rw [goes.drop]; exact h.door, h.logs.trans_nil (congrArg State.books goes.rest :), goes.rooms,
    (congrArg State.lastDeny goes.rest :), goes.minibars⟩
  rw [w.settle_standing h.quiet, Line.standing_idle h.idle, h.queue]

end

/-! ### The read is delivered -/

/-- The part as a card read of a POLL is delivered: nothing open on the line, the drop's miss count 0 (R130, R133). -/
def State.heard (s : State) (l : Fin 2) (a : Fin 64) : State := (s.idled l s.lines[l].returning).clearMiss l a

section
variable {s : State} {l : Fin 2} {a : Fin 64} {n : Nat} {card : List Byte}

theorem State.heard_drop (s : State) (l : Fin 2) (a : Fin 64) : (s.heard l a).drop l a = { s.drop l a with miss := 0 } := by
  unfold State.heard State.clearMiss
  rw [State.setDrop_same, s.idled_drop]

theorem State.heard_queue (s : State) (l : Fin 2) (a : Fin 64) : (s.heard l a).lines[l].queue = s.lines[l].queue :=
  (State.queue_setDrop _ _ _ _ _).trans (s.idled_kept l _ l).1

theorem State.heard_rest (s : State) (l : Fin 2) (a : Fin 64) : s.heard l a = { s with lines := (s.heard l a).lines } := rfl

theorem State.heard_course (s : State) (l : Fin 2) (a : Fin 64) : (s.heard l a).lines[l].course = (s.idled l s.lines[l].returning).lines[l].course :=
  (State.work_setDrop _ _ _ _ : State.Work .calm _ _).course l

theorem State.Exchanging.heard (exch : s.Exchanging l { addr := a, msg := .poll, retries := n }) (law : s.LineInv) :
    s.ReadEnd (s.heard l a) l a s.lines[l].queue (s.drop l a).door [] := by
  obtain ⟨-, free, -, -⟩ := exch
  refine ⟨.nil rfl, s.heard_queue l a, by rw [s.heard_drop], ?_, State.idled_calm law (fun _ => free) (State.work_setDrop _ _ _ _)⟩
  refine (congrArg (fun c => c.2.2.1) (s.heard_course l a)).trans ?_
  show (s.idled l s.lines[l].returning).lines[l].activity = _
  rw [s.idled_same]

theorem State.Exchanging.heard_run (exch : s.Exchanging l { addr := a, msg := .poll, retries := n }) : (s.heard l a).lines[l].state = .run := by
  obtain ⟨run, -, -, -⟩ := exch
  refine (congrArg (fun c => c.1) (s.heard_course l a)).trans ?_
  exact (s.idled_kept l _ l).2.1.trans run

theorem State.heard_takes (takes : s.takesMessage l a) : (s.heard l a).takesMessage l a := by
  unfold State.takesMessage at takes ⊢
  rw [s.heard_queue, s.heard_drop]
  exact takes

theorem State.heard_refuses (refuses : s.refusesMessage l a) : (s.heard l a).refusesMessage l a := by
  unfold State.refusesMessage at refuses ⊢
  rw [s.heard_queue, s.heard_drop]
  exact refuses

theorem State.exec_cardRead (exch : s.Exchanging l { addr := a, msg := .poll, retries := n }) (len : card.length = 20)
    (known : (s.drop l a).presence = .present ∨ (s.drop l a).presence = .mismatch) (away : s.minibarAt l a = none) :
    exec (.cardRead l card) s = .next ((s.heard l a).doorRead l a card).settle := by
  obtain ⟨-, -, opened, -⟩ := exch
  have exchange : s.lines[l].exchange = some { addr := a, msg := .poll, retries := n } := by
    unfold Line.exchange
    rw [opened]
  have good : ({ addr := a, msg := .poll, retries := n } : Exchange).goodAs (.cardRead card) = some (.cardRead card) :=
    if_pos (by simp [LineMsg.accepts, Reply.kind, ReplyKind.lengthFits, Reply.payload, len])
  have heard : (s.endExchange l { addr := a, msg := .poll, retries := n } true).clearMiss l a = s.heard l a := rfl
  have delivered : (s.heard l a).deliver l a (.cardRead card) = (s.heard l a).doorRead l a card := by
    have away' : (s.heard l a).minibarAt l a = none := by
      unfold State.minibarAt
      rw [s.heard_drop]
      exact away
    unfold State.deliver
    dsimp only
    rw [away']
  have answered : s.answered l { addr := a, msg := .poll, retries := n } (some (.cardRead card)) = (s.heard l a).doorRead l a card := by
    unfold State.answered
    dsimp only
    rw [heard, s.heard_drop]
    dsimp only
    rcases known with present | mismatch
    · rw [present]
      exact delivered
    · rw [mismatch]
      exact delivered
  show Host.Outcome.next (s.reply l (.cardRead card)) = _
  unfold State.reply
  rw [exchange]
  dsimp only
  rw [if_pos rfl, good]
  show Host.Outcome.next (s.answered l { addr := a, msg := .poll, retries := n } (some (.cardRead card))).settle = _
  rw [answered]

end

/-! ### What the Room Table hears of a guest, and the deny pairs -/

theorem asFin_some {n x : Nat} {r : Fin n} (h : asFin n x = some r) : x = r.val := by
  unfold asFin at h
  split at h
  · cases h
    rfl
  · cases h

theorem State.noticeGuest_spec (s : State) (cls : CardClass) (c : List Byte) :
    (s.noticeGuest cls c).lines = s.lines ∧ s.Logs (s.noticeGuest cls c) [] ∧ (s.noticeGuest cls c).lastDeny = s.lastDeny ∧
    ∀ k : Fin 48, (s.noticeGuest cls c).rooms[k] =
      if cls = .guest ∧ cardRoom c = k.val ∧ s.rooms[k].state = .occupied then { s.rooms[k] with lastGrant := some s.clock.minute } else s.rooms[k] := by
  have silent (no : ∀ k : Fin 48, ¬(cls = .guest ∧ cardRoom c = k.val ∧ s.rooms[k].state = .occupied)) (same : s.noticeGuest cls c = s) :
      (s.noticeGuest cls c).lines = s.lines ∧ s.Logs (s.noticeGuest cls c) [] ∧ (s.noticeGuest cls c).lastDeny = s.lastDeny ∧
      ∀ k : Fin 48, (s.noticeGuest cls c).rooms[k] =
        if cls = .guest ∧ cardRoom c = k.val ∧ s.rooms[k].state = .occupied then { s.rooms[k] with lastGrant := some s.clock.minute } else s.rooms[k] := by
    rw [same]
    exact ⟨rfl, .nil rfl, rfl, fun k => (if_neg (no k)).symm⟩
  by_cases guest : cls = .guest
  · subst guest
    cases named : asFin 48 (cardRoom c) with
    | none =>
      refine silent (fun k h => ?_) (by unfold State.noticeGuest; rw [named])
      rw [h.2.1, asFin_val] at named
      cases named
    | some r =>
      have room : cardRoom c = r.val := asFin_some named
      have heard : s.noticeGuest .guest c = s.guestGranted r := by
        unfold State.noticeGuest
        rw [named]
      by_cases occupied : s.rooms[r].state = .occupied
      · have granted : s.noticeGuest .guest c = s.putRoom r { s.rooms[r] with lastGrant := some s.clock.minute } := heard.trans (if_pos occupied)
        have records := s.putRoom_records r { s.rooms[r] with lastGrant := some s.clock.minute }
        have logs := (s.reports_putRoom r { s.rooms[r] with lastGrant := some s.clock.minute }).logs
        rw [granted]
        refine ⟨(State.records_lines records :), logs, (congrArg State.lastDeny records :), fun k => ?_⟩
        rw [(State.records_rooms records :)]
        dsimp only
        by_cases same : k = r
        · subst same
          rw [vector_set_same, if_pos ⟨rfl, room, occupied⟩]
        · rw [vector_set_ne _ _ same, if_neg fun h => same (Fin.ext (h.2.1.symm.trans room))]
      · refine silent (fun k h => ?_) (heard.trans (if_neg occupied))
        have same : k = r := Fin.ext (h.2.1.symm.trans room)
        rw [same] at h
        exact occupied h.2.2
  · refine silent (fun k h => guest h.1) ?_
    unfold State.noticeGuest
    split
    · exact absurd rfl guest
    · rfl

theorem State.putDeny_lastDeny (s : State) (r : Fin 48) (reason : Deny) (k : Fin 48) :
    (s.putDeny r reason).lastDeny[k] = if k = r then some { reason := reason, minute := s.clock.minute } else s.lastDeny[k] := by
  obtain ⟨m, n, e⟩ := s.putDeny_changes r reason
  rw [e]
  dsimp only
  by_cases same : k = r
  · subst same
    rw [vector_set_same, if_pos rfl]
    rfl
  · rw [vector_set_ne _ _ same, if_neg same]

end Sys2Proof.Machine

namespace Sys2Proof.Machine

open Sys2Proof

/-! ### A refusal (R58, R59) -/

theorem readRoom_eq {b : Binding} (hasDoor : b.hasDoor = true) (c : List Byte) : readRoom (some b) c = entryRoom b c := by
  cases b with
  | door r => rfl
  | gate z => rfl
  | minibar r => cases hasDoor

theorem State.minibarAt_door {s : State} {l : Fin 2} {a : Fin 64} {b : Binding} (hb : (s.drop l a).binding = some b) (hasDoor : b.hasDoor = true) :
    s.minibarAt l a = none := by
  unfold State.minibarAt
  rw [hb]
  cases b with
  | door r => rfl
  | gate z => rfl
  | minibar r => cases hasDoor

theorem State.grantPending_some {s : State} {l : Fin 2} {a : Fin 64} {d : DoorSide} (hd : (s.drop l a).door = some d) :
    s.grantPending l a = d.pending.isSome := by
  unfold State.grantPending
  rw [hd]

/-- The DENY entry of a read, by whether its DENY was queued. -/
def denyEntry (l : Fin 2) (a : Fin 64) (b : Option Binding) (c : List Byte) (reason : Deny) (sent : Bool) : Request :=
  { kind := .deny, place := 128 * l.val + a.val, room := readRoom b c, reason := reason.code, subject := cardSerial c
    value := reason.cls * 256 + flagBit (!sent) }

theorem lines_alone_trans {s u v : State} (h : u = { s with lines := u.lines }) (h' : v = { u with lines := v.lines }) :
    v = { s with lines := v.lines } := by
  rw [h']
  exact congrArg (fun x : State => { x with lines := v.lines }) h

/-- The end of a refusal, its DENY asked for or not: the entry, and the deny pair of a DOOR drop's room. -/
def State.tellRefusal (s : State) (b : Option Binding) (reason : Deny) (q : Request) : State :=
  match b with
  | some (.door r) => (s.admitRequest q).putDeny r reason
  | _ => s.admitRequest q

section
variable {s u : State} {l : Fin 2} {a : Fin 64} {c : List Byte} {reason : Deny}

theorem State.doorRefuse_sent (noGrant : s.grantPending l a = false)
    (taken : s.request l { addr := a, msg := .deny reason.cls, asker := .doorUnit } = (u, .queued)) :
    s.doorRefuse l a c reason = u.tellRefusal (s.drop l a).binding reason (denyEntry l a (s.drop l a).binding c reason true) := by
  unfold State.doorRefuse
  dsimp only
  rw [noGrant, taken, placeOf_eq]
  rfl

theorem State.doorRefuse_unsent
    (kept : s.grantPending l a = true ∨ s.request l { addr := a, msg := .deny reason.cls, asker := .doorUnit } = (s, .notQueued)) :
    s.doorRefuse l a c reason = s.tellRefusal (s.drop l a).binding reason (denyEntry l a (s.drop l a).binding c reason false) := by
  unfold State.doorRefuse
  dsimp only
  by_cases pending : s.grantPending l a = true
  · rw [pending, placeOf_eq]
    rfl
  · rw [Bool.eq_false_iff.2 pending, kept.resolve_left pending, placeOf_eq]
    rfl

end

section
variable {s v w : State} {l : Fin 2} {a : Fin 64} {queue : List QMsg} {door : Option DoorSide} {qs rs : List Request}

/-- Work after a read that is refused: the entry asked for, the deny pairs, and what it leaves. -/
structure State.ReadRefused (s w : State) (l : Fin 2) (a : Fin 64) (queue : List QMsg) (b : Option Binding) (reason : Deny) (q : Request) : Prop where
  ends : s.ReadEnd w l a queue (s.drop l a).door [q]
  rooms : w.rooms = s.rooms
  minibars : w.minibars = s.minibars
  denies : ∀ k : Fin 48, w.lastDeny[k] = if b = some (.door k) then some { reason := reason, minute := s.clock.minute } else s.lastDeny[k]

theorem State.ReadEnd.tellRefusal (h : s.ReadEnd v l a queue (s.drop l a).door []) (same : v = { s with lines := v.lines }) (b : Option Binding)
    (reason : Deny) (q : Request) : s.ReadRefused (v.tellRefusal b reason q) l a queue b reason q := by
  have asked := h.admitRequest q
  have records := v.admitRequest_records q
  have clock : (v.admitRequest q).clock = s.clock := asked.logs.clock
  have rooms : (v.admitRequest q).rooms = s.rooms := (State.records_rooms records :).trans (congrArg State.rooms same :)
  have minibars : (v.admitRequest q).minibars = s.minibars := (State.records_minibars records :).trans (congrArg State.minibars same :)
  have denies : (v.admitRequest q).lastDeny = s.lastDeny := (congrArg State.lastDeny records :).trans (congrArg State.lastDeny same :)
  have silent (notDoor : ∀ r, b ≠ some (.door r)) (run : v.tellRefusal b reason q = v.admitRequest q) :
      s.ReadRefused (v.tellRefusal b reason q) l a queue b reason q := by
    rw [run]
    exact ⟨asked, rooms, minibars, fun k => by rw [denies, if_neg (notDoor k)]⟩
  cases b with
  | none => exact silent nofun rfl
  | some b =>
    cases b with
    | gate z => exact silent nofun rfl
    | minibar r => exact silent nofun rfl
    | door r =>
      show s.ReadRefused ((v.admitRequest q).putDeny r reason) l a queue _ reason q
      generalize v.admitRequest q = u at *
      obtain ⟨reports, lines, rooms'⟩ := u.putDeny_spec r reason
      refine ⟨asked.on lines reports.logs, rooms'.trans rooms, ?_, fun k => ?_⟩
      · obtain ⟨m, n, e⟩ := u.putDeny_changes r reason
        rw [e]
        exact minibars
      · rw [u.putDeny_lastDeny, clock, denies]
        by_cases same : k = r
        · rw [if_pos same, if_pos (by rw [same])]
        · rw [if_neg same, if_neg fun e => same (by cases e; rfl)]

end

section
variable {s : State} {l : Fin 2} {a : Fin 64} {n : Nat} {c : List Byte} {reason : Deny}
  (exch : s.Exchanging l { addr := a, msg := .poll, retries := n }) (law : s.LineInv)
include exch law

/-- A refusal whose DENY is queued. -/
theorem State.heard_refuse_sent (takes : s.takesMessage l a) (away : s.minibarAt l a = none)
    (noGrant : ∀ d, (s.drop l a).door = some d → d.pending = none) :
    s.ReadRefused ((s.heard l a).doorRefuse l a c reason) l a (s.lines[l].queueWith { addr := a, msg := .deny reason.cls, asker := .doorUnit })
      (s.drop l a).binding reason (denyEntry l a (s.drop l a).binding c reason true) := by
  have heard := exch.heard law
  have drop := s.heard_drop l a
  have door : ((s.heard l a).drop l a).door = (s.drop l a).door := by rw [drop]
  have binding : ((s.heard l a).drop l a).binding = (s.drop l a).binding := by rw [drop]
  have owed : ((s.heard l a).drop l a).owed = none := (State.heard_takes takes).2.1
  have noPending : (s.heard l a).grantPending l a = false := by
    unfold State.grantPending
    rw [door]
    cases hd : (s.drop l a).door with
    | none => rfl
    | some d => exact Option.isSome_eq_false_iff.2 (Option.isNone_iff_eq_none.2 (noGrant d hd))
  have taken := State.request_taken (m := { addr := a, msg := .deny reason.cls, asker := .doorUnit }) exch.heard_run (Line.inExchange_idle heard.idle)
    (State.heard_takes takes)
    (.inr ⟨by unfold State.minibarAt; rw [binding]; exact away, fun d hd => noGrant d (door.symm.trans hd)⟩)
  rw [State.doorRefuse_sent noPending taken, binding, ← Line.queueWith_congr (s.heard_queue l a)]
  exact (heard.withMessage rfl owed).tellRefusal (lines_alone_trans rfl ((s.heard l a).withMessage_rest l _)) _ _ _

/-- A refusal whose DENY is not queued. -/
theorem State.heard_refuse_unsent (kept : (∃ d, (s.drop l a).door = some d ∧ d.pending.isSome = true) ∨ s.refusesMessage l a) :
    s.ReadRefused ((s.heard l a).doorRefuse l a c reason) l a s.lines[l].queue
      (s.drop l a).binding reason (denyEntry l a (s.drop l a).binding c reason false) := by
  have heard := exch.heard law
  have drop := s.heard_drop l a
  have binding : ((s.heard l a).drop l a).binding = (s.drop l a).binding := by rw [drop]
  obtain ⟨⟨-, -, distinct, -⟩, -, -⟩ := law l
  rw [State.doorRefuse_unsent, binding]
  · exact heard.tellRefusal rfl _ _ _
  · rcases kept with ⟨d, hd, pending⟩ | refuses
    · refine .inl ?_
      rw [State.grantPending_some (d := d) (by rw [drop]; exact hd), pending]
    · refine .inr ?_
      exact State.request_refused exch.heard_run (Line.inExchange_idle heard.idle) (by rw [s.heard_queue]; exact distinct) rfl
        (State.heard_refuses refuses)

end

end Sys2Proof.Machine

namespace Sys2Proof.Machine

open Sys2Proof

/-! ### A grant (R60, R61) -/

theorem CardClass.emergency_iff {cls : CardClass} {n : Nat} (code : cls.code = n) : cls = .emergency ↔ n = 4 := by
  subst code
  cases cls <;> simp [CardClass.code]

theorem CardClass.guest_iff {cls : CardClass} {n : Nat} (code : cls.code = n) : cls = .guest ↔ n = 1 := by
  subst code
  cases cls <;> simp [CardClass.code]

/-- The entry of a grant by the card read. -/
def grantEntry (l : Fin 2) (a : Fin 64) (b : Binding) (c : List Byte) (n : Nat) : Request :=
  { kind := if cardClass c = 4 then .emergencyEntry else .grant, place := 128 * l.val + a.val, room := entryRoom b c
    reason := cardClass c, subject := cardSerial c, value := n }

theorem grantRequest_eq {l : Fin 2} {a : Fin 64} {b : Binding} {c : List Byte} {cls : CardClass} (hasDoor : b.hasDoor = true)
    (code : cls.code = cardClass c) (n : Nat) :
    grantRequest (placeOf l a) (readRoom (some b) c) cls (cardSerial c) n = grantEntry l a b c n := by
  unfold grantRequest grantEntry
  rw [readRoom_eq hasDoor, placeOf_eq, code]
  simp only [CardClass.emergency_iff code]

/-- What the rooms are after a grant by the card: a guest's in an OCCUPIED room has its minute (R24). -/
def State.GuestTold (s t : State) (c : List Byte) : Prop := ∀ k : Fin 48, t.rooms[k] =
  if cardClass c = 1 ∧ cardRoom c = k.val ∧ s.rooms[k].state = .occupied then { s.rooms[k] with lastGrant := some s.clock.minute } else s.rooms[k]

section
variable {s v w : State} {l : Fin 2} {a : Fin 64} {queue : List QMsg} {door : Option DoorSide} {qs rs : List Request} {cls : CardClass} {c : List Byte}

/-- Work after a read that leaves the Room Table and the deny pairs to be told. -/
structure State.ReadOpen (s w : State) (l : Fin 2) (a : Fin 64) (queue : List QMsg) (door : Option DoorSide) (qs : List Request) : Prop where
  ends : s.ReadEnd w l a queue door qs
  rooms : w.rooms = s.rooms
  denies : w.lastDeny = s.lastDeny

theorem State.ReadOpen.admitRequest (h : s.ReadOpen v l a queue door qs) (q : Request) : s.ReadOpen (v.admitRequest q) l a queue door (qs ++ [q]) where
  ends := h.ends.admitRequest q
  rooms := (State.records_rooms (v.admitRequest_records q) :).trans h.rooms
  denies := (congrArg State.lastDeny (v.admitRequest_records q) :).trans h.denies

theorem State.ReadOpen.putDoor (h : s.ReadOpen v l a queue door qs) (x : Option DoorSide) : s.ReadOpen (v.putDoor l a x) l a queue x qs where
  ends := h.ends.putDoor x
  rooms := (State.records_rooms (v.putDoor_records l a x) :).trans h.rooms
  denies := (congrArg State.lastDeny (v.putDoor_records l a x) :).trans h.denies

theorem State.ReadOpen.withMessage {m : QMsg} (h : s.ReadOpen v l a queue door qs) (addr : m.addr = a) (owed : (v.drop l a).owed = none) :
    s.ReadOpen (v.withMessage l m) l a (v.lines[l].queueWith m) door qs where
  ends := h.ends.withMessage addr owed
  rooms := h.rooms
  denies := h.denies

theorem State.ReadOpen.noticeGuest (h : s.ReadOpen v l a queue door qs) (code : cls.code = cardClass c) :
    s.ReadEnd (v.noticeGuest cls c) l a queue door qs ∧ s.GuestTold (v.noticeGuest cls c) c ∧ (v.noticeGuest cls c).lastDeny = s.lastDeny := by
  obtain ⟨lines, logs, denies, rooms⟩ := v.noticeGuest_spec cls c
  refine ⟨by simpa using h.ends.on lines logs, fun k => ?_, denies.trans h.denies⟩
  rw [rooms k, h.rooms, h.ends.logs.clock]
  simp only [CardClass.guest_iff code]

theorem State.Exchanging.open_ {n : Nat} (exch : s.Exchanging l { addr := a, msg := .poll, retries := n }) (law : s.LineInv) :
    s.ReadOpen (s.heard l a) l a s.lines[l].queue (s.drop l a).door [] := ⟨exch.heard law, rfl, rfl⟩

end

section
variable {s : State} {l : Fin 2} {a : Fin 64} {b : Binding} {d : DoorSide} {c : List Byte} {cls : CardClass} (poll : s.Polling l a b d)
  (law : s.LineInv) (hasDoor : b.hasDoor = true) (code : cls.code = cardClass c)
include poll law hasDoor code

/-- A grant at a HELD latch. -/
theorem State.heard_grant_held (held : d.latch = .held) :
    let w := (s.heard l a).doorGrant l a cls c
    s.ReadEnd w l a s.lines[l].queue (some d) [grantEntry l a b c 0] ∧ s.GuestTold w c ∧ w.lastDeny = s.lastDeny := by
  obtain ⟨⟨n, exch⟩, present, hb, hd⟩ := poll
  have granted : (s.heard l a).doorGrant l a cls c = ((s.heard l a).admitRequest (grantEntry l a b c 0)).noticeGuest cls c := by
    unfold State.doorGrant State.heldGrant
    rw [s.heard_drop]
    dsimp only
    rw [hd, hb]
    dsimp only
    rw [if_pos held, grantRequest_eq hasDoor code]
  rw [granted, ← hd]
  exact ((exch.open_ law).admitRequest _).noticeGuest code

/-- A grant whose OPEN is queued. -/
theorem State.heard_grant_sent (notHeld : d.latch ≠ .held) (takes : s.takesMessage l a) :
    let w := (s.heard l a).doorGrant l a cls c
    s.ReadEnd w l a (s.lines[l].queueWith { addr := a, msg := .openLock (s.drop l a).openTime, asker := .doorUnit })
      (some { d with
        latch := .granted, deadline := if d.latch = .granted then d.deadline else none
        pending := some { cls := cls, serial := cardSerial c, seconds := (s.drop l a).openTime, room := entryRoom b c } })
      [grantEntry l a b c (s.drop l a).openTime] ∧ s.GuestTold w c ∧ w.lastDeny = s.lastDeny := by
  obtain ⟨⟨n, exch⟩, present, hb, hd⟩ := poll
  have taken := State.request_taken (m := { addr := a, msg := .openLock (s.drop l a).openTime, asker := .doorUnit }) exch.heard_run
    (Line.inExchange_idle (exch.heard law).idle) (State.heard_takes takes) (.inl rfl)
  have owed : ((s.heard l a).drop l a).owed = none := (State.heard_takes takes).2.1
  have granted : (s.heard l a).doorGrant l a cls c =
      ((((s.heard l a).withMessage l { addr := a, msg := .openLock (s.drop l a).openTime, asker := .doorUnit }).putDoor l a (some { d with
        latch := .granted, deadline := if d.latch = .granted then d.deadline else none
        pending := some { cls := cls, serial := cardSerial c, seconds := (s.drop l a).openTime, room := entryRoom b c } })).admitRequest
          (grantEntry l a b c (s.drop l a).openTime)).noticeGuest cls c := by
    unfold State.doorGrant State.doorOpenGrant
    rw [s.heard_drop]
    dsimp only
    rw [hd, hb]
    dsimp only
    rw [if_neg notHeld, taken]
    dsimp only
    rw [if_pos rfl, grantRequest_eq hasDoor code, readRoom_eq hasDoor]
  rw [granted, ← Line.queueWith_congr (s.heard_queue l a)]
  exact ((((exch.open_ law).withMessage rfl owed).putDoor _).admitRequest _).noticeGuest code

/-- A grant whose OPEN the drop does not take. -/
theorem State.heard_grant_unsent (notHeld : d.latch ≠ .held) (refuses : s.refusesMessage l a) :
    let lost : Request := { kind := .grantUndelivered, place := 128 * l.val + a.val, room := entryRoom b c, reason := cardClass c
                            subject := cardSerial c, value := 1 }
    s.ReadOpen ((s.heard l a).doorGrant l a cls c) l a s.lines[l].queue (some d)
      (if cardClass c = 4 then [grantEntry l a b c (s.drop l a).openTime, lost] else [lost]) := by
  obtain ⟨⟨n, exch⟩, present, hb, hd⟩ := poll
  obtain ⟨⟨-, -, distinct, -⟩, -, -⟩ := law l
  have refused := State.request_refused (m := { addr := a, msg := .openLock (s.drop l a).openTime, asker := .doorUnit }) exch.heard_run
    (Line.inExchange_idle (exch.heard law).idle) (by rw [s.heard_queue]; exact distinct) rfl (State.heard_refuses refuses)
  have granted : (s.heard l a).doorGrant l a cls c =
      (if cls = .emergency then (s.heard l a).admitRequest (grantEntry l a b c (s.drop l a).openTime) else s.heard l a).admitRequest
        { kind := .grantUndelivered, place := 128 * l.val + a.val, room := entryRoom b c, reason := cardClass c
          subject := cardSerial c, value := 1 } := by
    unfold State.doorGrant State.doorOpenGrant
    rw [s.heard_drop]
    dsimp only
    rw [hd, hb]
    dsimp only
    rw [if_neg notHeld, refused]
    dsimp only
    rw [if_neg (by nofun), grantRequest_eq hasDoor code, readRoom_eq hasDoor, undeliveredRequest, placeOf_eq]
    dsimp only
    rw [code]
  have opened := exch.open_ law
  rw [hd] at opened
  rw [granted]
  simp only [CardClass.emergency_iff code]
  by_cases emergency : cardClass c = 4
  · rw [if_pos emergency, if_pos emergency]
    exact (opened.admitRequest _).admitRequest _
  · rw [if_neg emergency, if_neg emergency]
    exact opened.admitRequest _

end

/-! ### O60 -/

theorem State.heard_decides (s : State) (l : Fin 2) (a : Fin 64) (b : Binding) (bolt : Bolt) (c : List Byte) :
    (s.heard l a).decides b bolt c = s.decides b bolt c := rfl

section
variable {s : State} {l : Fin 2} {a : Fin 64} {b : Binding} {d : DoorSide} {c : List Byte} (poll : s.Polling l a b d) (hasDoor : b.hasDoor = true)
  (len : c.length = 20)
include poll hasDoor len

theorem State.Polling.granted (good : s.decides b d.bolt c = none) :
    ∃ cls, CardClass.code cls = cardClass c ∧ exec (.cardRead l c) s = .next ((s.heard l a).doorGrant l a cls c).settle := by
  obtain ⟨⟨n, exch⟩, present, hb, hd⟩ := poll
  have drop := s.heard_drop l a
  obtain ⟨cls, code, decision⟩ := State.doorDecision_granted (s := s.heard l a) (l := l) (a := a) (by rw [drop]; exact hb) (by rw [drop]; exact hd)
    (by rw [drop]; dsimp only; rw [present]; nofun) hasDoor ((s.heard_decides l a b d.bolt c).trans good)
  refine ⟨cls, code, ?_⟩
  rw [State.exec_cardRead exch len (.inl present) (State.minibarAt_door hb hasDoor), State.doorRead, decision]

theorem State.Polling.refused {reason : Deny} (bad : s.decides b d.bolt c = some reason) :
    exec (.cardRead l c) s = .next ((s.heard l a).doorRefuse l a c reason).settle := by
  obtain ⟨⟨n, exch⟩, present, hb, hd⟩ := poll
  have drop := s.heard_drop l a
  have decision := State.doorDecision_refused (s := s.heard l a) (l := l) (a := a) (by rw [drop]; exact hb) (by rw [drop]; exact hd)
    (by rw [drop]; dsimp only; rw [present]; nofun) hasDoor ((s.heard_decides l a b d.bolt c).trans bad)
  rw [State.exec_cardRead exch len (.inl present) (State.minibarAt_door hb hasDoor), State.doorRead, decision]

end

/-- A read of an unbound drop, or of one in MISMATCH: no evaluation (R51). -/
theorem State.exec_cardRead_unbound {s : State} {l : Fin 2} {a : Fin 64} {n : Nat} {c : List Byte} (len : c.length = 20)
    (exch : s.Exchanging l { addr := a, msg := .poll, retries := n })
    (unbound : ((s.drop l a).binding = none ∧ (s.drop l a).presence = .present) ∨
      ((s.drop l a).presence = .mismatch ∧ (s.drop l a).binding.any Binding.hasDoor = true)) :
    s.minibarAt l a = none ∧ exec (.cardRead l c) s = .next ((s.heard l a).doorRefuse l a c .unboundDrop).settle := by
  have drop := s.heard_drop l a
  have decision : (s.heard l a).doorDecision l a c = .error .unboundDrop := by
    unfold State.doorDecision
    rw [drop]
    dsimp only
    rcases unbound with ⟨hb, -⟩ | ⟨mismatch, -⟩
    · rw [hb]
    · cases (s.drop l a).binding with
      | none => rfl
      | some b => exact if_pos mismatch
  have away : s.minibarAt l a = none := by
    rcases unbound with ⟨hb, -⟩ | ⟨-, hasDoor⟩
    · unfold State.minibarAt
      rw [hb]
    · cases hb : (s.drop l a).binding with
      | none =>
        unfold State.minibarAt
        rw [hb]
      | some b =>
        rw [hb] at hasDoor
        exact State.minibarAt_door hb hasDoor
  refine ⟨away, ?_⟩
  rw [State.exec_cardRead exch len (unbound.imp And.right And.left) away, State.doorRead, decision]

theorem denyEntry_door (l : Fin 2) (a : Fin 64) {b : Binding} (hasDoor : b.hasDoor = true) (c : List Byte) (reason : Deny) (sent : Bool) :
    denyEntry l a (some b) c reason sent =
      { kind := .deny, place := 128 * l.val + a.val, room := entryRoom b c, reason := reason.code, subject := cardSerial c
        value := reason.cls * 256 + flagBit (!sent) } := by
  unfold denyEntry
  rw [readRoom_eq hasDoor]

/-- Settles O60, by the unit's decision as the tables state it, the request at the drop, and what the line that goes on leaves of it. -/
theorem readsAreDecided : Obligations.ReadsAreDecided := by
  unfold Obligations.ReadsAreDecided
  refine ⟨fun s l a n c law len exch => ?_, fun s l a b d c law hasDoor poll len => ?_⟩
  · dsimp only
    intro unbound noGrant takes
    obtain ⟨away, run⟩ := State.exec_cardRead_unbound len exch unbound
    obtain ⟨ends, rooms, minibars, denies⟩ := State.heard_refuse_sent (c := c) (reason := .unboundDrop) exch law takes away noGrant
    obtain ⟨queue, door, logs, rooms', denies', minibars'⟩ := ends.settles
    refine ⟨_, run, queue, door, rooms'.trans rooms, minibars'.trans minibars, ?_, fun k => by rw [denies', denies k]⟩
    have entry : (match (s.drop l a).binding with
        | some b => entryRoom b c
        | none => if cardRoom c < 48 then cardRoom c else 255) = readRoom (s.drop l a).binding c := by
      cases hb : (s.drop l a).binding with
      | none => rfl
      | some b =>
        refine (readRoom_eq ?_ c).symm
        rcases unbound with ⟨none_, -⟩ | ⟨-, hasDoor⟩
        · rw [hb] at none_
          cases none_
        · rw [hb] at hasDoor
          exact hasDoor
    have told := logs.asks
    rw [denyEntry, ← entry] at told
    exact told
  · dsimp only
    obtain ⟨⟨n, exch⟩, present, hb, hd⟩ := id poll
    refine ⟨fun good notHeld takes => ?_, fun good held => ?_, fun good notHeld refuses => ?_, fun reason bad kept => ?_, fun reason bad noGrant takes => ?_⟩
    · obtain ⟨cls, code, run⟩ := poll.granted hasDoor len good
      obtain ⟨ends, guest, denies⟩ := State.heard_grant_sent poll law hasDoor code notHeld takes
      obtain ⟨queue, door, logs, rooms, denies', -⟩ := ends.settles
      exact ⟨_, cls, run, code, door, queue, logs.asks, fun k => by rw [rooms]; exact guest k, denies'.trans denies⟩
    · obtain ⟨cls, code, run⟩ := poll.granted hasDoor len good
      obtain ⟨ends, guest, denies⟩ := State.heard_grant_held poll law hasDoor code held
      obtain ⟨queue, door, logs, rooms, denies', -⟩ := ends.settles
      exact ⟨_, run, door, logs.asks, fun k => by rw [rooms]; exact guest k, queue, denies'.trans denies⟩
    · obtain ⟨cls, code, run⟩ := poll.granted hasDoor len good
      obtain ⟨ends, same, denies⟩ := State.heard_grant_unsent poll law hasDoor code notHeld refuses
      obtain ⟨queue, door, logs, rooms, denies', -⟩ := ends.settles
      refine ⟨_, run, door, rooms.trans same, denies'.trans denies, queue, fun other => ?_, fun emergency room => ?_⟩
      · rw [if_neg other] at logs
        exact logs.asks
      · rw [if_pos emergency] at logs
        exact logs.admits room
    · obtain ⟨ends, same, -, denies⟩ := State.heard_refuse_unsent (c := c) (reason := reason) exch law (kept.imp_left fun pending => ⟨d, hd, pending⟩)
      obtain ⟨queue, door, logs, rooms, denies', -⟩ := ends.settles
      rw [hb, denyEntry_door l a hasDoor] at logs
      refine ⟨_, poll.refused hasDoor len bad, door.trans hd, rooms.trans same, queue, logs.asks, fun k => ?_⟩
      simp only [denies', denies k, hb, Option.some_inj]
    · obtain ⟨ends, same, -, denies⟩ := State.heard_refuse_sent (c := c) (reason := reason) exch law takes (State.minibarAt_door hb hasDoor)
        fun e he => by rw [hd] at he; cases he; exact noGrant
      obtain ⟨queue, door, logs, rooms, denies', -⟩ := ends.settles
      rw [hb, denyEntry_door l a hasDoor, Bool.not_true, flagBit, if_neg Bool.false_ne_true, Nat.add_zero] at logs
      refine ⟨_, poll.refused hasDoor len bad, door.trans hd, queue, rooms.trans same, logs.asks, fun k => ?_⟩
      simp only [denies', denies k, hb, Option.some_inj]

end Sys2Proof.Machine

namespace Sys2Proof.Machine

open Sys2Proof

/-! ## A message to a minibar's drop (R139, R140) -/

/-- The binding of every drop stands. -/
def State.SameBindings (s t : State) : Prop := ∀ l a, (t.drop l a).binding = (s.drop l a).binding

theorem State.SameBindings.of_lines {s t : State} (h : t.lines = s.lines) : s.SameBindings t := fun l a => by
  unfold State.drop
  rw [h]

theorem State.SameBindings.of_records {s t : State} (h : t.records = s.records) : s.SameBindings t := .of_lines (State.records_lines h)

theorem State.SameBindings.trans {s t u : State} (h : s.SameBindings t) (h' : t.SameBindings u) : s.SameBindings u := fun l a => (h' l a).trans (h l a)

theorem State.SameBindings.minibarDropOf {s t : State} (h : s.SameBindings t) (r : Fin 48) : t.minibarDropOf r = s.minibarDropOf r := by
  unfold State.minibarDropOf State.findDrop
  simp only [fun p : Fin 2 × Fin 64 => h p.1 p.2]

theorem State.sameBindings_setDrop (s : State) (l : Fin 2) (a : Fin 64) (d : Drop) (same : d.binding = (s.drop l a).binding) : s.SameBindings (s.setDrop l a d) :=
  fun k c => by
    by_cases h : (k, c) = (l, a)
    · obtain ⟨rfl, rfl⟩ := Prod.mk.inj h
      rw [s.setDrop_same]
      exact same
    · rw [s.drop_setDrop_other d h]

theorem State.minibarDropOf_bound {s : State} {r : Fin 48} {l : Fin 2} {a : Fin 64} (found : s.minibarDropOf r = some (l, a)) :
    (s.drop l a).binding = some (.minibar r) := of_decide_eq_true (List.find?_some found :)

/-- Work on the lines and on minibar `r`, by which an OPEN may have been lost: what the journal was asked, and what stands. -/
structure State.LosesAt (s t : State) (r : Fin 48) (qs : List Request) : Prop where
  bound : s.SameBindings t
  rooms : t.rooms = s.rooms
  others : ∀ k, k ≠ r → t.minibars[k] = s.minibars[k]
  scanning : s.minibars[r].state = .scanning → ∃ g, t.minibars[r] = { s.minibars[r] with pending := g }
  idle : s.minibars[r].pending = none → t.minibars = s.minibars
  reports : s.Reports t ofRoomMirrors qs

/-- An OPEN may be lost: at most one entry, a ROUTINE one, and none where no grant was pending. -/
def State.MayLose (s t : State) (r : Fin 48) : Prop :=
  ∃ qs, s.LosesAt t r qs ∧ qs.length ≤ 1 ∧ (∀ q ∈ qs, q.kind.isAlarm = false) ∧ (s.Doorless r → s.minibars[r].pending = none → qs = [])

section
variable {s t u : State} {r : Fin 48} {qs : List Request}

theorem State.losesAt_lines (lines : t = { s with lines := t.lines }) (bound : s.SameBindings t) : s.LosesAt t r [] where
  bound := bound
  rooms := (congrArg State.rooms lines :)
  others k _ := by rw [(congrArg State.minibars lines :)]
  scanning _ := ⟨_, by rw [(congrArg State.minibars lines :)]⟩
  idle _ := (congrArg State.minibars lines :)
  reports := by
    rw [lines]
    exact ⟨rfl, rfl, .nil rfl, fun _ => .refl _, .of_ram rfl _, fun _ => rfl⟩

theorem State.LosesAt.refl (s : State) (r : Fin 48) : s.LosesAt s r [] := State.losesAt_lines rfl fun _ _ => rfl

/-- Work on the lines, then the OPEN's loss. -/
theorem State.LosesAt.trans (h : s.LosesAt t r []) (same : t.minibars = s.minibars) (h' : t.LosesAt u r qs) : s.LosesAt u r qs where
  bound := h.bound.trans h'.bound
  rooms := h'.rooms.trans h.rooms
  others k hk := (h'.others k hk).trans (by rw [same])
  scanning hs := by
    rw [← same] at hs ⊢
    exact h'.scanning hs
  idle hp := by
    rw [← same] at hp ⊢
    exact h'.idle hp
  reports := h.reports.trans h'.reports

theorem State.MayLose.of_losesAt (h : s.LosesAt t r []) : s.MayLose t r := ⟨[], h, Nat.zero_le 1, nofun, fun _ _ => rfl⟩

theorem State.mayLose_minibarGrantLost (s : State) (r : Fin 48) (place cause : Nat) : s.MayLose (s.minibarGrantLost r place cause) r := by
  have after (g : Grant) (x : Minibar) (pending : s.minibars[r].pending = some g)
      (hx : s.minibars[r].state = .scanning → x = { s.minibars[r] with pending := none }) :
      s.MayLose ((s.admitRequest (undeliveredRequest place g cause)).putMinibar r x) r := by
    have records := State.records_putMinibar (s.admitRequest_records (undeliveredRequest place g cause)) r x
    have reports := (s.reports_admitRequest (undeliveredRequest place g cause) ofRoomMirrors).trans_nil
      ((State.reports_putMinibar _ r x).mono fun y h => ⟨r, h⟩)
    generalize (s.admitRequest _).putMinibar r x = t at records reports ⊢
    have minibars : t.minibars = s.minibars.set r x := (State.records_minibars records :)
    refine ⟨_, ⟨.of_lines (State.records_lines records :), (State.records_rooms records :), fun k hk => ?_, fun hs => ⟨none, ?_⟩, fun hp => ?_, reports⟩,
      Nat.le_refl 1, by simp [undeliveredRequest, EntryKind.isAlarm], fun _ hp => ?_⟩
    · rw [minibars]
      exact vector_set_ne _ _ hk
    · rw [minibars, ← hx hs]
      exact vector_set_same _ r x
    · rw [pending] at hp
      cases hp
    · rw [pending] at hp
      cases hp
  unfold State.minibarGrantLost
  dsimp only
  split
  · exact .of_losesAt (.refl s r)
  · rename_i g pending
    exact after g _ pending fun hs => if_neg fun h => by rw [hs] at h; cases h.1

theorem State.mayLose_doorGrantLost (s : State) (l : Fin 2) (a : Fin 64) (cause : Nat) (r : Fin 48) (hb : (s.drop l a).binding = some (.minibar r)) :
    s.MayLose (s.doorGrantLost l a cause) r := by
  cases hg : (s.drop l a).door.bind DoorSide.pending with
  | none =>
    rw [s.doorGrantLost_none l a cause hg]
    exact .of_losesAt (.refl s r)
  | some g =>
    obtain ⟨d, hd, -⟩ := Option.bind_eq_some_iff.1 hg
    obtain ⟨reports, lines⟩ := s.doorGrantLost_reports l a cause
    have onLines := s.doorGrantLost_onLines l a cause
    rw [lostEntries, hg] at reports
    refine ⟨_, ⟨?_, onLines.rooms, fun k _ => by rw [onLines.minibars], fun _ => ⟨_, by rw [onLines.minibars]⟩, fun _ => onLines.minibars,
      reports.mono fun _ => ofMirrorOf_rooms⟩, Nat.le_refl 1, ?_, fun doorless _ => ?_⟩
    · have kept : s.SameBindings (s.setDrop l a { s.drop l a with door := (s.drop l a).door.map DoorSide.withoutGrant }) := s.sameBindings_setDrop l a _ rfl
      exact kept.trans (.of_lines lines)
    · simp [Grant.lostEntry, EntryKind.isAlarm]
    · rw [doorless l a hb] at hd
      cases hd

theorem State.mayLose_openLost (s : State) (l : Fin 2) (a : Fin 64) (asker : Asker) (cause : Nat) (r : Fin 48)
    (hb : (s.drop l a).binding = some (.minibar r)) : s.MayLose (s.openLost l a asker cause) r := by
  unfold State.openLost
  cases asker with
  | doorUnit => exact s.mayLose_doorGrantLost l a cause r hb
  | minibarUnit =>
    have here : s.minibarAt l a = some r := by
      unfold State.minibarAt
      rw [hb]
    rw [here]
    exact s.mayLose_minibarGrantLost r _ _
  | zoneTable => exact .of_losesAt (.refl s r)

theorem State.losesAt_setOwed (s : State) (l : Fin 2) (a : Fin 64) (o : Option Owed) : s.LosesAt (s.setOwed l a o) r [] :=
  State.losesAt_lines rfl (s.sameBindings_setDrop l a _ rfl)

theorem State.losesAt_queued (s : State) (l : Fin 2) (q : List QMsg) (a : Fin 64) : s.LosesAt ((s.setQueue l q).setOwed l a none) r [] := by
  have queued : s.LosesAt (s.setQueue l q) r [] := State.losesAt_lines rfl fun k c => by rw [s.drop_setQueue]
  exact queued.trans rfl (State.losesAt_setOwed _ l a none)

/-- A message to a minibar's drop. -/
theorem State.mayLose_request (s : State) (l : Fin 2) (m : QMsg) (r : Fin 48) (hb : (s.drop l m.addr).binding = some (.minibar r)) :
    s.MayLose (s.request l m).1 r := by
  have owe : s.MayLose (s.owe l m).1 r := by
    unfold State.owe
    split
    · exact .of_losesAt (.refl s r)
    · exact .of_losesAt (s.losesAt_setOwed _ _ _)
  unfold State.request
  dsimp only
  split
  · exact owe
  · split
    · exact .of_losesAt (.refl s r)
    · split
      · have queued := s.losesAt_queued (r := r) l (s.lines[l].queue.map fun q => if q.addr = m.addr then m else q) m.addr
        have doors := (s.doorsStand_setQueue l (s.lines[l].queue.map fun q => if q.addr = m.addr then m else q)).trans
          (State.doorsStand_setOwed _ l m.addr none)
        have same : ((s.setQueue l (s.lines[l].queue.map fun q => if q.addr = m.addr then m else q)).setOwed l m.addr none).minibars = s.minibars := rfl
        generalize (s.setQueue l _).setOwed l m.addr none = u at queued doors same ⊢
        split
        · obtain ⟨qs, loses, few, routine, none_⟩ := u.mayLose_openLost l m.addr _ 3 r ((queued.bound l m.addr).trans hb)
          refine ⟨qs, queued.trans same loses, few, routine, fun doorless pending => none_ (doors.doorless doorless) (by rw [same]; exact pending)⟩
        · exact .of_losesAt queued
      · split
        · exact .of_losesAt (s.losesAt_queued l _ _)
        · exact owe

/-- A message asked for at the room's minibar, which is neither OPEN nor DENY: it stands in the queue, or the drop owes it. -/
def State.StandsAt (s : State) (l : Fin 2) (a : Fin 64) (msg : Directed) (asker : Asker) : Prop :=
  s.Sends l { addr := a, msg := msg, asker := asker } ∨ (s.drop l a).owed = some { msg := msg, asker := asker }

theorem State.StandsAt.of_lines {l : Fin 2} {a : Fin 64} {msg : Directed} {asker : Asker} (h : s.StandsAt l a msg asker) (lines : t.lines = s.lines) :
    t.StandsAt l a msg asker := by
  unfold State.StandsAt State.Sends State.drop at *
  rw [lines]
  exact h

theorem State.GoesOn.standsAt (on : s.GoesOn t) {l : Fin 2} {a : Fin 64} {msg : Directed} {asker : Asker} (h : s.StandsAt l a msg asker) :
    t.StandsAt l a msg asker := h.imp on.sends fun owed => by rw [on.drop]; exact owed

theorem State.askMinibar_spec (s : State) (r : Fin 48) (msg : Directed) (other : msg.isOpenOrDeny = false) :
    s.MayLose (s.askMinibar r msg) r ∧
    ∀ l a, s.minibarDropOf r = some (l, a) → (s.askMinibar r msg).StandsAt l a msg .minibarUnit := by
  unfold State.askMinibar
  split
  · rename_i away
    exact ⟨.of_losesAt (.refl s r), fun l a found => by rw [away] at found; cases found⟩
  · rename_i l a found
    refine ⟨s.mayLose_request l _ r (State.minibarDropOf_bound found), fun k c same => ?_⟩
    obtain ⟨rfl, rfl⟩ := Prod.mk.inj (Option.some.inj (found.symm.trans same))
    exact (s.ask_stands l a msg .minibarUnit other).imp_left .inl

end

/-! ## A final scan that starts (R112, R122) -/

/-- The record as a scan of every tray starts. -/
def Minibar.scanned (m : Minibar) (purpose : ScanPurpose) : Minibar :=
  { m with
    state := .scanning, opener := none, deadline := none, onClose := none, latchMark := false
    purpose := some purpose, requested := m.allTrays, collected := Vector.replicate 8 none, scanCount := 10 }

theorem Minibar.allTrays_bits (m : Minibar) {i : Nat} (h : i < 8) : m.allTrays.getLsbD i = decide (i < m.trayCount) := by
  unfold Minibar.allTrays firstBits
  rw [BitVec.getLsbD_ofNat, Nat.testBit_two_pow_sub_one]
  simp [h]

theorem Minibar.allTrays_eq_zero (m : Minibar) : m.allTrays = 0 ↔ m.trayCount = 0 := firstBits_eq_zero

/-- From `s` to `t` a scan of every tray has been started at minibar `r`: its record but for a lost grant, the message, what the journal was asked. -/
structure State.ScanStarted (s t : State) (r : Fin 48) (purpose : ScanPurpose) : Prop where
  scan : ∃ g, t.minibars[r] = { s.minibars[r].scanned purpose with pending := g }
  others : ∀ k, k ≠ r → t.minibars[k] = s.minibars[k]
  rooms : t.rooms = s.rooms
  told : ∀ l a, s.minibarDropOf r = some (l, a) → t.StandsAt l a .scanAll .minibarUnit
  reports : ∃ qs, qs.length ≤ 1 ∧ s.Reports t ofRoomMirrors qs ∧ (∀ q ∈ qs, q.kind.isAlarm = false) ∧
    (s.Doorless r → s.minibars[r].pending = none → qs = [])

theorem State.startScan_started (s : State) (r : Fin 48) (purpose : ScanPurpose) (used : 1 ≤ s.minibars[r].trayCount) :
    s.ScanStarted (s.startScan r purpose none) r purpose := by
  have run : s.startScan r purpose none = (s.putMinibar r (s.minibars[r].scanned purpose)).askMinibar r .scanAll :=
    if_neg fun none_ => by have := s.minibars[r].allTrays_eq_zero.1 none_; omega
  rw [run]
  have put := s.putMinibar_same r (s.minibars[r].scanned purpose)
  have atRoom := s.atRoom_putMinibar r (s.minibars[r].scanned purpose)
  have rooms := s.putMinibar_rooms r (s.minibars[r].scanned purpose)
  have wrote := (s.reports_putMinibar r (s.minibars[r].scanned purpose)).mono fun x h => (⟨r, h⟩ : ofRoomMirrors x)
  generalize s.putMinibar r (s.minibars[r].scanned purpose) = u at put atRoom rooms wrote ⊢
  obtain ⟨⟨qs, loses, few, routine, none_⟩, told⟩ := u.askMinibar_spec r .scanAll rfl
  have bindings : s.SameBindings u := fun l a => (atRoom.doors l a).2
  exact {
    scan := by
      obtain ⟨g, e⟩ := loses.scanning (by rw [put]; rfl)
      exact ⟨g, by rw [e, put]⟩
    others := fun k hk => (loses.others k hk).trans (atRoom.minibars k hk)
    rooms := loses.rooms.trans rooms
    told := fun l a found => told l a (by rw [bindings.minibarDropOf]; exact found)
    reports := ⟨qs, few, wrote.trans loses.reports, routine, fun doorless pending => none_ (atRoom.doors.doorless doorless) (by rw [put]; exact pending)⟩ }

end Sys2Proof.Machine

namespace Sys2Proof.Machine

open Sys2Proof

/-! ## One request among those made has its entry (R155) -/

theorem entryWith_mem (s : State) (seq : Nat) (q : Request) (qs : List Request) (h : q ∈ qs) : ∃ n, s.entryWith n q ∈ s.entriesFrom seq qs := by
  induction qs generalizing seq with
  | nil => cases h
  | cons p ps ih =>
    rcases List.mem_cons.1 h with rfl | rest
    · exact ⟨seq, List.mem_cons_self⟩
    · obtain ⟨n, mem⟩ := ih _ rest
      exact ⟨n, List.mem_cons_of_mem _ mem⟩

/-- With room for the first requests, each of them stands in the queue as an entry. -/
theorem State.Logs.holds {s t : State} {qs rs : List Request} (h : s.Logs t (qs ++ rs)) {n : Nat} (room : s.HasRoom n) (few : qs.length ≤ n)
    {q : Request} (mem : q ∈ qs) : ∃ k, s.entryWith k q ∈ t.journal.queue := by
  obtain ⟨k, entry⟩ := entryWith_mem s s.journal.sequence q qs mem
  exact ⟨k, (h.admits_prefix (room.less few)).subset (List.mem_append_right _ entry)⟩

/-! ## The last second of a minibar's window (R110, R122) -/

section
variable {s : State} {r : Fin 48}

theorem State.windowEnds_run {n : Nat} (ticks : s.ticks = true) (granted : s.minibars[r].state = .granted) (deadline : s.minibars[r].deadline = some n)
    (last : n ≤ 1) : exec (.minibarDeadlineExpiry r) s = .next (s.minibarWindowEnds r).settle := by
  have due : s.minibars[r].windowRunsOut = true := by
    simp only [Minibar.windowRunsOut, granted, deadline, decide_true, Bool.true_and]
    exact decide_eq_true last
  exact congrArg Host.Outcome.next (if_pos (by rw [ticks, due]; rfl))

theorem Minibar.rest_eq (m : Minibar) (st : MinibarState) : m.rest st = m.cleared st := rfl

/-- The record of minibar `r` written, and the lines go on. -/
theorem State.putMinibar_settles (s : State) (r : Fin 48) (x : Minibar) (no : s.NoGoDue) :
    let t := (s.putMinibar r x).settle
    t.minibars = s.minibars.set r x ∧ t.rooms = s.rooms ∧ t.beyondLines = s.beyondLines ∧ t.journal = s.journal ∧ t.held = s.held ∧
      ∀ l a, t.drop l a = s.drop l a := by
  have records := s.putMinibar_records r x
  have reports := s.reports_putMinibar r x
  have lines : (s.putMinibar r x).lines = s.lines := (State.records_lines records :)
  have beyond := State.records_beyondLines records reports.engine
  generalize s.putMinibar r x = u at *
  have on := u.settle_goesOn (no.of_course fun l => by rw [lines])
  refine ⟨on.minibars.trans (State.records_minibars records :), on.rooms.trans (State.records_rooms records :), on.beyondLines.trans beyond,
    on.journal.trans (reports.still rfl), (congrArg State.held on.rest :).trans reports.held, fun l a => ?_⟩
  rw [on.drop]
  unfold State.drop
  rw [lines]

/-! ## The last second of a scan (R114) -/

/-- The work of an abandoned scan up to the orders it answers. -/
def State.scanDropped (s : State) (r : Fin 48) : State :=
  let u := s.askMinibar r .stopScan
  (u.minibarFault r (u.minibarPlace r) 2 u.minibars[r].charge u.minibars[r].missing).putMinibar r (u.minibars[r].rest .locked).applyMark

/-- The entry of an abandoned scan. -/
def Minibar.expiryEntry (m : Minibar) (r : Fin 48) (place : Nat) : Request :=
  { kind := .minibarFault, place := place, room := r.val, reason := 2, subject := m.charge, value := m.unread }

structure State.ScanDropped (s t : State) (r : Fin 48) : Prop where
  minibar : ∃ g, t.minibars[r] = ({ s.minibars[r].cleared .locked with pending := g } : Minibar).marked
  others : ∀ k, k ≠ r → t.minibars[k] = s.minibars[k]
  rooms : t.rooms = s.rooms
  told : ∀ l a, s.minibarDropOf r = some (l, a) → t.StandsAt l a .stopScan .minibarUnit
  reports : ∃ qs place, qs.length ≤ 1 ∧ (∀ q ∈ qs, q.kind.isAlarm = false) ∧ s.Reports t ofRoomMirrors (qs ++ [s.minibars[r].expiryEntry r place])

theorem State.scanDropped_spec (s : State) (r : Fin 48) (scanning : s.minibars[r].state = .scanning) : s.ScanDropped (s.scanDropped r) r := by
  obtain ⟨⟨qs, loses, few, routine, -⟩, told⟩ := s.askMinibar_spec r .stopScan rfl
  unfold State.scanDropped
  dsimp only
  generalize s.askMinibar r .stopScan = u at *
  obtain ⟨g, record⟩ := loses.scanning scanning
  have fault : u.minibarFault r (u.minibarPlace r) 2 u.minibars[r].charge u.minibars[r].missing =
      u.admitRequest (s.minibars[r].expiryEntry r (u.minibarPlace r)) := by
    unfold State.minibarFault
    rw [Minibar.missing_toNat, record]
    rfl
  have rest : (u.minibars[r].rest .locked).applyMark = ({ s.minibars[r].cleared .locked with pending := g } : Minibar).marked := by
    rw [Minibar.applyMark_eq, record]
    rfl
  rw [fault, rest]
  generalize u.minibarPlace r = place
  have records := State.records_putMinibar (u.admitRequest_records (s.minibars[r].expiryEntry r place)) r
    ({ s.minibars[r].cleared .locked with pending := g } : Minibar).marked
  have reports := (loses.reports.trans (u.reports_admitRequest (s.minibars[r].expiryEntry r place) _)).trans_nil
    ((State.reports_putMinibar _ r ({ s.minibars[r].cleared .locked with pending := g } : Minibar).marked).mono fun x h => ⟨r, h⟩)
  generalize (u.admitRequest _).putMinibar r _ = t at records reports ⊢
  have minibars : t.minibars = u.minibars.set r _ := (State.records_minibars records :)
  exact {
    minibar := ⟨g, by rw [minibars]; exact vector_set_same _ r _⟩
    others := fun k hk => by rw [minibars, vector_set_ne _ _ hk]; exact loses.others k hk
    rooms := (State.records_rooms records :).trans loses.rooms
    told := fun l a found => (told l a found).of_lines (State.records_lines records :)
    reports := ⟨qs, place, few, routine, reports⟩ }

/-- An abandoned scan answers its HOST order and, if it is final, reports to the Room Table. -/
theorem State.scanExpires_eq (s : State) (r : Fin 48) (scanning : s.minibars[r].state = .scanning) : ∃ x : Minibar,
    s.scanExpires r = ((s.scanDropped r).answerScan r x s.minibars[r].purpose .ok 0 s.minibars[r].missing).reportFinal r s.minibars[r].isFinalScan false := by
  obtain ⟨⟨qs, loses, -⟩, -⟩ := s.askMinibar_spec r .stopScan rfl
  unfold State.scanExpires State.scanDropped
  dsimp only
  generalize s.askMinibar r .stopScan = u at *
  obtain ⟨g, record⟩ := loses.scanning scanning
  have purpose : u.minibars[r].purpose = s.minibars[r].purpose := by rw [record]
  have missing : u.minibars[r].missing = s.minibars[r].missing := by rw [record]; rfl
  have final : u.minibars[r].isFinalScan = s.minibars[r].isFinalScan := by rw [record]; rfl
  exact ⟨u.minibars[r].rest .locked, by rw [purpose, missing, final]⟩

end

end Sys2Proof.Machine

namespace Sys2Proof.Machine
open Sys2Proof
theorem setOf_testBit (p : Nat → Bool) (n : Nat) (i : Nat) :
    (((List.range n).map fun k => if p k then 2 ^ k else 0).sum).testBit i = (decide (i < n) && p i) := by
  have bound (n : Nat) : ((List.range n).map fun k => if p k then 2 ^ k else 0).sum < 2 ^ n := by
    induction n with
    | zero => simp
    | succ n ih =>
      rw [List.range_succ, List.map_append, List.sum_append, pow_succ]
      simp only [List.map_cons, List.map_nil, List.sum_cons, List.sum_nil]
      split <;> omega
  induction n with
  | zero => simp
  | succ n ih =>
    rw [List.range_succ, List.map_append, List.sum_append]
    simp only [List.map_cons, List.map_nil, List.sum_cons, List.sum_nil, Nat.add_zero]
    have low := bound n
    by_cases hp : p n = true
    · rw [if_pos hp, Nat.add_comm]
      rcases Nat.lt_trichotomy i n with lt | rfl | gt
      · rw [Nat.testBit_two_pow_add_gt lt, ih]
        simp [lt, Nat.lt_succ_of_lt lt]
      · rw [Nat.testBit_two_pow_add_eq, Nat.testBit_lt_two_pow low]
        simp [hp]
      · rw [Nat.testBit_lt_two_pow (lt_of_lt_of_le (by omega : _ < 2 ^ (n + 1)) (Nat.pow_le_pow_right (by omega) gt))]
        simp [Nat.not_lt.2 gt]
    · rw [if_neg hp, Nat.add_zero, ih]
      rcases Nat.lt_trichotomy i n with lt | rfl | gt
      · simp [lt, Nat.lt_succ_of_lt lt]
      · simp [Bool.eq_false_iff.2 hp]
      · simp [Nat.not_lt.2 gt, Nat.lt_asymm gt]

theorem setOf_getLsbD (p : Nat → Bool) {i : Nat} (h : i < 8) : (setOf p).getLsbD i = p i := by
  unfold setOf
  rw [BitVec.getLsbD_ofNat, setOf_testBit]
  simp [h]

theorem Minibar.missing_getLsbD (m : Minibar) (i : Fin 8) : m.missing.getLsbD i.val = (m.requested.getLsbD i.val && m.collected[i].isNone) := by
  unfold Minibar.missing
  rw [setOf_getLsbD _ i.isLt, dif_pos i.isLt]
  rfl

/-! ## Results read from an order's end -/

section
variable {t : State} {b : Fin 16} {res : Result}

theorem State.EndedWith.byteAt {data : List Byte} (h : t.EndedWith b res data) {i : Nat} {x : Byte} (at_ : data[i]? = some x) (few : i < 20) :
    t.byte (64 * b.val + 44 + i) = x := by
  obtain ⟨lt, e⟩ := List.getElem?_eq_some_iff.1 at_
  have field := h.2 i 1 lt few
  have drop : (data.drop i).take 1 = [x] := by
    rw [List.drop_eq_getElem_cons lt, e]
    rfl
  rw [drop] at field
  refine BitVec.eq_of_toNat_eq ?_
  simpa [State.resultAt, State.field, leNat] using field

theorem State.resultAt_one (t : State) (b : Fin 16) (i : Nat) : t.resultAt b i 1 = (t.byte (64 * b.val + 44 + i)).toNat := by
  simp [State.resultAt, State.field, leNat]

/-- The results of the CHECKOUT of a room that is closed (R30). -/
theorem State.EndedWith.closed {x : Room} {scanned : Bool} {charge : Nat} (h : t.EndedWith b res (x.closedData scanned charge)) :
    t.resultAt b 0 1 = x.generation % 256 ∧ t.resultAt b 1 1 = flagBit (!scanned) ∧ t.resultAt b 4 4 = charge % 4294967296 := by
  refine ⟨?_, ?_, ?_⟩
  · rw [State.resultAt_one, h.byteAt (i := 0) rfl (by omega)]
    exact BitVec.toNat_ofNat _ 8
  · rw [State.resultAt_one, h.byteAt (i := 1) rfl (by omega)]
    cases scanned <;> rfl
  · rw [h.2 4 4 (by simp [Room.closedData, leBytes]) (by omega)]
    have tail : ((x.closedData scanned charge).drop 4).take 4 = leBytes 4 charge := by simp [Room.closedData, leBytes]
    rw [tail, leNat_leBytes]
    rfl

end

theorem Room.closingData_eq (x : Room) (charge : Nat) : x.closingData charge = x.closedData false charge := rfl

/-! ## An abandoned scan (R114) -/

theorem State.answerScan_books (s : State) (r : Fin 48) (m : Minibar) (purpose : Option ScanPurpose) (res : Result) (read missing : Byte) :
    (s.answerScan r m purpose res read missing).books = s.books := by
  unfold State.answerScan
  split
  · exact s.completeFor_books _ _ _
  · rfl

/-- The order of the Room Table stands while a HOST scan's is answered. -/
theorem State.HeldInv.heldBy_answerScan {s : State} (one : s.HeldInv) {r k : Fin 48} {h : Held} (e : s.heldBy (.roomTable k) = some h) (m : Minibar)
    (purpose : Option ScanPurpose) (res : Result) (read missing : Byte) :
    (s.answerScan r m purpose res read missing).heldBy (.roomTable k) = some h := by
  unfold State.answerScan
  split
  · exact one.heldBy_completeFor (by nofun) e _ _
  · exact e

/-- A scan at minibar `r` has been abandoned. -/
structure State.ScanExpired (s t : State) (r : Fin 48) (closes : Bool) : Prop where
  minibar : ∃ g, t.minibars[r] = ({ s.minibars[r].cleared .locked with pending := g } : Minibar).marked
  others : ∀ k, k ≠ r → t.minibars[k] = s.minibars[k]
  rooms : t.rooms = if closes then s.rooms.set r s.rooms[r].unscannedClose else s.rooms
  told : ∀ l a, s.minibarDropOf r = some (l, a) → t.StandsAt l a .stopScan .minibarUnit
  logs : ∃ qs place, qs.length ≤ 1 ∧ s.Logs t ((qs ++ [s.minibars[r].expiryEntry r place]) ++
    if closes then s.rooms[r].closing r t.minibars[r].charge else [])
  host : s.minibars[r].purpose = some .host → ∀ h, s.heldBy (.minibarUnit r) = some h →
    ∃ x : Minibar, t.EndedWith h.block .ok (scanData x 0 s.minibars[r].missing)
  checkout : s.HeldInv → closes = true → ∀ h, s.heldBy (.roomTable r) = some h →
    t.EndedWith h.block .ok (s.rooms[r].closedData false t.minibars[r].charge)

theorem State.scanExpires_expired (s : State) (r : Fin 48) (scanning : s.minibars[r].state = .scanning) :
    s.ScanExpired (s.scanExpires r) r (s.minibars[r].isFinalScan && decide (s.rooms[r].state = .departing)) := by
  obtain ⟨minibar, others, rooms, told, qs, place, few, -, reports⟩ := s.scanDropped_spec r scanning
  obtain ⟨x, run⟩ := s.scanExpires_eq r scanning
  rw [run]
  generalize s.scanDropped r = u at *
  have records := u.answerScan_records r x s.minibars[r].purpose .ok 0 s.minibars[r].missing
  have books := u.answerScan_books r x s.minibars[r].purpose .ok 0 s.minibars[r].missing
  have host : s.minibars[r].purpose = some .host → ∀ h, s.heldBy (.minibarUnit r) = some h →
      (u.answerScan r x s.minibars[r].purpose .ok 0 s.minibars[r].missing).EndedWith h.block .ok (scanData x 0 s.minibars[r].missing) := fun purpose h held => by
    unfold State.answerScan
    rw [if_pos purpose]
    exact State.completeFor_endedWith ((State.heldBy_congr reports.held _).trans held) _ _
  have checkout : s.HeldInv → ∀ h, s.heldBy (.roomTable r) = some h →
      (u.answerScan r x s.minibars[r].purpose .ok 0 s.minibars[r].missing).heldBy (.roomTable r) = some h := fun one h held =>
    State.HeldInv.heldBy_answerScan (by unfold State.HeldInv at one ⊢; rw [reports.held]; exact one) ((State.heldBy_congr reports.held _).trans held) _ _ _ _ _
  generalize u.answerScan r x s.minibars[r].purpose .ok 0 s.minibars[r].missing = v at *
  obtain ⟨logs, final, ended, closed⟩ := v.reportFinal_unscanned r s.minibars[r].isFinalScan
  have vrooms : v.rooms = s.rooms := (State.records_rooms records :).trans rooms
  have vminibars : v.minibars = u.minibars := (State.records_minibars records :)
  rw [vrooms] at logs final closed
  generalize v.reportFinal r s.minibars[r].isFinalScan false = t at *
  have minibars : t.minibars = u.minibars := (State.records_minibars final :).trans vminibars
  have charge : t.minibars[r].charge = v.minibars[r].charge := by rw [minibars, vminibars]
  rw [← charge] at logs closed
  exact {
    minibar := by rw [minibars]; exact minibar
    others := fun k hk => by rw [minibars]; exact others k hk
    rooms := (State.records_rooms final :)
    told := fun l a found => (told l a found).of_lines ((State.records_lines final :).trans (State.records_lines records :))
    logs := ⟨qs, place, few, (reports.logs.trans_nil books).trans logs⟩
    host := fun purpose h held => ⟨x, ended _ _ _ (host purpose h held)⟩
    checkout := fun one closes h held => closed closes h (checkout one h held) }

theorem Minibar.marked_keeps (m : Minibar) : m.marked.state = m.state ∧ m.marked.pending = m.pending := by
  unfold Minibar.marked
  split <;> exact ⟨rfl, rfl⟩

theorem State.EndedWith.settles {s t : State} (on : s.GoesOn t) {b : Fin 16} {res : Result} {data : List Byte} (h : s.EndedWith b res data) :
    t.EndedWith b res data := ⟨on.ended h.1, fun i n few short => by rw [on.resultAt]; exact h.2 i n few short⟩

/-- Settles O21, by the window or the scan that ends, and then the lines go on. -/
theorem minibarCountsEnd : Obligations.MinibarCountsEnd := by
  intro s r ready counting law
  have ticks := State.ticks_of ready counting
  dsimp only
  refine ⟨fun n last granted deadline noFinal => ?_, fun n last granted deadline final used few => ?_, fun scanning last => ?_⟩
  · refine ⟨_, State.windowEnds_run ticks granted deadline last, ?_⟩
    have locks : s.minibarWindowEnds r = s.putMinibar r (s.minibars[r].cleared .locked).marked := by
      unfold State.minibarWindowEnds
      dsimp only
      rw [if_neg (by rw [noFinal]; nofun), Minibar.applyMark_eq]
      rfl
    rw [locks]
    exact s.putMinibar_settles r _ law.noGoDue
  · have starts : s.minibarWindowEnds r = s.startScan r .final none := if_pos final
    have tick : s.tickMinibar r = s.minibarWindowEnds r := by simp only [State.tickMinibar, granted, deadline, if_pos last]
    have work : State.Work .calm s (s.minibarWindowEnds r) := tick ▸ s.work_tickMinibar r
    obtain ⟨⟨g, scan⟩, -, -, told, -⟩ := s.startScan_started r .final used
    rw [← starts] at scan told
    refine ⟨_, State.windowEnds_run ticks granted deadline last, ?_⟩
    have on := State.settle_goesOn _ (law.noGoDue.of_course work.course)
    rw [on.minibars, scan]
    exact ⟨rfl, rfl, rfl, rfl, fun i => Minibar.allTrays_bits _, rfl, rfl, rfl, fun l a found => on.standsAt (told l a found)⟩
  · have tick : s.tickMinibar r = s.scanExpires r := by simp only [State.tickMinibar, scanning, if_pos last]
    have work : State.Work .calm s (s.scanExpires r) := tick ▸ s.work_tickMinibar r
    have expired := s.scanExpires_expired r scanning
    have on := State.settle_goesOn _ (law.noGoDue.of_course work.course)
    have run : exec (.scanExpiry r) s = .next (s.scanExpires r).settle := congrArg Host.Outcome.next (if_pos ⟨ticks, scanning, last⟩)
    refine ⟨_, run, ?_⟩
    generalize (s.scanExpires r).settle = t at on ⊢
    generalize s.scanExpires r = u at on expired
    obtain ⟨⟨g, minibar⟩, others, rooms, told, ⟨qs, place, few, logs⟩, host, checkout⟩ := expired
    have logged := logs.trans_nil (congrArg State.books on.rest :)
    have closes : (s.minibars[r].isFinalScan && decide (s.rooms[r].state = .departing)) = true ↔
        (s.minibars[r].purpose = some .final ∨ s.minibars[r].finalMark = true) ∧ s.rooms[r].state = .departing := by
      rw [Bool.and_eq_true, decide_eq_true_iff, Minibar.isFinalScan_iff]
    generalize (s.minibars[r].isFinalScan && decide (s.rooms[r].state = .departing)) = final at *
    rw [on.minibars, on.rooms]
    refine ⟨?_, fun room => ?_, others, fun l a found => on.standsAt (told l a found), fun closing => ?_, fun open_ => ?_, fun h owners purpose held => ?_⟩
    · rw [minibar]
      obtain ⟨-, pending⟩ := Minibar.marked_keeps { s.minibars[r].cleared .locked with pending := g }
      rw [pending]
    · obtain ⟨k, entry⟩ := logged.holds room (by rw [List.length_append, List.length_singleton]; omega) (List.mem_append_right _ (List.mem_singleton_self _))
      exact ⟨_, entry, rfl, rfl, rfl, rfl, rfl⟩
    · have yes := closes.2 closing
      rw [yes] at rooms logged
      refine ⟨rooms, fun room => ?_, fun h owners held => ?_⟩
      · rw [if_pos rfl, ← List.append_nil (_ ++ Room.closing _ _ _)] at logged
        obtain ⟨k, entry⟩ := logged.holds room (by simp [Room.closing]; omega) (List.mem_append_right _ List.mem_cons_self)
        exact ⟨_, entry, rfl, rfl, rfl, rfl⟩
      · have done := (checkout owners.1 yes h held).settles on
        obtain ⟨-, flag, charge⟩ := done.closed
        exact ⟨done.1, flag, charge⟩
    · rw [if_neg fun yes => open_ (closes.1 yes)] at rooms
      exact rooms
    · obtain ⟨x, done⟩ := host purpose h held
      have done := done.settles on
      refine ⟨done.1, ?_, fun i => ?_⟩
      · rw [State.resultAt_one, done.byteAt (i := 0) rfl (by omega)]
        rfl
      · have byte := done.byteAt (i := 1) rfl (by omega)
        rw [show 64 * h.block.val + 45 = 64 * h.block.val + 44 + 1 from rfl, byte]
        exact s.minibars[r].missing_getLsbD i

end Sys2Proof.Machine

namespace Sys2Proof.Machine

open Sys2Proof

/-! ## A scan that completes (R117) -/

/-- A final scan's report has been made: `closes` where it is one, and the room is DEPARTING. -/
structure State.ReportMade (s t : State) (r : Fin 48) (scanned closes : Bool) : Prop where
  logs : s.Logs t (if closes then s.rooms[r].closedEntries r scanned s.minibars[r].charge else [])
  records : t.records = ({ s with rooms := if closes then s.rooms.set r (s.rooms[r].closed !scanned) else s.rooms } : State).records
  ended : ∀ k res data, s.EndedWith k res data → t.EndedWith k res data
  checkout : closes = true → ∀ h, s.heldBy (.roomTable r) = some h → t.EndedWith h.block .ok (s.rooms[r].closedData scanned s.minibars[r].charge)
  dropped : closes = false → t = s

theorem State.reportFinal_made (s : State) (r : Fin 48) (isFinal scanned : Bool) :
    s.ReportMade (s.reportFinal r isFinal scanned) r scanned (isFinal && decide (s.rooms[r].state = .departing)) := by
  unfold State.reportFinal
  cases isFinal with
  | false => exact ⟨.nil rfl, rfl, fun _ _ _ h => h, nofun, fun _ => rfl⟩
  | true =>
    unfold State.finalReport
    by_cases hd : s.rooms[r].state = .departing
    · obtain ⟨u, e, work, records⟩ := s.closeRoom_spec r scanned s.minibars[r].charge
      have routine := s.rooms[r].closedEntries_routine r scanned s.minibars[r].charge
      rw [if_pos rfl, if_pos hd, e, Bool.true_and, decide_eq_true hd]
      exact {
        logs := work.logs.trans_nil (u.completeFor_books _ _ _)
        records := (u.completeFor_records _ _ _).trans records
        ended := fun k res data h => (h.reports (work.mono fun x hx => ⟨r, hx⟩) routine).completeFor _
        checkout := fun _ h hh => State.completeFor_endedWith ((State.heldBy_congr work.held _).trans hh) _ _
        dropped := nofun }
    · rw [if_pos rfl, if_neg hd, Bool.true_and, decide_eq_false hd]
      exact ⟨.nil rfl, rfl, fun _ _ _ h => h, nofun, fun _ => rfl⟩

/-- The record a completing scan leaves before a stay-start mark is applied. -/
def Minibar.finished (m : Minibar) : Minibar := m.weighed.rest .locked

/-- The trays a completing scan finds newly faulted. -/
def Minibar.faulted (m : Minibar) : Byte := m.newFaults (decide (m.purpose = some .restock))

/-- The entry of newly faulted trays. -/
def Minibar.faultEntries (m : Minibar) (r : Fin 48) (place : Nat) : List Request :=
  if m.faulted ≠ 0 then
    [{ kind := .minibarFault, place := place, room := r.val, reason := 1, subject := m.charge, value := m.faulted.toNat }]
  else []

/-- The entry of the restock, or of a charge that has changed. -/
def Minibar.scanEntries (m : Minibar) (r : Fin 48) (place : Nat) : List Request :=
  if m.purpose = some .restock then
    [{ kind := .minibarRestocked, place := place, room := r.val, subject := m.weighed.carried, value := m.goodTrays.toNat }]
  else if m.weighed.charge ≠ m.charge then
    [{ kind := .minibarCharge, place := place, room := r.val, reason := (m.purpose.map ScanPurpose.code).getD 0, subject := m.weighed.charge
       value := m.requested.toNat * 256 + flagBit m.isFinalScan }]
  else []

theorem Minibar.faultEntries_routine (m : Minibar) (r : Fin 48) (place : Nat) : ∀ q ∈ m.faultEntries r place, q.kind.isAlarm = false := by
  unfold Minibar.faultEntries
  split <;> simp [EntryKind.isAlarm]

theorem Minibar.scanEntries_routine (m : Minibar) (r : Fin 48) (place : Nat) : ∀ q ∈ m.scanEntries r place, q.kind.isAlarm = false := by
  unfold Minibar.scanEntries
  split
  · simp [EntryKind.isAlarm]
  · split <;> simp [EntryKind.isAlarm]

theorem State.SameBindings.minibarPlace {s t : State} (h : s.SameBindings t) (r : Fin 48) : t.minibarPlace r = s.minibarPlace r := by
  unfold State.minibarPlace
  rw [h.minibarDropOf]

/-- What the journal is asked for by a completing scan, and its record. -/
theorem State.scanWeighed (s : State) (r : Fin 48) (m : Minibar) : ∃ u : State,
    s.finishScan r m = (u.answerScan r m.finished m.purpose .ok m.requested 0).reportFinal r m.isFinalScan true ∧
    s.Reports u ofRoomMirrors (m.faultEntries r (s.minibarPlace r) ++ m.scanEntries r (s.minibarPlace r)) ∧
    u.records = ({ s with minibars := s.minibars.set r m.finished.marked } : State).records := by
  have fault : ∃ v : State, (if m.faulted ≠ 0 then s.minibarFault r (s.minibarPlace r) 1 m.charge m.faulted else s) = v ∧
      s.Reports v ofRoomMirrors (m.faultEntries r (s.minibarPlace r)) ∧ v.records = s.records := by
    refine ⟨_, rfl, ?_⟩
    unfold Minibar.faultEntries
    split
    · exact ⟨s.reports_admitRequest _ _, s.admitRequest_records _⟩
    · exact ⟨.refl s _, rfl⟩
  obtain ⟨v, faulted, vReports, vRecords⟩ := fault
  have entry (place : v.minibarPlace r = s.minibarPlace r) :
      v.Reports (v.scanEntry r m) ofRoomMirrors (m.scanEntries r (s.minibarPlace r)) := by
    unfold State.scanEntry Minibar.scanEntries
    dsimp only
    rw [place]
    split
    · exact v.reports_admitRequest _ _
    · split
      · exact v.reports_admitRequest _ _
      · exact .refl v _
  have reports := vReports.trans (entry ((State.SameBindings.of_records vRecords).minibarPlace r))
  have records := (v.scanEntry_records r m).trans vRecords
  have run : s.finishScan r m =
      ((({ v.scanEntry r m with minibars := (v.scanEntry r m).minibars.set r m.finished.applyMark } : State).rewriteRoom r).answerScan r m.finished
        m.purpose .ok m.requested 0).reportFinal r m.isFinalScan true := by
    rw [← faulted]
    rfl
  generalize v.scanEntry r m = w at run reports records
  refine ⟨_, run, reports.trans_nil ?_, ?_⟩
  · have stored : w.Reports ({ w with minibars := w.minibars.set r m.finished.applyMark } : State) ofRoomMirrors [] :=
      ⟨rfl, rfl, .nil rfl, fun _ => .refl _, .of_ram rfl _, fun _ => rfl⟩
    exact stored.trans ((State.reports_rewriteRoomOf _ (some (.door r))).mono fun _ => ofMirrorOf_rooms)
  · refine (State.rewriteRoom_records _ r).trans ?_
    rw [State.records_minibars records, Minibar.applyMark_eq]
    exact State.records_setMinibars records _

/-- A scan of minibar `r` with the record `m` has completed. -/
structure State.ScanFinished (s t : State) (r : Fin 48) (m : Minibar) (closes : Bool) : Prop where
  logs : s.Logs t ((m.faultEntries r (s.minibarPlace r) ++ m.scanEntries r (s.minibarPlace r)) ++
    if closes then s.rooms[r].closedEntries r true m.finished.marked.charge else [])
  records : t.records = ({ s with
    minibars := s.minibars.set r m.finished.marked
    rooms := if closes then s.rooms.set r (s.rooms[r].closed false) else s.rooms } : State).records
  held : closes = false → m.purpose ≠ some .host → t.held = s.held
  still : closes = false → m.faultEntries r (s.minibarPlace r) ++ m.scanEntries r (s.minibarPlace r) = [] → t.journal = s.journal
  host : m.purpose = some .host → ∀ h, s.heldBy (.minibarUnit r) = some h → t.EndedWith h.block .ok (scanData m.finished m.requested 0)
  checkout : closes = true → m.purpose ≠ some .host ∨ s.HeldInv → ∀ h, s.heldBy (.roomTable r) = some h →
    t.EndedWith h.block .ok (s.rooms[r].closedData true m.finished.marked.charge)

theorem State.answerScan_journal (s : State) (r : Fin 48) (m : Minibar) (purpose : Option ScanPurpose) (res : Result) (read missing : Byte) :
    (s.answerScan r m purpose res read missing).journal = s.journal := by
  unfold State.answerScan State.completeFor
  split
  · split
    · rfl
    · rfl
  · rfl

theorem State.finishScan_finished (s : State) (r : Fin 48) (m : Minibar) :
    s.ScanFinished (s.finishScan r m) r m (m.isFinalScan && decide (s.rooms[r].state = .departing)) := by
  obtain ⟨u, run, reports, records⟩ := s.scanWeighed r m
  rw [run]
  have answered := u.answerScan_records r m.finished m.purpose .ok m.requested 0
  have books := u.answerScan_books r m.finished m.purpose .ok m.requested 0
  have journal := u.answerScan_journal r m.finished m.purpose .ok m.requested 0
  have kept : m.purpose ≠ some .host → u.answerScan r m.finished m.purpose .ok m.requested 0 = u := fun other => if_neg other
  have host : m.purpose = some .host → ∀ h, s.heldBy (.minibarUnit r) = some h →
      (u.answerScan r m.finished m.purpose .ok m.requested 0).EndedWith h.block .ok (scanData m.finished m.requested 0) := fun purpose h held => by
    unfold State.answerScan
    rw [if_pos purpose]
    exact State.completeFor_endedWith ((State.heldBy_congr reports.held _).trans held) _ _
  have checkout : m.purpose ≠ some .host ∨ s.HeldInv → ∀ h, s.heldBy (.roomTable r) = some h →
      (u.answerScan r m.finished m.purpose .ok m.requested 0).heldBy (.roomTable r) = some h := fun one h held => by
    have still := (State.heldBy_congr reports.held _).trans held
    rcases one with other | one
    · rw [kept other]
      exact still
    · exact State.HeldInv.heldBy_answerScan (by unfold State.HeldInv at one ⊢; rw [reports.held]; exact one) still _ _ _ _ _
  generalize u.answerScan r m.finished m.purpose .ok m.requested 0 = v at *
  obtain ⟨logs, final, ended, closed, dropped⟩ := v.reportFinal_made r m.isFinalScan true
  have vrecords := answered.trans records
  have vrooms : v.rooms = s.rooms := (State.records_rooms vrecords :)
  have charge : v.minibars[r].charge = m.finished.marked.charge := by
    rw [(State.records_minibars vrecords :)]
    exact congrArg Minibar.charge (vector_set_same _ r _)
  rw [vrooms] at logs final closed dropped
  rw [charge] at logs closed
  generalize v.reportFinal r m.isFinalScan true = t at *
  exact {
    logs := (reports.logs.trans_nil books).trans logs
    records := final.trans (State.records_setRooms vrecords _)
    held := fun open_ other => by rw [dropped open_, kept other, reports.held]
    still := fun open_ quiet => by rw [dropped open_, journal, reports.still quiet]
    host := fun purpose h held => ended _ _ _ (host purpose h held)
    checkout := fun closes one h held => closed closes h (checkout one h held) }

end Sys2Proof.Machine

namespace Sys2Proof.Machine

open Sys2Proof

/-! ## CHECKOUT (R26, R27) -/

theorem RoomState.inStay_iff (x : RoomState) : x.inStay = true ↔ x = .occupied ∨ x = .overstay := by cases x <;> decide

/-- The record of a room that is checked out and waits for its final scan. -/
def Room.leaving (x : Room) : Room := { x.advanced with state := .departing, wait := 30 }

/-- The ROOM_STATE entry of a CHECKOUT. -/
def Room.leavingEntry (x : Room) (r : Fin 48) : Request :=
  { kind := .roomState, room := r.val, subject := (x.generation + 1) % 256, value := 4 * 256 + x.state.code }

/-- A CHECKOUT taken, up to the request for the final scan. -/
def State.departs (s : State) (b : Fin 16) (r : Fin 48) : State :=
  let u := (s.advance r fun x => { x with state := .departing, wait := 30 }).passTo b (.roomTable r)
  u.admitRequest (roomStateRequest r u.rooms[r] s.rooms[r].state false)

/-- The table orders as a CHECKOUT's passes to the Room Table. -/
structure State.Departs (s t : State) (b : Fin 16) (r : Fin 48) : Prop where
  reports : (s.passTo b (.roomTable r)).Reports t ofRoomMirrors [s.rooms[r].leavingEntry r]
  records : t.records = ({ s with revs := s.revs.filter (RevEntry.notOfRoom r), rooms := s.rooms.set r s.rooms[r].leaving } : State).records

theorem State.departs_spec (s : State) (b : Fin 16) (r : Fin 48) : s.Departs (s.departs b r) b r := by
  have moved : State.Reports (s.passTo b (.roomTable r)) ({ s.passTo b (.roomTable r) with
      revs := s.revs.filter (RevEntry.notOfRoom r), rooms := s.rooms.set r s.rooms[r].leaving } : State) ofRoomMirrors [] :=
    ⟨rfl, rfl, .nil rfl, fun _ => .refl _, .of_ram rfl _, fun _ => rfl⟩
  have records : ({ s.passTo b (.roomTable r) with
      revs := s.revs.filter (RevEntry.notOfRoom r), rooms := s.rooms.set r s.rooms[r].leaving } : State).records =
      ({ s with revs := s.revs.filter (RevEntry.notOfRoom r), rooms := s.rooms.set r s.rooms[r].leaving } : State).records := rfl
  have run : s.departs b r = State.admitRequest (State.rewriteRoom { s.passTo b (.roomTable r) with
      revs := s.revs.filter (RevEntry.notOfRoom r), rooms := s.rooms.set r s.rooms[r].leaving } r)
      (roomStateRequest r (s.rooms.set r s.rooms[r].leaving)[r] s.rooms[r].state false) := rfl
  have entry : roomStateRequest r (s.rooms.set r s.rooms[r].leaving)[r] s.rooms[r].state false = s.rooms[r].leavingEntry r := by
    rw [vector_set_same]
    rfl
  rw [run, entry]
  generalize ({ s.passTo b (.roomTable r) with
      revs := s.revs.filter (RevEntry.notOfRoom r), rooms := s.rooms.set r s.rooms[r].leaving } : State) = u at moved records ⊢
  refine ⟨(moved.trans ((u.reports_rewriteRoomOf (some (.door r))).mono fun _ => ofMirrorOf_rooms)).trans (State.reports_admitRequest _ _ _), ?_⟩
  rw [State.admitRequest_records, State.rewriteRoom_records]
  exact records

theorem State.heldBy_passTo {s : State} {b : Fin 16} {o : Owner} {h : Held} (held : s.heldIn b = some h) (free : s.heldBy o = none) :
    ∃ x ∈ (s.passTo b o).held, (s.passTo b o).heldBy o = some x ∧ x.block = b ∧ x.owner = o := by
  obtain ⟨mem, block⟩ := s.heldIn_some b h held
  have passed : ({ h with owner := o } : Held) ∈ (s.passTo b o).held := List.mem_map.2 ⟨h, mem, if_pos block⟩
  cases found : (s.passTo b o).heldBy o with
  | none => exact absurd (decide_eq_true rfl) (List.find?_eq_none.1 found _ passed)
  | some x =>
    obtain ⟨xmem, owner⟩ := State.heldBy_some found
    refine ⟨x, xmem, rfl, ?_, owner⟩
    obtain ⟨y, ymem, e⟩ := List.mem_map.1 xmem
    by_cases here : y.block = b
    · rw [if_pos here] at e
      rw [← e]
      exact here
    · rw [if_neg here] at e
      exact absurd (decide_eq_true (by rw [e]; exact owner)) (List.find?_eq_none.1 free y ymem)

theorem State.passTo_filter (s : State) (b : Fin 16) (o : Owner) :
    (s.passTo b o).held.filter (fun h => decide (h.block ≠ b)) = s.held.filter fun h => decide (h.block ≠ b) := by
  show (s.held.map _).filter _ = _
  induction s.held with
  | nil => rfl
  | cons x xs ih =>
    by_cases here : x.block = b
    · simpa [here] using ih
    · simpa [here] using ih

/-- Work that reports leaves the state bytes of the blocks. -/
theorem State.Reports.block {s t : State} {qs : List Request} (h : s.Reports t ofRoomMirrors qs) (b : Fin 16) : t.byte (64 * b.val) = s.byte (64 * b.val) :=
  h.bytes _ (by
    rintro (⟨r, e⟩ | e | e)
    · have := ofRoomMirror_range e
      omega
    · unfold ofDescriptors at e; omega
    · unfold ofSiteMirror at e; omega)

/-! ### The final scan is asked for (R122) -/

/-- From `u` to `v` the Room Table has asked for the final scan of its room `r`: no other room and no other minibar has changed. -/
def State.OthersStand (u v : State) (r : Fin 48) : Prop := ∀ k, k ≠ r → v.rooms[k] = u.rooms[k] ∧ v.minibars[k] = u.minibars[k]

section
variable {u : State} {r : Fin 48}

theorem State.othersStand_records {v : State} {x : Room} {m : Minibar}
    (h : v.records = ({ u with minibars := u.minibars.set r m, rooms := u.rooms.set r x } : State).records) : u.OthersStand v r := fun k hk =>
  ⟨by rw [(State.records_rooms h :)]; exact vector_set_ne _ _ hk, by rw [(State.records_minibars h :)]; exact vector_set_ne _ _ hk⟩

/-- A minibar OFFLINE: the room is closed at once. -/
theorem State.finalRequested_offline (offline : u.minibars[r].state = .offline) (departing : u.rooms[r].state = .departing) :
    u.finalRequested r = u.closeRoom r false u.minibars[r].charge := by
  unfold State.finalRequested
  dsimp only
  rw [offline]
  exact if_pos departing

theorem State.finalRequested_locked (locked : u.minibars[r].state = .locked) : u.finalRequested r = u.startScan r .final none := by
  unfold State.finalRequested
  dsimp only
  rw [locked]
  rfl

/-- A minibar LOCKED with no tray in use: the scan completes as it starts. -/
theorem State.startScan_empty (purpose : ScanPurpose) (none_ : u.minibars[r].trayCount = 0) :
    u.startScan r purpose none = u.finishScan r (u.minibars[r].scanned purpose) := if_pos (u.minibars[r].allTrays_eq_zero.2 none_)

/-- A minibar GRANTED: its grant is withdrawn, and LATCH asked for. -/
theorem State.finalRequested_granted (granted : u.minibars[r].state = .granted) :
    ∃ qs, u.OthersStand (u.finalRequested r) r ∧ (u.finalRequested r).rooms = u.rooms ∧ u.Reports (u.finalRequested r) ofRoomMirrors qs ∧
      (u.finalRequested r).minibars[r] = { u.minibars[r] with finalMark := true, latchMark := true, pending := none } ∧
      (∀ l a, u.minibarDropOf r = some (l, a) → (u.finalRequested r).StandsAt l a .latch .minibarUnit) ∧ (u.Doorless r → qs = []) := by
  have run : u.finalRequested r = (u.putMinibar r { u.minibars[r] with finalMark := true, latchMark := true, pending := none }).askMinibar r .latch := by
    unfold State.finalRequested
    dsimp only
    rw [granted]
  rw [run]
  generalize hx : ({ u.minibars[r] with finalMark := true, latchMark := true, pending := none } : Minibar) = x
  have none_ : x.pending = none := by rw [← hx]
  have put := u.putMinibar_same r x
  have atRoom := u.atRoom_putMinibar r x
  have rooms := u.putMinibar_rooms r x
  have wrote := (u.reports_putMinibar r x).mono fun y h => (⟨r, h⟩ : ofRoomMirrors y)
  generalize u.putMinibar r x = v at *
  obtain ⟨⟨qs, loses, -, -, quiet⟩, told⟩ := v.askMinibar_spec r .latch rfl
  have bindings : u.SameBindings v := fun l a => (atRoom.doors l a).2
  refine ⟨qs, fun k hk => ⟨?_, (loses.others k hk).trans (atRoom.minibars k hk)⟩, loses.rooms.trans rooms, wrote.trans loses.reports, ?_, fun l a found => ?_,
    fun doorless => quiet (atRoom.doors.doorless doorless) (by rw [put]; exact none_)⟩
  · rw [loses.rooms, rooms]
  · rw [loses.idle (by rw [put]; exact none_), put]
  · exact told l a (by rw [bindings.minibarDropOf]; exact found)

/-- A minibar OPEN or SCANNING: the FINAL mark is set. -/
theorem State.finalRequested_busy (busy : u.minibars[r].state = .opened ∨ u.minibars[r].state = .scanning) :
    u.OthersStand (u.finalRequested r) r ∧ (u.finalRequested r).rooms = u.rooms ∧ u.Reports (u.finalRequested r) ofRoomMirrors [] ∧
      (u.finalRequested r).minibars[r] = { u.minibars[r] with finalMark := true } := by
  have run : u.finalRequested r = u.putMinibar r { u.minibars[r] with finalMark := true } := by
    unfold State.finalRequested
    dsimp only
    rcases busy with opened | scanning
    · rw [opened]
    · rw [scanning]
  rw [run]
  generalize ({ u.minibars[r] with finalMark := true } : Minibar) = x
  have atRoom := u.atRoom_putMinibar r x
  exact ⟨fun k hk => ⟨atRoom.rooms k hk, atRoom.minibars k hk⟩, u.putMinibar_rooms r x, (u.reports_putMinibar r x).mono fun y h => ⟨r, h⟩,
    u.putMinibar_same r x⟩

end

end Sys2Proof.Machine

namespace Sys2Proof.Machine

open Sys2Proof

theorem State.BindingInv.doorless {s : State} (inv : s.BindingInv) (r : Fin 48) : s.Doorless r := fun l a hb =>
  Drop.doorless inv fun b e => by
    rw [hb] at e
    cases e
    rfl

theorem State.work_finalRequested (u : State) (r : Fin 48) : State.Work .calm u (u.finalRequested r) := by
  unfold State.finalRequested
  dsimp only
  split
  · exact u.work_startScan r .final none
  · exact (u.work_putMinibar r _).trans (State.work_askMinibar _ r .latch)
  · exact u.work_putMinibar r _
  · exact u.work_putMinibar r _
  · exact u.work_finalReport r _ _

/-! ### What follows for the CHECKOUT, by the minibar's state -/

section
variable {s u : State} {b : Fin 16} {r : Fin 48} {h : Held}

/-- The order waits: it is held by the Room Table, and its block reads as before. -/
def State.CheckoutWaits (s v : State) (b : Fin 16) (r : Fin 48) : Prop := v.HeldFor b (.roomTable r) ∧ v.byte (64 * b.val) = s.byte (64 * b.val)

theorem State.Reports.checkoutWaits {v : State} {qs : List Request} (reports : (s.passTo b (.roomTable r)).Reports v ofRoomMirrors qs)
    (held : s.heldIn b = some h) (free : s.heldBy (.roomTable r) = none) : s.CheckoutWaits v b r := by
  obtain ⟨x, mem, -, block, owner⟩ := State.heldBy_passTo held free
  exact ⟨⟨x, by rw [reports.held]; exact mem, block, owner⟩, reports.block b⟩

/-- A room that is closed ends the CHECKOUT its Room Table holds. -/
theorem State.Departs.order (departs : s.Departs u b r) (held : s.heldIn b = some h) (free : s.heldBy (.roomTable r) = none) :
    ∃ x, u.heldBy (.roomTable r) = some x ∧ x.block = b := by
  obtain ⟨x, -, found, block, -⟩ := State.heldBy_passTo held free
  exact ⟨x, (State.heldBy_congr departs.reports.held _).trans found, block⟩

theorem State.Departs.room (departs : s.Departs u b r) : u.rooms[r] = s.rooms[r].leaving := by
  rw [(State.records_rooms departs.records :)]
  exact vector_set_same _ r _

theorem State.Departs.minibars (departs : s.Departs u b r) : u.minibars = s.minibars := (State.records_minibars departs.records :)

theorem State.Departs.sameBindings (departs : s.Departs u b r) : s.SameBindings u := .of_lines (State.records_lines departs.records :)

/-- The room as its CHECKOUT ends at once. -/
theorem Room.leaving_closed (x : Room) (unscanned : Bool) : x.leaving.closed unscanned =
    { x with generation := (x.generation + 1) % 256, issued := 0, state := .vacant, unscanned := unscanned, wait := 0 } := rfl

/-- With the minibar OFFLINE. -/
theorem State.Departs.offline (departs : s.Departs u b r) (held : s.heldIn b = some h) (free : s.heldBy (.roomTable r) = none)
    (offline : s.minibars[r].state = .offline) :
    let v := u.finalRequested r
    v.rooms[r] = s.rooms[r].leaving.closed true ∧ u.OthersStand v r ∧ s.Completes v b .ok ∧
    s.Logs v (s.rooms[r].leavingEntry r :: s.rooms[r].leaving.closedEntries r false s.minibars[r].charge) ∧
    v.EndedWith b .ok (s.rooms[r].leaving.closedData false s.minibars[r].charge) := by
  obtain ⟨x, found, block⟩ := departs.order held free
  have departing : u.rooms[r].state = .departing := by rw [departs.room]; rfl
  obtain ⟨w, run, reports, records⟩ := u.closeRoom_spec r false u.minibars[r].charge
  have ends : w.completeFor (.roomTable r) .ok (u.rooms[r].closedData false u.minibars[r].charge) =
      w.complete b .ok (u.rooms[r].closedData false u.minibars[r].charge) := by
    unfold State.completeFor
    rw [State.heldBy_congr reports.held, found, ← block]
  have chain := departs.reports.trans (reports.mono fun y hy => (⟨r, hy⟩ : ofRoomMirrors y))
  dsimp only
  rw [State.finalRequested_offline (by rw [departs.minibars]; exact offline) departing, run, ends]
  have heldAfter : (w.complete b .ok (u.rooms[r].closedData false u.minibars[r].charge)).held = s.held.filter fun h => decide (h.block ≠ b) := by
    rw [State.complete_held, chain.held, s.passTo_filter]
  have cause : s.MaySetJournal w := chain.cause fun q hq => by
    rcases List.mem_append.1 hq with first | rest
    · rw [List.mem_singleton.1 first]
      rfl
    · exact u.rooms[r].closedEntries_routine r false _ q rest
  have endedWith := w.complete_endedWith b .ok (u.rooms[r].closedData false u.minibars[r].charge)
  have records' : (w.complete b .ok (u.rooms[r].closedData false u.minibars[r].charge)).records = w.records := State.complete_records _ _ _ _
  have causes := cause.causesAfter (w.complete_cause b .ok (u.rooms[r].closedData false u.minibars[r].charge))
  have logs := chain.logs.trans_nil (w.complete_books b .ok (u.rooms[r].closedData false u.minibars[r].charge))
  have closed := records'.trans records
  generalize w.complete b .ok (u.rooms[r].closedData false u.minibars[r].charge) = v at *
  rw [departs.room] at closed
  rw [departs.room, departs.minibars] at logs endedWith
  refine ⟨?_, fun k hk => ⟨?_, ?_⟩, ⟨endedWith.1, heldAfter, causes⟩, logs, endedWith⟩
  · rw [(State.records_rooms closed :)]
    exact vector_set_same _ r _
  · rw [(State.records_rooms closed :)]
    exact vector_set_ne _ _ hk
  · rw [(State.records_minibars closed :)]

/-- With the minibar LOCKED and no tray in use. -/
theorem State.Departs.empty (departs : s.Departs u b r) (held : s.heldIn b = some h) (free : s.heldBy (.roomTable r) = none)
    (locked : s.minibars[r].state = .locked) (none_ : s.minibars[r].trayCount = 0) :
    let v := u.finalRequested r
    v.rooms[r] = s.rooms[r].leaving.closed false ∧ u.OthersStand v r ∧ ∃ charge, v.EndedWith b .ok (s.rooms[r].leaving.closedData true charge) := by
  obtain ⟨x, found, block⟩ := departs.order held free
  have run : u.finalRequested r = u.finishScan r (u.minibars[r].scanned .final) :=
    (State.finalRequested_locked (by rw [departs.minibars]; exact locked)).trans (State.startScan_empty .final (by rw [departs.minibars]; exact none_))
  have finished := u.finishScan_finished r (u.minibars[r].scanned .final)
  have closes : ((u.minibars[r].scanned .final).isFinalScan && decide (u.rooms[r].state = .departing)) = true := by
    rw [departs.room, (Minibar.isFinalScan_iff _).2 (.inl rfl)]
    rfl
  dsimp only
  rw [run]
  rw [closes] at finished
  generalize u.finishScan r (u.minibars[r].scanned .final) = v at *
  have ended := finished.checkout rfl (.inl (by nofun)) x found
  have records := finished.records
  rw [if_pos rfl] at records
  rw [block] at ended
  rw [departs.room] at records ended
  refine ⟨?_, State.othersStand_records records, _, ended⟩
  rw [(State.records_rooms records :)]
  exact vector_set_same _ r _

end

/-! ### O28 -/

section
variable {s u v t : State} {b : Fin 16} {r : Fin 48} {h : Held}

/-- What the engine's next choice and the going on of the lines leave. -/
structure State.ChoosesOn (v t : State) : Prop where
  rooms : t.rooms = v.rooms
  minibars : t.minibars = v.minibars
  revs : t.revs = v.revs
  held : t.held = v.held
  cause : t.cause = v.cause
  books : t.books = v.books
  byte : ∀ x, t.byte x = v.byte x
  beyond : t.beyondLines = ({ v with engine := t.engine } : State).beyondLines
  told : ∀ l a msg asker, v.StandsAt l a msg asker → t.StandsAt l a msg asker

theorem State.choosesOn (v : State) (no : v.NoGoDue) : v.ChoosesOn v.chooseOrder.settle := by
  have on := State.settle_goesOn v.chooseOrder no
  have same : v.chooseOrder = { v with engine := v.chooseOrder.engine } := rfl
  have engine := on.engine
  generalize v.chooseOrder.settle = t at *
  have rest := on.rest
  exact {
    rooms := on.rooms
    minibars := on.minibars
    revs := (congrArg State.revs rest :)
    held := (congrArg State.held rest :)
    cause := (congrArg State.cause rest :)
    books := (congrArg State.books rest :)
    byte := on.byte
    beyond := by
      rw [engine]
      exact on.beyondLines
    told := fun l a msg asker stands => on.standsAt stands }

theorem State.ChoosesOn.logs (on : v.ChoosesOn t) {qs : List Request} (h : s.Logs v qs) : s.Logs t qs := h.trans_nil on.books

theorem State.ChoosesOn.endedWith (on : v.ChoosesOn t) {res : Result} {data : List Byte} (h : v.EndedWith b res data) : t.EndedWith b res data :=
  h.congr (fun x _ => on.byte x) ((State.heldIn_congr on.held b).trans h.1.2.2.1) fun told => by rw [on.cause]; exact told

theorem State.ChoosesOn.completes (on : v.ChoosesOn t) {res : Result} (h : s.Completes v b res) : s.Completes t b res := by
  obtain ⟨⟨done, code, gone, told⟩, held, causes⟩ := h
  refine ⟨⟨by rw [on.byte]; exact done, by rw [on.byte]; exact code, (State.heldIn_congr on.held b).trans gone, by rw [on.cause]; exact told⟩,
    on.held.trans held, ?_⟩
  unfold State.CausesAfter at causes ⊢
  rw [on.cause]
  exact causes

theorem State.ChoosesOn.waits (on : v.ChoosesOn t) (h : s.CheckoutWaits v b r) : s.CheckoutWaits t b r := by
  obtain ⟨⟨x, mem, owned⟩, byte⟩ := h
  exact ⟨⟨x, by rw [on.held]; exact mem, owned⟩, (on.byte _).trans byte⟩

end

section
variable {s : State} {b : Fin 16} {r : Fin 48} {h : Held}

theorem State.checkout_taken (serves : s.ServesNow b .checkout h) (room : leAt h.params 0 1 = r.val) (stays : s.rooms[r].state.inStay = true) :
    exec (.checkout b) s = .next ((s.departs b r).finalRequested r).chooseOrder.settle := by
  have taken : s.checkout h = (s.departs h.block r).finalRequested r := by
    unfold State.checkout
    rw [room, asFin_val]
    exact if_pos stays
  have run : exec (.checkout b) s = .next (s.checkout h).chooseOrder.settle :=
    congrArg Host.Outcome.next (serves.serve State.checkout State.settle)
  rw [run, taken, serves.block]

/-- A CHECKOUT that is refused. -/
theorem State.checkout_refused (serves : s.ServesNow b .checkout h) (res : Result) (e : s.checkout h = s.complete h.block res []) :
    ∃ u, exec (.checkout b) s = .next u.settle ∧ s.Refuses u b res := by
  have run : exec (.checkout b) s = .next (s.checkout h).chooseOrder.settle :=
    congrArg Host.Outcome.next (serves.serve State.checkout State.settle)
  refine ⟨_, run, ?_⟩
  rw [e, serves.block]
  exact s.refuses_complete b res []

/-- What every CHECKOUT that is taken leaves. -/
theorem State.checkout_leaves (s : State) (b : Fin 16) (r : Fin 48) {t : State} (on : ((s.departs b r).finalRequested r).ChoosesOn t) :
    t.revs = s.revs.filter (RevEntry.notOfRoom r) ∧ t.beyondLines = ({ s with revs := t.revs, engine := t.engine } : State).beyondLines := by
  have departs := s.departs_spec b r
  have work := (s.departs b r).work_finalRequested r
  have revs : t.revs = s.revs.filter (RevEntry.notOfRoom r) := (on.revs.trans (work.revs nofun)).trans (State.records_revs departs.records :)
  have beyond := congrArg (fun x : State => ({ x with engine := t.engine } : State))
    ((work.beyondLines nofun).trans (State.records_beyondLines departs.records departs.reports.engine))
  refine ⟨revs, on.beyond.trans (Eq.trans beyond ?_)⟩
  rw [revs]
  rfl

end

/-- A final scan asked for touches no other room and no other minibar. -/
theorem State.Departs.othersStand {s u : State} {b : Fin 16} {r : Fin 48} {h : Held} (departs : s.Departs u b r) (held : s.heldIn b = some h)
    (free : s.heldBy (.roomTable r) = none) : u.OthersStand (u.finalRequested r) r := by
  have same := departs.minibars
  cases state : s.minibars[r].state with
  | offline => exact (departs.offline held free state).2.1
  | locked =>
    by_cases none_ : s.minibars[r].trayCount = 0
    · exact (departs.empty held free state none_).2.1
    · have started := u.startScan_started r .final (by rw [same]; omega)
      rw [State.finalRequested_locked (by rw [same]; exact state)]
      exact fun k hk => ⟨by rw [started.rooms], started.others k hk⟩
  | granted =>
    obtain ⟨_, stand, -⟩ := State.finalRequested_granted (u := u) (r := r) (by rw [same]; exact state)
    exact stand
  | opened => exact (State.finalRequested_busy (by rw [same]; exact .inl state)).1
  | scanning => exact (State.finalRequested_busy (by rw [same]; exact .inr state)).1

/-- While the final scan is to come, the room waits, and its CHECKOUT with it. -/
theorem State.Departs.waits {s u : State} {b : Fin 16} {r : Fin 48} {h : Held} (departs : s.Departs u b r) (held : s.heldIn b = some h)
    (free : s.heldBy (.roomTable r) = none) (reached : s.minibars[r].state ≠ .offline) (used : s.minibars[r].state = .locked → 1 ≤ s.minibars[r].trayCount) :
    (u.finalRequested r).rooms[r] = s.rooms[r].leaving ∧ s.CheckoutWaits (u.finalRequested r) b r := by
  have same := departs.minibars
  have after {qs : List Request} (rooms : (u.finalRequested r).rooms = u.rooms) (reports : u.Reports (u.finalRequested r) ofRoomMirrors qs) :
      (u.finalRequested r).rooms[r] = s.rooms[r].leaving ∧ s.CheckoutWaits (u.finalRequested r) b r :=
    ⟨by rw [rooms]; exact departs.room, (departs.reports.trans reports).checkoutWaits held free⟩
  cases state : s.minibars[r].state with
  | offline => exact absurd state reached
  | locked =>
    have started := u.startScan_started r .final (by rw [same]; exact used state)
    rw [← State.finalRequested_locked (by rw [same]; exact state)] at started
    obtain ⟨_, -, reports, -⟩ := started.reports
    exact after started.rooms reports
  | granted =>
    obtain ⟨_, -, rooms, reports, -⟩ := State.finalRequested_granted (u := u) (r := r) (by rw [same]; exact state)
    exact after rooms reports
  | opened =>
    obtain ⟨-, rooms, reports, -⟩ := State.finalRequested_busy (u := u) (r := r) (by rw [same]; exact .inl state)
    exact after rooms reports
  | scanning =>
    obtain ⟨-, rooms, reports, -⟩ := State.finalRequested_busy (u := u) (r := r) (by rw [same]; exact .inr state)
    exact after rooms reports

/-- Settles O28, by the minibar's state as the final scan is asked for. -/
theorem checkoutEndsTheStay : Obligations.CheckoutEndsTheStay := by
  intro s b h serves law
  refine ⟨fun out => s.checkout_refused serves .badParam ?_, fun r room => ?_⟩
  · unfold State.checkout
    rw [asFin_none out]
  dsimp only
  refine ⟨fun notOccupied notOverstay => s.checkout_refused serves .roomState ?_, fun stays free => ?_⟩
  · unfold State.checkout
    rw [room, asFin_val]
    exact if_neg fun stays => ((RoomState.inStay_iff _).1 stays).elim notOccupied notOverstay
  have departs := s.departs_spec b r
  obtain ⟨-, -, held, -⟩ := id serves
  have work := (s.departs b r).work_finalRequested r
  have quiet : ((s.departs b r).finalRequested r).NoGoDue :=
    law.noGoDue.of_course fun l => (work.course l).trans (by rw [(State.records_lines departs.records :)])
  have on := State.choosesOn _ quiet
  obtain ⟨revs, beyond⟩ := s.checkout_leaves b r on
  have stand := departs.othersStand held free
  have same := departs.minibars
  have taken := State.checkout_taken serves room ((RoomState.inStay_iff _).2 stays)
  generalize ((s.departs b r).finalRequested r).chooseOrder.settle = t at *
  generalize s.departs b r = u at *
  refine ⟨t, taken, revs.trans ?_, fun k hk => ?_, beyond, fun offline => ?_, fun reached used => ?_, fun locked none_ => ?_, fun locked used => ?_,
    fun busy => ?_⟩
  · refine congrArg (fun f => s.revs.filter f) (funext fun e => ?_)
    cases e <;> rfl
  · rw [on.rooms, on.minibars, (stand k hk).1, (stand k hk).2, same, (State.records_rooms departs.records :)]
    exact ⟨vector_set_ne _ _ hk, rfl⟩
  · obtain ⟨closed, -, completes, logs, ended⟩ := departs.offline held free offline
    obtain ⟨generation, flag, charge⟩ := (on.endedWith ended).closed
    refine ⟨by rw [on.rooms, closed]; rfl, on.completes completes, (on.logs logs).admits, ?_, flag, charge⟩
    exact generation.trans (Nat.mod_mod _ _)
  · obtain ⟨leaving, waits⟩ := departs.waits held free reached used
    obtain ⟨heldFor, byte⟩ := on.waits waits
    exact ⟨by rw [on.rooms, leaving]; rfl, heldFor, byte⟩
  · obtain ⟨closed, -, charge, ended⟩ := departs.empty held free locked none_
    have ended := on.endedWith ended
    obtain ⟨generation, flag, -⟩ := ended.closed
    exact ⟨by rw [on.rooms, closed]; rfl, ended.1, generation.trans (Nat.mod_mod _ _), flag⟩
  · have started := u.startScan_started r .final (by rw [same]; exact used)
    rw [← State.finalRequested_locked (by rw [same]; exact locked)] at started
    obtain ⟨⟨g, scan⟩, -, -, told, -⟩ := started
    rw [on.minibars, scan]
    exact ⟨rfl, rfl, rfl, fun l a found => on.told l a _ _ (told l a (by rw [departs.sameBindings.minibarDropOf]; exact found))⟩
  · have doorless (inv : s.BindingInv) : u.Doorless r :=
      State.DoorsStand.doorless (.of_lines (State.records_lines departs.records :)) (inv.doorless r)
    have asks {qs : List Request} (reports : u.Reports (u.finalRequested r) ofRoomMirrors qs) (none_ : qs = []) :
        s.Asks t (s.rooms[r].leavingEntry r) := by
      subst none_
      exact (on.logs (departs.reports.trans reports).logs : s.Logs t _).asks
    rcases busy with granted | opened | scanning
    · obtain ⟨qs, -, -, reports, record, told, quiet⟩ := State.finalRequested_granted (u := u) (r := r) (by rw [same]; exact granted)
      rw [on.minibars, record, same]
      exact ⟨rfl, rfl, fun inv => asks reports (quiet (doorless inv)),
        fun _ => ⟨rfl, rfl, fun l a found => on.told l a _ _ (told l a (by rw [departs.sameBindings.minibarDropOf]; exact found))⟩⟩
    · obtain ⟨-, -, reports, record⟩ := State.finalRequested_busy (u := u) (r := r) (by rw [same]; exact .inl opened)
      rw [on.minibars, record, same]
      exact ⟨rfl, rfl, fun _ => asks reports rfl, fun granted => by rw [opened] at granted; cases granted⟩
    · obtain ⟨-, -, reports, record⟩ := State.finalRequested_busy (u := u) (r := r) (by rw [same]; exact .inr scanning)
      rw [on.minibars, record, same]
      exact ⟨rfl, rfl, fun _ => asks reports rfl, fun granted => by rw [scanning] at granted; cases granted⟩

end Sys2Proof.Machine

namespace Sys2Proof.Machine

open Sys2Proof

/-! ## What a completing scan computes (R115, R116, R121) -/

theorem sum_take_ofFn {k : Nat} (f : Fin k → Nat) (n : Nat) :
    ((List.ofFn f).take n).sum = ((List.finRange k).map fun i => if i.val < n then f i else 0).sum := by
  induction k generalizing n with
  | zero => simp
  | succ k ih =>
    cases n with
    | zero => simp
    | succ n =>
      rw [List.ofFn_succ, List.take_succ_cons, List.sum_cons, ih, List.finRange_succ, List.map_cons, List.sum_cons, List.map_map]
      simp [Function.comp_def]

theorem Minibar.owed_eq (m : Minibar) : m.owed = m.sumOwed := by
  have listed : m.trays.toList.map Tray.unbilled = List.ofFn fun i : Fin 8 => m.trays[i].unbilled := by
    refine List.ext_getElem (by rw [List.length_map, Vector.length_toList, List.length_ofFn]) fun i h _ => ?_
    rw [List.getElem_map, List.getElem_ofFn]
    rfl
  unfold Minibar.owed Minibar.sumOwed
  rw [List.map_take, listed, sum_take_ofFn]
  rfl

theorem Minibar.recharge_eq (m : Minibar) :
    m.recharge = { m with charge := min 999999 m.sumOwed, saturated := m.saturated || decide (999999 < m.sumOwed) } := by
  unfold Minibar.recharge
  have max : Config.maxCharge = 999999 := rfl
  rw [m.owed_eq, max]
  by_cases above : 999999 < m.sumOwed
  · rw [if_pos (show m.sumOwed > 999999 from above), Nat.min_eq_left (Nat.le_of_lt above), decide_eq_true above, Bool.or_true]
  · rw [if_neg (show ¬ m.sumOwed > 999999 from above), Nat.min_eq_right (Nat.not_lt.1 above), decide_eq_false above, Bool.or_false]

theorem Tray.read_good {t : Tray} {reading : Nat} (based : t.baseline ≠ 0) (low : reading ≠ 0) (high : reading ≠ 4095) :
    t.read reading = { t with last := some reading, fault := false, taken := min (t.quotient reading) t.stock } := by
  unfold Tray.read badReading
  rw [if_neg based, if_neg (by simp [low, high])]

theorem Tray.read_bad {t : Tray} {reading : Nat} (based : t.baseline ≠ 0) (bad : reading = 0 ∨ reading = 4095) :
    t.read reading = { t with last := some reading, fault := true } := by
  unfold Tray.read badReading
  rw [if_neg based, if_pos (decide_eq_true bad)]

theorem Tray.read_unbased {t : Tray} {reading : Nat} (unbased : t.baseline = 0) : t.read reading = { t with last := some reading, taken := 0 } := if_pos unbased

theorem Tray.overStock_iff (t : Tray) (reading : Nat) : t.overStock reading = true ↔ t.exceeds reading := by
  unfold Tray.overStock Tray.exceeds badReading Tray.quotient
  by_cases low : t.baseline ≤ reading
  · simp only [if_pos low]
    constructor
    · intro h
      simp at h
    · exact fun h => absurd h.2.2.2.1 (by omega)
  · simp [low, Nat.not_le.1 low, and_assoc]

theorem Minibar.reading_none {m : Minibar} {i : Fin 8} (h : m.requested.getLsbD i.val = false) : m.reading i = none :=
  if_neg (by unfold trayIn; rw [h]; nofun)

theorem Minibar.reading_some {m : Minibar} {i : Fin 8} (h : m.requested.getLsbD i.val = true) : m.reading i = m.collected[i] := if_pos h

/-- The trays of a scan that is no restock (R115). -/
theorem Minibar.applyReadings_tray (m : Minibar) (i : Fin 8) :
    m.applyReadings.trays[i] = (m.reading i).elim m.trays[i] m.trays[i].read := by
  have at_ := Vector.getElem_ofFn (f := fun t : Fin 8 => (m.reading t).elim m.trays[t] m.trays[t].read) i.isLt
  refine Eq.trans (congrArg (fun f => (Vector.ofFn f)[i]) (funext fun t => ?_)) at_
  cases m.reading t <;> rfl

theorem Minibar.applyRestock_tray (m : Minibar) (i : Fin 8) :
    m.applyRestock.trays[i] = (m.reading i).elim m.trays[i] m.trays[i].restock := by
  have at_ := Vector.getElem_ofFn (f := fun t : Fin 8 => (m.reading t).elim m.trays[t] m.trays[t].restock) i.isLt
  refine Eq.trans (congrArg (fun f => (Vector.ofFn f)[i]) (funext fun t => ?_)) at_
  cases m.reading t <;> rfl

theorem Minibar.missing_eq_zero (m : Minibar) : m.missing = 0 ↔ ∀ i : Fin 8, m.requested.getLsbD i.val = true → m.collected[i].isSome = true := by
  constructor
  · intro h i asked
    have bit := m.missing_getLsbD i
    rw [h, asked] at bit
    cases read : m.collected[i] with
    | none =>
      rw [read] at bit
      simp at bit
    | some x => rfl
  · intro h
    refine BitVec.eq_of_getLsbD_eq fun i hi => ?_
    rw [m.missing_getLsbD ⟨i, hi⟩]
    cases asked : m.requested.getLsbD i with
    | false => simp
    | true =>
      have some_ := h ⟨i, hi⟩ asked
      cases read : m.collected[(⟨i, hi⟩ : Fin 8)] with
      | none => rw [read] at some_; cases some_
      | some x => simp

/-- A tray newly found faulty by its reading (R115). -/
def Minibar.newly (m : Minibar) (i : Fin 8) : Prop :=
  m.requested.getLsbD i.val = true ∧ (m.collected[i] = some 0 ∨ m.collected[i] = some 4095) ∧ m.trays[i].fault = false ∧
    (m.purpose = some .restock ∨ m.trays[i].baseline ≠ 0)

theorem Minibar.faulted_getLsbD (m : Minibar) (i : Fin 8) : m.faulted.getLsbD i.val = true ↔ m.newly i := by
  unfold Minibar.faulted Minibar.newFaults Minibar.newly
  rw [setOf_getLsbD _ i.isLt, dif_pos i.isLt]
  cases asked : m.requested.getLsbD i.val with
  | false =>
    rw [m.reading_none asked]
    simp
  | true =>
    rw [m.reading_some asked]
    show (match m.collected[i] with
      | none => false
      | some r => badReading r && !m.trays[i].fault && (decide (m.purpose = some .restock) || decide (m.trays[i].baseline ≠ 0))) = true ↔ _
    cases m.collected[i] with
    | none => simp
    | some x => simp [badReading, and_assoc]

theorem Minibar.faulted_eq_zero (m : Minibar) : m.faulted = 0 ↔ ∀ i, ¬ m.newly i := by
  constructor
  · intro h i new
    rw [← m.faulted_getLsbD, h] at new
    simp at new
  · intro h
    refine BitVec.eq_of_getLsbD_eq fun i hi => ?_
    have bit : m.faulted.getLsbD i = false := Bool.eq_false_iff.2 fun e => h ⟨i, hi⟩ ((m.faulted_getLsbD ⟨i, hi⟩).1 e)
    rw [bit]
    simp

end Sys2Proof.Machine

namespace Sys2Proof.Machine

open Sys2Proof

/-- The record `w` of a scan of `m` that is no restock, whose readings are `now`, before a stay-start mark is applied (R115, R116). -/
def Minibar.Weighs (m : Minibar) (now : Fin 8 → Option Nat) (w : Minibar) : Prop :=
  w = { m.cleared .locked with trays := w.trays, charge := w.charge, saturated := w.saturated, overStock := w.overStock } ∧
  w.charge = min 999999 w.sumOwed ∧ w.saturated = (m.saturated || decide (999999 < w.sumOwed)) ∧
  (w.overStock = true ↔ m.overStock = true ∨ ∃ (i : Fin 8) (reading : Nat),
    m.requested.getLsbD i.val = true ∧ now i = some reading ∧ m.trays[i].exceeds reading) ∧
  ∀ i : Fin 8,
    let a := m.trays[i]
    let y := w.trays[i]
    (m.requested.getLsbD i.val = false → y = a) ∧
    ∀ reading, m.requested.getLsbD i.val = true → now i = some reading →
      y.last = some reading ∧ y.unit = a.unit ∧ y.price = a.price ∧ y.stock = a.stock ∧ y.baseline = a.baseline ∧ y.base = a.base ∧
      (a.baseline = 0 → y.taken = 0 ∧ y.fault = a.fault) ∧
      (a.baseline ≠ 0 → reading = 0 ∨ reading = 4095 → y.fault = true ∧ y.taken = a.taken) ∧
      (a.baseline ≠ 0 → reading ≠ 0 → reading ≠ 4095 → y.fault = false ∧
        (a.baseline ≤ reading → y.taken = 0) ∧
        (reading < a.baseline → y.taken = min ((2 * (a.baseline - reading) + a.unit) / (2 * a.unit)) a.stock))

/-- The record `w` of a restock scan of `m`, whose readings are `now` (R121). -/
def Minibar.Restocks (m : Minibar) (now : Fin 8 → Option Nat) (w : Minibar) : Prop :=
  let good (i : Fin 8) : Bool := m.requested.getLsbD i.val && decide (now i ≠ some 0 ∧ now i ≠ some 4095)
  w = { m.cleared .locked with trays := w.trays, carried := w.carried, charge := w.charge, saturated := w.saturated } ∧
  (∀ i : Fin 8,
    let a := m.trays[i]
    let y := w.trays[i]
    (m.requested.getLsbD i.val = false → y = a) ∧
    (m.requested.getLsbD i.val = true → y.last = now i ∧ y.unit = a.unit ∧ y.price = a.price ∧ y.stock = a.stock ∧
      (good i = false → y.fault = true ∧ y.baseline = a.baseline ∧ y.taken = a.taken ∧ y.base = a.base) ∧
      (good i = true → y.fault = false ∧ some y.baseline = now i ∧ y.taken = 0 ∧ y.base = 0))) ∧
  w.carried = min 999999 (m.carried + ((List.finRange 8).map fun i : Fin 8 =>
    if good i then m.trays[i].price * (m.trays[i].taken - m.trays[i].base) else 0).sum) ∧
  w.charge = min 999999 w.sumOwed ∧ w.saturated = (m.saturated || decide (999999 < w.sumOwed))

section
variable (m : Minibar) (got : Vector (Option Nat) 8)

/-- The record with the readings collected so far. -/
def Minibar.having : Minibar := { m with collected := got }

/-- A tray after a reading of a scan that is no restock. -/
theorem Tray.read_spec (a : Tray) (reading : Nat) :
    let y := a.read reading
    y.last = some reading ∧ y.unit = a.unit ∧ y.price = a.price ∧ y.stock = a.stock ∧ y.baseline = a.baseline ∧ y.base = a.base ∧
    (a.baseline = 0 → y.taken = 0 ∧ y.fault = a.fault) ∧
    (a.baseline ≠ 0 → reading = 0 ∨ reading = 4095 → y.fault = true ∧ y.taken = a.taken) ∧
    (a.baseline ≠ 0 → reading ≠ 0 → reading ≠ 4095 → y.fault = false ∧
      (a.baseline ≤ reading → y.taken = 0) ∧
      (reading < a.baseline → y.taken = min ((2 * (a.baseline - reading) + a.unit) / (2 * a.unit)) a.stock)) := by
  dsimp only
  by_cases unbased : a.baseline = 0
  · rw [Tray.read_unbased unbased]
    exact ⟨rfl, rfl, rfl, rfl, rfl, rfl, fun _ => ⟨rfl, rfl⟩, fun based => absurd unbased based, fun based => absurd unbased based⟩
  · by_cases bad : reading = 0 ∨ reading = 4095
    · rw [Tray.read_bad unbased bad]
      exact ⟨rfl, rfl, rfl, rfl, rfl, rfl, fun h => absurd h unbased, fun _ _ => ⟨rfl, rfl⟩, fun _ low high => (bad.elim low high).elim⟩
    · obtain ⟨low, high⟩ := not_or.1 bad
      rw [Tray.read_good unbased low high]
      refine ⟨rfl, rfl, rfl, rfl, rfl, rfl, fun h => absurd h unbased, fun _ h => absurd h bad, fun _ _ _ => ⟨rfl, fun full => ?_, fun gone => ?_⟩⟩
      · dsimp only
        rw [Tray.quotient, if_pos full]
        exact Nat.zero_min _
      · dsimp only
        rw [Tray.quotient, if_neg (Nat.not_le.2 gone)]

theorem Minibar.finished_eq (plain : m.purpose ≠ some .restock) : (m.having got).finished =
    { m.cleared .locked with
      trays := (m.having got).applyReadings.trays, charge := min 999999 (m.having got).applyReadings.sumOwed
      saturated := m.saturated || decide (999999 < (m.having got).applyReadings.sumOwed), overStock := (m.having got).applyReadings.overStock } := by
  have weighed : (m.having got).weighed = (m.having got).applyReadings.recharge := if_neg plain
  unfold Minibar.finished
  rw [weighed, Minibar.recharge_eq]
  rfl

theorem Minibar.finished_weighs (plain : m.purpose ≠ some .restock) : m.Weighs (fun i => got[i]) (m.having got).finished := by
  have trays (i : Fin 8) := (m.having got).applyReadings_tray i
  have over_ : (m.having got).applyReadings.overStock = true ↔ m.overStock = true ∨ ∃ (i : Fin 8) (reading : Nat),
      m.requested.getLsbD i.val = true ∧ got[i] = some reading ∧ m.trays[i].exceeds reading := by
    refine (Bool.or_eq_true _ _).to_iff.trans (or_congr_right ((List.any_eq_true).trans ⟨?_, ?_⟩))
    · rintro ⟨i, -, hit⟩
      cases asked : m.requested.getLsbD i.val with
      | false =>
        rw [(m.having got).reading_none asked] at hit
        cases hit
      | true =>
        rw [(m.having got).reading_some asked] at hit
        cases read : got[i] with
        | none =>
          have read' : (m.having got).collected[i] = none := read
          rw [read'] at hit
          cases hit
        | some x =>
          have read' : (m.having got).collected[i] = some x := read
          rw [read'] at hit
          exact ⟨i, x, asked, read, (Tray.overStock_iff _ _).1 hit⟩
    · rintro ⟨i, x, asked, read, exceeds⟩
      refine ⟨i, List.mem_finRange i, ?_⟩
      have read' : (m.having got).collected[i] = some x := read
      rw [(m.having got).reading_some asked, read']
      exact (Tray.overStock_iff _ _).2 exceeds
  rw [m.finished_eq got plain]
  refine ⟨rfl, rfl, rfl, over_, fun i => ⟨fun skipped => ?_, fun x asked read => ?_⟩⟩
  · exact (trays i).trans (by rw [(m.having got).reading_none skipped]; rfl)
  · have read' : (m.having got).collected[i] = some x := read
    have tray : (m.having got).applyReadings.trays[i] = m.trays[i].read x := (trays i).trans (by rw [(m.having got).reading_some asked, read']; rfl)
    show let y := (m.having got).applyReadings.trays[i]; _
    rw [tray]
    exact m.trays[i].read_spec x

/-- A requested tray with a good reading, in a restock scan (R121). -/
def Minibar.goodAt (now : Fin 8 → Option Nat) (i : Fin 8) : Bool := m.requested.getLsbD i.val && decide (now i ≠ some 0 ∧ now i ≠ some 4095)

theorem goodAt_some {x : Nat} {now : Fin 8 → Option Nat} {i : Fin 8} (asked : m.requested.getLsbD i.val = true) (read : now i = some x) :
    m.goodAt now i = !badReading x := by
  unfold Minibar.goodAt badReading
  rw [asked, read, Bool.true_and, ← decide_not, decide_eq_decide]
  simp

theorem Tray.restock_bad {a : Tray} {x : Nat} (bad : badReading x = true) : a.restock x = { a with last := some x, fault := true } := if_pos bad

theorem Tray.restock_good {a : Tray} {x : Nat} (good : badReading x = false) :
    a.restock x = { a with last := some x, baseline := x, taken := 0, base := 0, fault := false } := if_neg (by rw [good]; nofun)

/-- What a restock scan asks of each requested tray it has read: `none_` of one not requested, else by its reading. -/
theorem Minibar.restocked_sum (complete : ∀ i : Fin 8, m.requested.getLsbD i.val = true → got[i].isSome = true) (f : Fin 8 → Nat) :
    ((List.finRange 8).map fun i => match (m.having got).reading i with
      | none => 0
      | some x => if badReading x then 0 else f i).sum =
    ((List.finRange 8).map fun i => if m.goodAt (fun i => got[i]) i then f i else 0).sum := by
  refine congrArg List.sum (List.map_congr_left fun i _ => ?_)
  cases asked : m.requested.getLsbD i.val with
  | false =>
    have skipped : m.goodAt (fun i => got[i]) i = false := by rw [Minibar.goodAt, asked, Bool.false_and]
    rw [(m.having got).reading_none asked, skipped]
    rfl
  | true =>
    obtain ⟨x, read⟩ := Option.isSome_iff_exists.1 (complete i asked)
    have read' : (m.having got).collected[i] = some x := read
    rw [(m.having got).reading_some asked, read', goodAt_some m asked read]
    dsimp only
    cases badReading x <;> rfl

theorem Minibar.goodTrays_toNat (complete : ∀ i : Fin 8, m.requested.getLsbD i.val = true → got[i].isSome = true) :
    (m.having got).goodTrays.toNat = ((List.finRange 8).map fun i : Fin 8 => if m.goodAt (fun i => got[i]) i then 2 ^ i.val else 0).sum := by
  rw [← m.restocked_sum got complete]
  unfold Minibar.goodTrays
  rw [setOf_toNat, ← List.map_coe_finRange_eq_range, List.map_map]
  refine congrArg List.sum (List.map_congr_left fun i _ => ?_)
  rw [Function.comp_apply, dif_pos i.isLt]
  show (if (match (m.having got).reading i with
    | none => false
    | some r => !badReading r) = true then 2 ^ i.val else 0) = _
  cases (m.having got).reading i with
  | none => rfl
  | some x =>
    by_cases bad : badReading x = true
    · simp [bad]
    · simp [Bool.eq_false_iff.2 bad]

theorem Minibar.finished_restocks (restock : m.purpose = some .restock)
    (complete : ∀ i : Fin 8, m.requested.getLsbD i.val = true → got[i].isSome = true) : m.Restocks (fun i => got[i]) (m.having got).finished := by
  have weighed : (m.having got).weighed = (m.having got).applyRestock.recharge := if_pos restock
  have eq : (m.having got).finished =
      { m.cleared .locked with
        trays := (m.having got).applyRestock.trays, carried := (m.having got).applyRestock.carried
        charge := min 999999 (m.having got).applyRestock.sumOwed
        saturated := m.saturated || decide (999999 < (m.having got).applyRestock.sumOwed) } := by
    unfold Minibar.finished
    rw [weighed, Minibar.recharge_eq]
    rfl
  rw [eq]
  refine ⟨rfl, fun i => ⟨fun skipped => ?_, fun asked => ?_⟩, ?_, rfl, rfl⟩
  · exact ((m.having got).applyRestock_tray i).trans (by rw [(m.having got).reading_none skipped]; rfl)
  · obtain ⟨x, read⟩ := Option.isSome_iff_exists.1 (complete i asked)
    have read' : (m.having got).collected[i] = some x := read
    have tray : (m.having got).applyRestock.trays[i] = m.trays[i].restock x :=
      ((m.having got).applyRestock_tray i).trans (by rw [(m.having got).reading_some asked, read']; rfl)
    have good := goodAt_some m asked (now := fun i => got[i]) read
    show let y := (m.having got).applyRestock.trays[i]; y.last = got[i] ∧ y.unit = _ ∧ y.price = _ ∧ y.stock = _ ∧
      (m.goodAt (fun i => got[i]) i = false → _) ∧ (m.goodAt (fun i => got[i]) i = true → y.fault = false ∧ some y.baseline = got[i] ∧ _)
    rw [tray, good, read]
    cases bad : badReading x with
    | true =>
      rw [Tray.restock_bad bad]
      exact ⟨rfl, rfl, rfl, rfl, fun _ => ⟨rfl, rfl, rfl, rfl⟩, nofun⟩
    | false =>
      rw [Tray.restock_good bad]
      exact ⟨rfl, rfl, rfl, rfl, nofun, fun _ => ⟨rfl, rfl, rfl, rfl⟩⟩
  · exact congrArg (fun n => min 999999 (m.carried + n)) (m.restocked_sum got complete fun i => m.trays[i].unbilled)

end

end Sys2Proof.Machine

namespace Sys2Proof.Machine

open Sys2Proof

/-! ## TRAY_DATA reaches the Minibar Unit (R113, R133) -/

theorem readingBytes_length (readings : List Half) : (readings.flatMap fun r => beBytes 2 r.toNat).length = 2 * readings.length := by
  induction readings with
  | nil => rfl
  | cons y ys ih =>
    rw [List.flatMap_cons, List.length_append, ih, beBytes, List.length_reverse, leBytes_length, List.length_cons]
    omega

section
variable {s : State} {l : Fin 2} {x : Exchange} {r : Fin 48} {first count : Byte} {readings : List Half}

theorem trayData_good (poll : x.msg = .poll) (one : 1 ≤ count.toNat) (eight : count.toNat ≤ 8) (len : readings.length = count.toNat) :
    x.goodAs (.trayData first count readings) = some (.trayData first count readings) := by
  have payload : (Reply.trayData first count readings).payload.length = 2 + 2 * count.toNat := by
    show (readings.flatMap fun r => beBytes 2 r.toNat).length + 1 + 1 = _
    rw [readingBytes_length, len]
    omega
  have fits : ReplyKind.lengthFits .trayData (Reply.trayData first count readings).payload = true := by
    show (decide (1 ≤ count.toNat ∧ count.toNat ≤ 8) && (Reply.trayData first count readings).payload.length == 2 + 2 * count.toNat) = true
    rw [payload, decide_eq_true ⟨one, eight⟩, Bool.true_and, beq_self_eq_true]
  refine if_pos ?_
  rw [poll]
  exact fits

theorem State.exec_trayData (exch : s.Exchanging l x) (poll : x.msg = .poll) (present : (s.drop l x.addr).presence = .present)
    (bound : (s.drop l x.addr).binding = some (.minibar r)) (one : 1 ≤ count.toNat) (eight : count.toNat ≤ 8) (len : readings.length = count.toNat) :
    exec (.trayData l first count readings) s =
      .next ((s.heard l x.addr).trayReadings r first.toNat (readings.map BitVec.toNat)).settle := by
  obtain ⟨-, -, opened, fresh⟩ := exch
  have exchange : s.lines[l].exchange = some x := by
    unfold Line.exchange
    rw [opened]
  have heard : (s.endExchange l x true).clearMiss l x.addr = s.heard l x.addr := by
    unfold State.endExchange
    dsimp only
    rw [poll]
    rfl
  have here : (s.heard l x.addr).minibarAt l x.addr = some r := by
    unfold State.minibarAt
    rw [s.heard_drop]
    dsimp only
    rw [bound]
  have answered : s.answered l x (some (.trayData first.toNat (readings.map BitVec.toNat))) =
      (s.heard l x.addr).trayReadings r first.toNat (readings.map BitVec.toNat) := by
    unfold State.answered
    dsimp only
    rw [heard, s.heard_drop]
    dsimp only
    rw [present]
    dsimp only
    unfold State.deliver
    dsimp only
    rw [here]
  show Host.Outcome.next (s.reply l (.trayData first count readings)) = _
  unfold State.reply
  rw [exchange]
  dsimp only
  rw [if_pos fresh, trayData_good poll one eight len]
  exact congrArg (fun u : State => Host.Outcome.next u.settle) answered

/-- Nothing but the lines has changed as the reply is delivered. -/
theorem State.heard_sameBindings (s : State) (l : Fin 2) (a : Fin 64) : s.SameBindings (s.heard l a) := by
  have idle : s.SameBindings (s.idled l s.lines[l].returning) := fun k c => by rw [s.idled_drop]
  exact idle.trans (State.sameBindings_setDrop _ l a _ rfl)

theorem State.Exchanging.heard_quiet (exch : s.Exchanging l x) (law : s.LineInv) {v : State} (work : State.Work .calm (s.heard l x.addr) v) :
    v.NoGoDue := by
  obtain ⟨-, free, -, -⟩ := exch
  have idle : (s.heard l x.addr).NoGoDue := State.idled_calm law (fun _ => free) (State.work_setDrop _ _ _ _)
  exact idle.of_course work.course

end

/-! ## The readings collected (R113) -/

/-- The readings of the scan after those of a TRAY_DATA. -/
def Minibar.collecting (m : Minibar) (first : Nat) (readings : List Nat) : Vector (Option Nat) 8 :=
  Vector.ofFn fun t : Fin 8 =>
    if first ≤ t.val ∧ t.val < first + readings.length ∧ t.val < m.trayCount ∧ trayIn m.requested t.val then
      some (min (readings.getD (t.val - first) 0) 4095)
    else m.collected[t]

theorem Minibar.collecting_at (m : Minibar) (first count : Byte) (readings : List Half) (len : readings.length = count.toNat) (i : Fin 8) :
    (m.collecting first.toNat (readings.map BitVec.toNat))[i] =
      if first.toNat ≤ i.val ∧ i.val < first.toNat + count.toNat ∧ i.val < m.trayCount ∧ m.requested.getLsbD i.val = true then
        some (min (readings.getD (i.val - first.toNat) 0).toNat 4095)
      else m.collected[i] := by
  unfold Minibar.collecting
  rw [Fin.getElem_fin, Vector.getElem_ofFn, List.length_map, len]
  have value : (readings.map BitVec.toNat).getD (i.val - first.toNat) 0 = (readings.getD (i.val - first.toNat) 0).toNat :=
    List.getD_map readings 0 BitVec.toNat
  rw [value]
  rfl

section
variable (u : State) (r : Fin 48) (first : Nat) (readings : List Nat) (scanning : u.minibars[r].state = .scanning)
include scanning

theorem State.trayReadings_more (more : (u.minibars[r].having (u.minibars[r].collecting first readings)).missing ≠ 0) :
    u.trayReadings r first readings = u.putMinibar r (u.minibars[r].having (u.minibars[r].collecting first readings)) := by
  unfold State.trayReadings
  dsimp only
  rw [if_neg (not_not_intro scanning)]
  exact if_neg more

theorem State.trayReadings_last (last : (u.minibars[r].having (u.minibars[r].collecting first readings)).missing = 0) :
    u.trayReadings r first readings = u.finishScan r (u.minibars[r].having (u.minibars[r].collecting first readings)) := by
  unfold State.trayReadings
  dsimp only
  rw [if_neg (not_not_intro scanning)]
  exact if_pos last

end

end Sys2Proof.Machine

namespace Sys2Proof.Machine

open Sys2Proof

/-! ## The scan that a TRAY_DATA completes -/

/-- The scan of the record `m` at minibar `r` has completed and both lines have gone on; `closes` where its report closes the room. -/
structure State.ScanDone (s t : State) (r : Fin 48) (m : Minibar) (closes : Bool) : Prop where
  minibars : t.minibars = s.minibars.set r m.finished.marked
  rooms : t.rooms = if closes then s.rooms.set r (s.rooms[r].closed false) else s.rooms
  logs : s.Logs t ((m.faultEntries r (s.minibarPlace r) ++ m.scanEntries r (s.minibarPlace r)) ++
    if closes then s.rooms[r].closedEntries r true m.finished.marked.charge else [])
  held : closes = false → m.purpose ≠ some .host → t.held = s.held
  still : closes = false → m.faultEntries r (s.minibarPlace r) ++ m.scanEntries r (s.minibarPlace r) = [] → t.journal = s.journal
  host : m.purpose = some .host → ∀ h, s.heldBy (.minibarUnit r) = some h → t.EndedWith h.block .ok (scanData m.finished m.requested 0)
  checkout : closes = true → m.purpose ≠ some .host ∨ s.HeldInv → ∀ h, s.heldBy (.roomTable r) = some h →
    t.EndedWith h.block .ok (s.rooms[r].closedData true m.finished.marked.charge)

theorem State.ScanFinished.settles {s v w t : State} {r : Fin 48} {m : Minibar} {closes : Bool} (done : v.ScanFinished w r m closes)
    (alone : v = { s with lines := v.lines }) (bound : s.SameBindings v) (on : w.GoesOn t) : s.ScanDone t r m closes := by
  obtain ⟨logs, records, held, still, host, checkout⟩ := done
  have rooms : v.rooms = s.rooms := (congrArg State.rooms alone :)
  have minibars : v.minibars = s.minibars := (congrArg State.minibars alone :)
  have books : v.books = s.books := (congrArg State.books alone :)
  have heldSame : v.held = s.held := (congrArg State.held alone :)
  have journal : v.journal = s.journal := (congrArg State.journal alone :)
  have place := bound.minibarPlace r
  rw [rooms, minibars] at records
  rw [rooms, place] at logs
  rw [place] at still
  rw [rooms] at checkout
  exact {
    minibars := on.minibars.trans (State.records_minibars records :)
    rooms := on.rooms.trans (State.records_rooms records :)
    logs := (State.Logs.nil_trans books logs).trans_nil (congrArg State.books on.rest :)
    held := fun open_ other => (congrArg State.held on.rest :).trans ((held open_ other).trans heldSame)
    still := fun open_ quiet => on.journal.trans ((still open_ quiet).trans journal)
    host := fun purpose h found => (host purpose h ((State.heldBy_congr heldSame _).trans found)).settles on
    checkout := fun closing one h found => by
      refine (checkout closing (one.imp_right fun inv => ?_) h ((State.heldBy_congr heldSame _).trans found)).settles on
      unfold State.HeldInv
      rw [heldSame]
      exact inv }

theorem Minibar.faultEntries_length (m : Minibar) (r : Fin 48) (place : Nat) : (m.faultEntries r place).length ≤ 1 := by
  unfold Minibar.faultEntries
  split <;> simp

theorem Minibar.scanEntries_length (m : Minibar) (r : Fin 48) (place : Nat) : (m.scanEntries r place).length ≤ 1 := by
  unfold Minibar.scanEntries
  split
  · simp
  · split <;> simp

section
variable {s t : State} {r : Fin 48} {m : Minibar} {closes : Bool} (done : s.ScanDone t r m closes)
include done

/-- The entries of a scan that is no restock and finds no new fault: that of a changed charge. -/
theorem State.ScanDone.charges (open_ : closes = false) (plain : m.purpose ≠ some .restock) {reason flag : Nat}
    (code : (m.purpose.map ScanPurpose.code).getD 0 = reason) (final : flagBit m.isFinalScan = flag) (sound : ∀ i, ¬ m.newly i) :
    (m.finished.charge = m.charge → t.journal = s.journal) ∧
    (m.finished.charge ≠ m.charge → s.Asks t
      { kind := .minibarCharge, place := s.minibarPlace r, room := r.val, reason := reason, subject := m.finished.charge
        value := m.requested.toNat * 256 + flag }) := by
  have faults : m.faultEntries r (s.minibarPlace r) = [] := if_neg (not_not_intro (m.faulted_eq_zero.2 sound))
  have entries : m.scanEntries r (s.minibarPlace r) = if m.finished.charge ≠ m.charge then
      [{ kind := .minibarCharge, place := s.minibarPlace r, room := r.val, reason := reason, subject := m.finished.charge
         value := m.requested.toNat * 256 + flag }] else [] := by
    rw [← code, ← final]
    exact if_neg plain
  have logs := done.logs
  have still := done.still open_
  rw [open_, faults, entries] at logs
  rw [faults, entries] at still
  constructor
  · intro same
    exact still (by rw [if_neg (not_not_intro same)]; rfl)
  · intro changed
    rw [if_pos changed] at logs
    exact logs.asks

theorem State.ScanDone.restocked (open_ : closes = false) (restock : m.purpose = some .restock) (sound : ∀ i, ¬ m.newly i) :
    s.Asks t { kind := .minibarRestocked, place := s.minibarPlace r, room := r.val, subject := m.finished.carried, value := m.goodTrays.toNat } := by
  have faults : m.faultEntries r (s.minibarPlace r) = [] := if_neg (not_not_intro (m.faulted_eq_zero.2 sound))
  have entries : m.scanEntries r (s.minibarPlace r) =
      [{ kind := .minibarRestocked, place := s.minibarPlace r, room := r.val, subject := m.finished.carried, value := m.goodTrays.toNat }] := if_pos restock
  have logs := done.logs
  rw [open_, faults, entries] at logs
  exact logs.asks

/-- The entry of newly faulted trays comes first. -/
theorem State.ScanDone.faults {i : Fin 8} (new : m.newly i) (room : s.HasRoom 1) :
    ∃ k, s.entryWith k { kind := .minibarFault, place := s.minibarPlace r, room := r.val, reason := 1, subject := m.charge, value := m.faulted.toNat } ∈
      t.journal.queue := by
  have faulted : m.faulted ≠ 0 := fun none_ => (m.faulted_eq_zero.1 none_) i new
  have logs := done.logs
  rw [Minibar.faultEntries, if_pos faulted, List.append_assoc] at logs
  exact logs.holds room (Nat.le_refl 1) (List.mem_singleton_self _)

/-- The entries of the room that a final scan closes. -/
theorem State.ScanDone.closing (closing : closes = true) (room : s.HasRoom 4) {q : Request}
    (mem : q ∈ s.rooms[r].closedEntries r true m.finished.marked.charge) : ∃ k, s.entryWith k q ∈ t.journal.queue := by
  have logs := done.logs
  have first := m.faultEntries_length r (s.minibarPlace r)
  have second := m.scanEntries_length r (s.minibarPlace r)
  rw [closing, if_pos rfl, ← List.append_nil (_ ++ Room.closedEntries _ _ _ _)] at logs
  refine logs.holds room ?_ (List.mem_append_right _ mem)
  simp only [List.length_append, Room.closedEntries, List.length_cons, List.length_nil]
  omega

end

end Sys2Proof.Machine

namespace Sys2Proof.Machine

open Sys2Proof

theorem Minibar.finished_charge (m : Minibar) : m.finished.charge = min 999999 m.finished.sumOwed := by
  unfold Minibar.finished Minibar.weighed
  split
  · rw [Minibar.recharge_eq]
    rfl
  · rw [Minibar.recharge_eq]
    rfl

theorem Minibar.marked_charge (m : Minibar) : m.marked.charge = 0 ∨ m.marked.charge = m.charge := by
  unfold Minibar.marked
  split
  · exact .inl rfl
  · exact .inr rfl

theorem Minibar.flags_toNat (m : Minibar) : (byteOf m.flags).toNat = m.flagByte := by
  unfold Minibar.flags Minibar.flagByte flagBit
  cases m.saturated <;> cases m.overStock <;> rfl

theorem Minibar.faults_getLsbD (m : Minibar) (i : Fin 8) : m.faults.getLsbD i.val = m.trays[i].fault := by
  unfold Minibar.faults
  rw [setOf_getLsbD _ i.isLt, dif_pos i.isLt]
  rfl

/-- The results of a HOST scan that has completed (R118). -/
theorem State.EndedWith.scan {t : State} {b : Fin 16} {m : Minibar} {read missing : Byte} (h : t.EndedWith b .ok (scanData m read missing)) :
    t.byte (64 * b.val + 44) = read ∧ t.byte (64 * b.val + 45) = missing ∧
    (∀ i : Fin 8, (t.byte (64 * b.val + 46)).getLsbD i.val = m.trays[i].fault) ∧ t.resultAt b 3 1 = m.flagByte ∧
    t.resultAt b 4 4 = m.charge % 4294967296 ∧ t.resultAt b 8 4 = m.carried % 4294967296 := by
  have length : (scanData m read missing).length = 12 := by simp [scanData]
  refine ⟨h.byteAt (i := 0) rfl (by omega), h.byteAt (i := 1) rfl (by omega), fun i => ?_, ?_, ?_, ?_⟩
  · have byte := h.byteAt (i := 2) rfl (by omega)
    rw [show 64 * b.val + 46 = 64 * b.val + 44 + 2 from rfl, byte]
    exact m.faults_getLsbD i
  · rw [State.resultAt_one, h.byteAt (i := 3) rfl (by omega)]
    exact m.flags_toNat
  · rw [h.2 4 4 (by omega) (by omega)]
    have field : ((scanData m read missing).drop 4).take 4 = leBytes 4 m.charge := by simp [scanData]
    rw [field, leNat_leBytes]
    rfl
  · rw [h.2 8 4 (by omega) (by omega)]
    have field : ((scanData m read missing).drop 8).take 4 = leBytes 4 m.carried := by simp [scanData]
    rw [field, leNat_leBytes]
    rfl

section
variable {s : State} {l : Fin 2} {x : Exchange} {r : Fin 48} {first count : Byte} {readings : List Half}

/-- A TRAY_DATA after which requested trays have no reading yet. -/
theorem State.trayData_more (exch : s.Exchanging l x) (poll : x.msg = .poll) (present : (s.drop l x.addr).presence = .present)
    (bound : (s.drop l x.addr).binding = some (.minibar r)) (scanning : s.minibars[r].state = .scanning)
    (one : 1 ≤ count.toNat) (eight : count.toNat ≤ 8) (len : readings.length = count.toNat) (law : s.LineInv)
    (more : (s.minibars[r].having (s.minibars[r].collecting first.toNat (readings.map BitVec.toNat))).missing ≠ 0) :
    ∃ t, exec (.trayData l first count readings) s = .next t ∧
      t.minibars = s.minibars.set r (s.minibars[r].having (s.minibars[r].collecting first.toNat (readings.map BitVec.toNat))) ∧
      t.rooms = s.rooms ∧ t.journal = s.journal ∧ t.held = s.held := by
  refine ⟨_, State.exec_trayData exch poll present bound one eight len, ?_⟩
  rw [State.trayReadings_more (s.heard l x.addr) r _ _ scanning more]
  obtain ⟨minibars, rooms, -, journal, held, -⟩ :=
    (s.heard l x.addr).putMinibar_settles r (s.minibars[r].having (s.minibars[r].collecting first.toNat (readings.map BitVec.toNat)))
      (exch.heard_quiet law (.refl _))
  exact ⟨minibars, rooms, journal, held⟩

/-- A TRAY_DATA after which every requested tray has a reading. -/
theorem State.trayData_last (exch : s.Exchanging l x) (poll : x.msg = .poll) (present : (s.drop l x.addr).presence = .present)
    (bound : (s.drop l x.addr).binding = some (.minibar r)) (scanning : s.minibars[r].state = .scanning)
    (one : 1 ≤ count.toNat) (eight : count.toNat ≤ 8) (len : readings.length = count.toNat) (law : s.LineInv)
    (last : (s.minibars[r].having (s.minibars[r].collecting first.toNat (readings.map BitVec.toNat))).missing = 0) :
    ∃ t, exec (.trayData l first count readings) s = .next t ∧
      s.ScanDone t r (s.minibars[r].having (s.minibars[r].collecting first.toNat (readings.map BitVec.toNat)))
        (s.minibars[r].isFinalScan && decide (s.rooms[r].state = .departing)) := by
  have run := State.exec_trayData (first := first) exch poll present bound one eight len
  have rest := s.heard_rest l x.addr
  have bindings := s.heard_sameBindings l x.addr
  have quiet := fun v => exch.heard_quiet (v := v) law
  have minibar : (s.heard l x.addr).minibars[r] = s.minibars[r] := rfl
  have room : (s.heard l x.addr).rooms[r] = s.rooms[r] := rfl
  generalize s.heard l x.addr = v at *
  have reads := v.trayReadings_last r first.toNat (readings.map BitVec.toNat) (by rw [minibar]; exact scanning) (by rw [minibar]; exact last)
  rw [minibar] at reads
  generalize s.minibars[r].collecting first.toNat (readings.map BitVec.toNat) = got at *
  have finished := v.finishScan_finished r (s.minibars[r].having got)
  rw [room] at finished
  refine ⟨_, run, ?_⟩
  rw [reads]
  exact finished.settles rest bindings (State.settle_goesOn _ (quiet _ (v.work_finishScan r (s.minibars[r].having got))))

end

/-- Settles O43, by the readings collected, and the scan that they complete. -/
theorem trayReadings : Obligations.TrayReadings := by
  intro s l x r first count readings exch poll present bound scanning one eight len law m now
  have collected : now = fun i => (m.collecting first.toNat (readings.map BitVec.toNat))[i] :=
    funext fun i => (m.collecting_at first count readings len i).symm
  have more := State.trayData_more (first := first) exch poll present bound scanning one eight len law
  have last := State.trayData_last (first := first) exch poll present bound scanning one eight len law
  clear_value now
  subst collected
  generalize m.collecting first.toNat (readings.map BitVec.toNat) = got at more last ⊢
  intro complete
  have full : (m.having got).missing = 0 ↔ complete := (m.having got).missing_eq_zero
  refine ⟨fun part => ?_, ?_⟩
  · obtain ⟨t, run, minibars, rooms, journal, held⟩ := more fun zero => part (full.1 zero)
    have record : t.minibars[r] = m.having got := by
      rw [minibars]
      exact vector_set_same _ r _
    exact ⟨t, run, by rw [record]; exact minibars, by rw [record]; rfl, fun i => by rw [record]; rfl, rooms, held, journal⟩
  · intro newly weighed ends charges
    have closesNot (open_ : m.finalMark = false ∨ s.rooms[r].state ≠ .departing) (other : m.purpose ≠ some .final) :
        (m.isFinalScan && decide (s.rooms[r].state = .departing)) = false := by
      rw [Bool.and_eq_false_iff, decide_eq_false_iff_not, ← Bool.not_eq_true, Minibar.isFinalScan_iff]
      exact open_.imp_left fun unmarked marked => marked.elim other fun e => by rw [unmarked] at e; cases e
    have ends_ {t : State} {closes : Bool} (plain : m.purpose ≠ some .restock) (run : exec (.trayData l first count readings) s = .next t)
        (done : s.ScanDone t r (m.having got) closes) : ends t (m.having got).finished :=
      ⟨run, m.finished_weighs got plain, done.minibars⟩
    refine ⟨fun whole purpose unmarked => ?_, ?_⟩
    · obtain ⟨t, run, done⟩ := last (full.2 whole)
      have open_ := closesNot (.inl unmarked) (by rw [purpose]; nofun)
      have final : m.isFinalScan = false := by
        rw [Minibar.isFinalScan, purpose, unmarked]
        rfl
      refine ⟨t, _, ends_ (by rw [purpose]; nofun) run done, ?_, ?_, ?_⟩
      · rw [done.rooms, open_]
        rfl
      · exact done.held open_ (show m.purpose ≠ _ by rw [purpose]; nofun)
      · exact done.charges open_ (show m.purpose ≠ _ by rw [purpose]; nofun) (show (m.purpose.map _).getD 0 = 1 by rw [purpose]; rfl)
          (show flagBit m.isFinalScan = 0 by rw [final]; rfl)
    · intro stays
      have small (w : Minibar) (h : w.charge ≤ 999999) : w.charge % 4294967296 = w.charge := Nat.mod_eq_of_lt (by omega)
      refine ⟨fun whole purpose h held one => ?_, fun whole purpose notDeparting => ?_, fun whole purpose departing h held one => ?_,
        fun whole purpose => ?_, fun whole new room => ?_⟩
      · obtain ⟨t, run, done⟩ := last (full.2 whole)
        have plain : m.purpose ≠ some .restock := by rw [purpose]; nofun
        obtain ⟨read, missing, faults, flags, charge, carried⟩ := (done.host purpose h held).scan
        have final : flagBit m.isFinalScan = if m.finalMark = true then 1 else 0 := by
          rw [Minibar.isFinalScan, purpose]
          rfl
        have bound := (m.having got).finished_charge
        have kept : (m.having got).finished.carried = m.carried := by rw [m.finished_eq got plain]; rfl
        refine ⟨t, _, ends_ plain run done, fun open_ => ?_, (done.host purpose h held).1, read, missing, faults, flags, ?_, ?_⟩
        · have open_ := closesNot open_ (by rw [purpose]; nofun)
          refine ⟨?_, done.charges open_ plain (show (m.purpose.map _).getD 0 = 4 by rw [purpose]; rfl) final⟩
          rw [done.rooms, open_]
          rfl
        · rw [charge, small _ (by rw [bound]; exact Nat.min_le_left _ _)]
        · rw [carried, kept]
      · obtain ⟨t, run, done⟩ := last (full.2 whole)
        have open_ : (m.isFinalScan && decide (s.rooms[r].state = .departing)) = false := by
          rw [decide_eq_false notDeparting, Bool.and_false]
        have final : m.isFinalScan = true := (m.isFinalScan_iff).2 (purpose.imp_right And.right)
        have named : m.purpose = some .final ∨ m.purpose = some .afterClose := purpose.imp_right And.left
        have plain : m.purpose ≠ some .restock := fun e => by simp [e] at named
        have other : m.purpose ≠ some .host := fun e => by simp [e] at named
        have code : (m.purpose.map ScanPurpose.code).getD 0 = if m.purpose = some .final then 3 else 1 := by
          rcases named with named | named <;> rw [named] <;> rfl
        refine ⟨t, _, ends_ plain run done, ?_, done.held open_ other, done.charges open_ plain code (show flagBit m.isFinalScan = 1 by rw [final]; rfl)⟩
        rw [done.rooms, open_]
        rfl
      · obtain ⟨t, run, done⟩ := last (full.2 whole)
        have closing : (m.isFinalScan && decide (s.rooms[r].state = .departing)) = true := by
          rw [(m.isFinalScan_iff).2 purpose, decide_eq_true departing]
          rfl
        have ended := done.checkout closing one h held
        obtain ⟨generation, flag, charge⟩ := ended.closed
        have record : t.minibars[r] = (m.having got).finished.marked := by
          rw [done.minibars]
          exact vector_set_same _ r _
        have bound := (m.having got).finished_charge
        have few : (m.having got).finished.marked.charge ≤ 999999 := by
          rcases (m.having got).finished.marked_charge with zero | same
          · omega
          · omega
        refine ⟨t, run, ?_⟩
        rw [record]
        refine ⟨fun plain => ⟨_, ends_ plain run done⟩, ended.1, ?_, generation, flag, charge.trans (small _ few), fun room => ⟨?_, ?_⟩⟩
        · rw [done.rooms, closing]
          rfl
        · obtain ⟨k, entry⟩ := done.closing closing room List.mem_cons_self
          exact ⟨_, entry, rfl, rfl, rfl, rfl⟩
        · obtain ⟨k, entry⟩ := done.closing closing room (List.mem_cons_of_mem _ (List.mem_singleton_self _))
          exact ⟨_, entry, rfl, rfl, rfl, rfl⟩
      · intro good
        obtain ⟨t, run, done⟩ := last (full.2 whole)
        obtain ⟨shape, trays, carried, charge, saturated⟩ := m.finished_restocks got purpose whole
        have other : m.purpose ≠ some .host := by rw [purpose]; nofun
        have notFinal : m.purpose ≠ some .final := by rw [purpose]; nofun
        refine ⟨t, _, run, done.minibars, shape, fun open_ => ⟨?_, done.held (closesNot open_ notFinal) other⟩, trays, carried, charge, saturated,
          fun open_ sound => ?_⟩
        · rw [done.rooms, closesNot open_ notFinal]
          rfl
        · have asks := done.restocked (closesNot open_ notFinal) purpose sound
          rw [m.goodTrays_toNat got whole] at asks
          exact asks
      · obtain ⟨t, run, done⟩ := last (full.2 whole)
        obtain ⟨i, new⟩ := new
        obtain ⟨k, entry⟩ := done.faults new room
        exact ⟨t, run, _, entry, rfl, rfl, rfl, rfl, rfl, (m.having got).faulted.isLt, fun i => (m.having got).faulted_getLsbD i⟩

end Sys2Proof.Machine

namespace Sys2Proof.Machine

open Sys2Proof

/-! ## A good answer of the encoder, and what is sent on it (R83, R89 to R95) -/

/-- After work that led from the port's answer to `u`, a message has been sent for the order `p`: the port works on it, and the records are those
of `u`. -/
structure State.Sent (u t : State) (msg : EncMsg) (stage : Stage) (p : EncOrder) : Prop where
  sending : t.Sending msg stage p
  working : t.encoder.state = .working
  rooms : t.rooms = u.rooms
  minibars : t.minibars = u.minibars
  revs : t.revs = u.revs
  serial : t.serial = u.serial
  held : t.held = u.held
  journal : t.journal = u.journal

section
variable {s u : State} {x : EncExchange} {g : Stage} {o p : EncOrder} {a : EncAnswer}

theorem State.Encoding.encReply (open_ : s.Encoding x g o) (good : x.goodAs a = some a) :
    s.encReply a = s.encoderStep fun v => v.takeAnswer o a := by
  obtain ⟨exchange, -, running, received⟩ := open_
  unfold State.encReply State.judgeAnswer
  rw [exchange, running]
  dsimp only
  rw [if_pos received, good]

/-- The work on a good answer that ends in sending a message. -/
theorem State.Encoding.sent (open_ : s.Encoding x g o) (good : x.goodAs a = some a) {msg : EncMsg} {stage : Stage}
    (run : s.takeAnswer o a = u.send p .working msg stage) : u.Sent (s.encReply a) msg stage p := by
  obtain ⟨m, n, step⟩ := s.encoderStep_changes fun v => v.takeAnswer o a
  rw [run] at step
  rw [open_.encReply good, step]
  exact ⟨⟨rfl, rfl, rfl⟩, rfl, rfl, rfl, rfl, rfl, rfl, rfl⟩

/-! ### The answers a message accepts, taken in the stage of the order -/

theorem EncExchange.goodAs_image (read : x.msg = .read) {bytes : List Byte} (full : bytes.length = 20) :
    x.goodAs (.image bytes) = some (.image bytes) :=
  if_pos (by rw [read, show EncReply.payloadFits (EncAnswer.image bytes).kind (EncAnswer.image bytes).payload = (bytes.length == 20) from rfl, full]; rfl)

theorem EncExchange.goodAs_readFail (read : x.msg = .read) : x.goodAs .readFail = some .readFail :=
  if_pos (by rw [read]; rfl)

theorem EncExchange.goodAs_done_write (write : ∃ bytes, x.msg = .write bytes) : x.goodAs .done = some .done := by
  obtain ⟨bytes, write⟩ := write
  exact if_pos (by rw [write]; rfl)

theorem EncExchange.goodAs_done_eject (eject : ∃ reject, x.msg = .eject reject) : x.goodAs .done = some .done := by
  obtain ⟨reject, eject⟩ := eject
  exact if_pos (by rw [eject]; rfl)

theorem State.Encoding.takeImage_reading (open_ : s.Encoding x .reading o) (c : List Byte) :
    s.takeAnswer o (.image c) = s.encAnswered.cardFound o (some c) :=
  congrArg (fun stage => takeImage c stage o s.encAnswered) open_.2.1

theorem State.Encoding.takeReadFail_reading (open_ : s.Encoding x .reading o) : s.takeAnswer o .readFail = s.encAnswered.cardFound o none :=
  congrArg (fun stage => takeReadFail stage o s.encAnswered) open_.2.1

theorem State.Encoding.takeImage_same {n : Nat} (open_ : s.Encoding x (.verifying n) o) :
    s.takeAnswer o (.image o.image) = s.encAnswered.verified o :=
  (congrArg (fun stage => takeImage o.image stage o s.encAnswered) open_.2.1).trans (if_pos rfl)

theorem State.Encoding.takeDone (open_ : s.Encoding x g o) : s.takeAnswer o .done = takeDone g o s.encAnswered :=
  congrArg (fun stage => Machine.takeDone stage o s.encAnswered) open_.2.1

end

theorem State.encAnswered_books (s : State) : s.encAnswered.books = s.books := rfl

end Sys2Proof.Machine

namespace Sys2Proof.Machine

open Sys2Proof

/-! ## A copy record (R21 to R23) -/

/-- A copy record taken: room `r` is `z`, its minibar `m`, and at most the entry of a changed room state has been asked for. -/
structure State.Recorded (s w : State) (r : Fin 48) (z : Room) (m : Minibar) : Prop where
  rooms : w.rooms = s.rooms.set r z
  minibars : w.minibars = s.minibars.set r m
  serial : w.serial = s.serial
  logs : ∃ qs, qs.length ≤ 1 ∧ s.Logs w qs

theorem Minibar.startStay_eq (m : Minibar) :
    m.startStay =
      { m with
        carried := 0, charge := 0, saturated := false, overStock := false, stayMark := false
        trays := m.trays.map fun y : Tray => { y with base := y.taken } } := by
  have applied := Minibar.applyMark_eq { m with stayMark := true }
  unfold Minibar.applyMark Minibar.marked at applied
  rw [if_pos rfl, if_pos rfl] at applied
  rw [Minibar.startStay, Minibar.recharge_eq] at applied ⊢
  exact applied

/-- A minibar's record at a stay start (R120). -/
def Minibar.told (m : Minibar) : Minibar :=
  if m.state = .offline ∨ m.state = .locked then
    { m with
      carried := 0, charge := 0, saturated := false, overStock := false, stayMark := false
      trays := m.trays.map fun y : Tray => { y with base := y.taken } }
  else { m with stayMark := true }

theorem State.stayStarts_eq (s : State) (r : Fin 48) : s.stayStarts r = s.putMinibar r s.minibars[r].told := by
  unfold State.stayStarts Minibar.told
  dsimp only
  rw [← Minibar.startStay_eq]
  cases s.minibars[r].state <;> rfl

section
variable {s : State} {r : Fin 48} {generation copy untilMinute : Nat} {mode : IssueMode}

theorem State.putRoom_recorded (s : State) (r : Fin 48) (z : Room) : s.Recorded (s.putRoom r z) r z s.minibars[r] := by
  obtain ⟨m, k, e⟩ := s.putRoom_changes r z
  rw [e]
  exact ⟨rfl, (Vector.set_getElem_self _).symm, rfl, [], Nat.zero_le 1, .nil rfl⟩

theorem State.moveRoom_recorded (s : State) (r : Fin 48) (z : Room) (flag : Bool) : s.Recorded (s.moveRoom r z flag) r z s.minibars[r] := by
  have records := s.moveRoom_records r z flag
  exact ⟨(State.records_rooms records :), ((State.records_minibars records :)).trans (Vector.set_getElem_self _).symm,
    (congrArg State.serial records :), [_], le_rfl, (s.reports_moveRoom r z flag).logs⟩

theorem State.recordCopy_refused
    (no : generation ≠ s.rooms[r].generation ∨ (s.rooms[r].state = .vacant ∧ mode ≠ .newStay) ∨ s.rooms[r].state = .departing ∨
      s.rooms[r].state = .unused ∨ s.rooms[r].state = .outOfService) : s.recordCopy r generation copy untilMinute mode = none := by
  unfold State.recordCopy
  dsimp only
  by_cases old : generation ≠ s.rooms[r].generation
  · exact if_pos old
  · rw [if_neg old]
    rcases no.resolve_left old with ⟨state, other⟩ | state | state | state <;> rw [state]
    exact if_neg other

theorem State.recordCopy_occupied (same : generation = s.rooms[r].generation) (occupied : s.rooms[r].state = .occupied) :
    s.recordCopy r generation copy untilMinute mode = some (s.putRoom r (s.rooms[r].withCopy copy untilMinute)) := by
  unfold State.recordCopy
  dsimp only
  rw [if_neg (not_not_intro same), occupied]

theorem State.recordCopy_overstay (same : generation = s.rooms[r].generation) (overstay : s.rooms[r].state = .overstay) :
    s.recordCopy r generation copy untilMinute mode =
      if s.clock.isSet ∧ s.now < max s.rooms[r].stayUntil untilMinute + s.site.checkoutGrace then
        some (s.moveRoom r { s.rooms[r].withCopy copy untilMinute with state := .occupied } false)
      else some (s.putRoom r (s.rooms[r].withCopy copy untilMinute)) := by
  unfold State.recordCopy
  dsimp only
  rw [if_neg (not_not_intro same), overstay]
  rfl

/-- The first copy of a NEW_STAY: the stay starts, and the minibar is told of it (R22, R120). -/
theorem State.recordCopy_vacant (same : generation = s.rooms[r].generation) (vacant : s.rooms[r].state = .vacant) :
    ∃ w, s.recordCopy r generation copy untilMinute .newStay = some w ∧
      s.Recorded w r (s.rooms[r].stayStarted copy untilMinute) s.minibars[r].told := by
  refine ⟨((s.putRoom r (s.rooms[r].stayStarted copy untilMinute)).stayStarts r).admitRequest
    (roomStateRequest r (s.rooms[r].stayStarted copy untilMinute) .vacant false), ?_, ?_⟩
  · unfold State.recordCopy
    dsimp only
    rw [if_neg (not_not_intro same), vacant]
    exact if_pos rfl
  · generalize roomStateRequest r (s.rooms[r].stayStarted copy untilMinute) .vacant false = q
    have put := s.putRoom_records r (s.rooms[r].stayStarted copy untilMinute)
    have books := (s.reports_putRoom r (s.rooms[r].stayStarted copy untilMinute)).logs
    generalize s.putRoom r (s.rooms[r].stayStarted copy untilMinute) = v at *
    have minibars : v.minibars = s.minibars := (State.records_minibars put :)
    rw [State.stayStarts_eq, minibars]
    have told := v.putMinibar_records r s.minibars[r].told
    have told_books := (v.reports_putMinibar r s.minibars[r].told).logs
    generalize v.putMinibar r s.minibars[r].told = w at *
    have asked := w.admitRequest_records q
    refine ⟨?_, ?_, ?_, [q], le_rfl, (books.trans told_books).trans (w.logs_admitRequest q)⟩
    · rw [State.records_rooms asked, State.records_rooms told]
      exact (State.records_rooms put :)
    · rw [State.records_minibars asked, State.records_minibars told, ← minibars]
    · exact (congrArg State.serial (asked.trans told) :).trans (congrArg State.serial put :)

end

end Sys2Proof.Machine

namespace Sys2Proof.Machine

open Sys2Proof

/-! ## A verified card (R93, R95, R99) -/

theorem exec_image (bytes : List Byte) (s : State) : exec (.image bytes) s = .next (s.encReply (.image bytes)) := rfl

theorem exec_done (s : State) : exec .done s = .next (s.encReply .done) := rfl

/-- The entry a verified ISSUE card asks for (R100). -/
def EncOrder.issuedRequest (o : EncOrder) : Request :=
  { kind := .cardIssued, room := o.entryRoom, reason := cardClass o.image, subject := cardSerial o.image
    value := cardGeneration o.image * 256 + cardCopy o.image }

theorem State.cardIssued_eq (s : State) (o : EncOrder) :
    s.cardIssued o = (s.admitRequest o.issuedRequest).send o.issued .working (.eject false) .ejectVerified := rfl

theorem EncOrder.issued_firstSerial (o : EncOrder) : o.issued.firstSerial = some (o.firstSerial.getD (cardSerial o.image)) := by
  unfold EncOrder.issued
  cases o.firstSerial <;> rfl

theorem State.Logs.issuedEntered {s w u : State} {o : EncOrder} {qs : List Request} (logs : s.Logs w qs) (few : qs.length ≤ 1) (journal : u.journal = (w.admitRequest o.issuedRequest).journal) (room : s.HasRoom 2) :
    ∃ e ∈ u.journal.queue, e.kind = .cardIssued ∧ e.room = o.entryRoom ∧ e.subject = cardSerial o.image := by
  have all : s.Logs (w.admitRequest o.issuedRequest) ((qs ++ [o.issuedRequest]) ++ []) := by
    rw [List.append_nil]
    exact logs.trans (w.logs_admitRequest _)
  obtain ⟨k, mem⟩ := all.holds room (by rw [List.length_append]; exact Nat.succ_le_succ few) (List.mem_append_right _ List.mem_cons_self)
  exact ⟨_, journal ▸ mem, rfl, rfl, rfl⟩

section
variable {s w : State} {x : EncExchange} {o : EncOrder} {n : Nat} {r : Fin 48} {mode : IssueMode}

theorem State.verified_taken {v : State} (job : o.job = .issue mode) (room : o.room = some r)
    (taken : v.recordCopy r (o.generation.getD 0) o.copy o.validUntil mode = some w) : v.verified o = w.cardIssued o := by
  unfold State.verified
  rw [job, room]
  dsimp only
  rw [taken]

theorem State.verified_refused {v : State} (job : o.job = .issue mode) (room : o.room = some r)
    (refused : v.recordCopy r (o.generation.getD 0) o.copy o.validUntil mode = none) :
    v.verified o = v.spoil { o with unfinished := none } 2 := by
  unfold State.verified
  rw [job, room]
  dsimp only
  rw [refused]

/-- A verified GUEST card whose copy record is taken. -/
theorem State.Encoding.recorded (open_ : s.Encoding x (.verifying n) o) (read : x.msg = .read) (job : o.job = .issue mode)
    (room : o.room = some r) (full : o.image.length = 20) {z : Room} {m : Minibar}
    (taken : s.encAnswered.recordCopy r (o.generation.getD 0) o.copy o.validUntil mode = some w) (record : s.encAnswered.Recorded w r z m) :
    ∃ t p, exec (.image o.image) s = .next t ∧ t.rooms = s.rooms.set r z ∧ t.minibars = s.minibars.set r m ∧
      t.Sending (.eject false) .ejectVerified p ∧ p.cardsDone = o.cardsDone + 1 ∧ p.unfinished = none ∧
      p.lastSerial = some (cardSerial o.image) ∧ p.copies = o.copies ||| copyBit o.copy ∧ t.serial = s.serial ∧
      (s.HasRoom 2 → ∃ e ∈ t.journal.queue, e.kind = .cardIssued ∧ e.room = r.val ∧ e.subject = cardSerial o.image) := by
  obtain ⟨rooms, minibars, serial, qs, few, logs⟩ := record
  have run := open_.takeImage_same.trans (State.verified_taken job room taken)
  have sent := open_.sent (EncExchange.goodAs_image read full) (run.trans (w.cardIssued_eq o))
  have asked := w.admitRequest_records o.issuedRequest
  have entryRoom : o.entryRoom = r.val := by rw [EncOrder.entryRoom, room]; rfl
  refine ⟨_, _, exec_image _ s, ?_, ?_, sent.sending, rfl, rfl, rfl, ?_, ?_, fun space => ?_⟩
  · exact sent.rooms.trans ((State.records_rooms asked).trans rooms)
  · exact sent.minibars.trans ((State.records_minibars asked).trans minibars)
  · exact if_pos (by rw [room]; rfl)
  · exact sent.serial.trans ((congrArg State.serial asked :).trans serial)
  · rw [← entryRoom]
    exact (State.Logs.nil_trans s.encAnswered_books logs).issuedEntered few sent.journal space

/-- A STAFF card asks for no record. -/
theorem State.Encoding.staffIssued (open_ : s.Encoding x (.verifying n) o) (read : x.msg = .read) (job : o.job = .issue .staff)
    (room : o.room = none) (full : o.image.length = 20) :
    (s.encAnswered.admitRequest o.issuedRequest).Sent (s.encReply (.image o.image)) (.eject false) .ejectVerified o.issued := by
  refine open_.sent (EncExchange.goodAs_image read full) (open_.takeImage_same.trans ?_)
  unfold State.verified
  rw [job, room]
  exact State.cardIssued_eq _ o

theorem State.Encoding.erased (open_ : s.Encoding x (.verifying n) o) (read : x.msg = .read) (job : o.job = .eraseCard)
    (full : o.image.length = 20) : s.encAnswered.Sent (s.encReply (.image o.image)) (.eject false) .ejectVerified { o with cardsDone := 1 } := by
  refine open_.sent (EncExchange.goodAs_image read full) (open_.takeImage_same.trans ?_)
  unfold State.verified
  rw [job]

theorem State.Encoding.spoiled (open_ : s.Encoding x (.verifying n) o) (read : x.msg = .read) (job : o.job = .issue mode)
    (room : o.room = some r) (full : o.image.length = 20)
    (refused : s.encAnswered.recordCopy r (o.generation.getD 0) o.copy o.validUntil mode = none) :
    s.encAnswered.Sent (s.encReply (.image o.image)) (.write (List.replicate 20 0xEE)) (.spoilWrite 2) { o with unfinished := none } :=
  open_.sent (EncExchange.goodAs_image read full) (open_.takeImage_same.trans (State.verified_refused job room refused))

theorem State.endOrder_endedWith (v : State) (o : EncOrder) (res : Result) : (v.endOrder o res).EndedWith o.block res (v.encData o res) := by
  have done := v.complete_endedWith o.block res (v.encData o res)
  unfold State.endOrder
  generalize v.complete o.block res (v.encData o res) = u at *
  exact done.congr (fun _ _ => rfl) done.1.2.2.1 id

theorem State.endOrder_keeps (v : State) (o : EncOrder) (res : Result) :
    (v.endOrder o res).encoder = v.encoder.free ∧ (v.endOrder o res).rooms = v.rooms ∧ (v.endOrder o res).revs = v.revs ∧
      (v.endOrder o res).books = v.books := ⟨rfl, rfl, rfl, rfl⟩

theorem cardSerial_lt (c : List Byte) : cardSerial c < 256 ^ 4 := by
  have small := leNat_lt (bytesAt c 6 4).reverse
  rwa [List.length_reverse, show (bytesAt c 6 4).length = 4 from rfl] at small

/-- The entry an erased card asks for (R100). -/
def EncOrder.erasedRequest (o : EncOrder) : Request :=
  { kind := .cardErased, room := o.erasedRoom, reason := flagBit o.force, subject := o.foundSerial
    value := (o.found.map cardGeneration).getD 0 * 256 + (o.found.map cardCopy).getD 0 }

theorem State.verifiedEjected_erase {v : State} (job : o.job = .eraseCard) (alone : v.encoder.waiting = []) :
    v.verifiedEjected o = (v.admitRequest o.erasedRequest).endOrder o .ok := by
  have waiting : (v.admitRequest o.erasedRequest).encoder.waiting = [] := by
    rw [State.records_encoder (v.admitRequest_records _)]
    exact alone
  unfold State.verifiedEjected
  rw [job]
  exact State.finishOrder_alone _ o .ok waiting

theorem State.encData_erase {v : State} (job : o.job = .eraseCard) :
    v.encData o .ok = leBytes 4 o.foundSerial ++ [byteOf (flagBit o.force)] := by
  unfold State.encData
  rw [job]
  rfl

/-- The result of an ERASE_CARD: the old serial and the FORCE flag (R99). -/
theorem State.EndedWith.erase {t : State} {b : Fin 16} (h : t.EndedWith b .ok (leBytes 4 o.foundSerial ++ [byteOf (flagBit o.force)])) :
    t.resultAt b 0 4 = o.foundSerial ∧ t.resultAt b 4 1 = flagBit o.force := by
  have serial : o.foundSerial < 256 ^ 4 := by
    unfold EncOrder.foundSerial
    cases o.found with
    | none => decide
    | some c => exact cardSerial_lt c
  refine ⟨(h.2 0 4 (by simp) (by decide)).trans ?_, (h.2 4 1 (by simp) (by decide)).trans ?_⟩
  · rw [List.drop_zero, List.take_left' (leBytes_length 4 _), leNat_leBytes]
    exact Nat.mod_eq_of_lt serial
  · rw [List.drop_left' (leBytes_length 4 _)]
    cases o.force <;> rfl

/-- The EJECT OUT of an erased card has ended: CARD_ERASED, and OK (R99, R100). -/
theorem State.Encoding.eraseEnds (open_ : s.Encoding x .ejectVerified o) (eject : ∃ reject, x.msg = .eject reject) (job : o.job = .eraseCard)
    (alone : s.encoder.waiting = []) :
    ∃ t, exec .done s = .next t ∧ t.Ended o.block .ok ∧ t.resultAt o.block 0 4 = o.foundSerial ∧ t.resultAt o.block 4 1 = flagBit o.force ∧
      t.encoder.running = none ∧ t.encoder.state = .idle ∧ t.rooms = s.rooms ∧ t.revs = s.revs ∧ s.Asks t o.erasedRequest := by
  have answered : s.takeAnswer o .done = s.encAnswered.verifiedEjected o := open_.takeDone
  rw [State.verifiedEjected_erase (v := s.encAnswered) job alone] at answered
  have records := s.encAnswered.admitRequest_records o.erasedRequest
  have logs := s.encAnswered.logs_admitRequest o.erasedRequest
  generalize s.encAnswered.admitRequest o.erasedRequest = v at *
  have ended := v.endOrder_endedWith o .ok
  rw [State.encData_erase job, ← answered] at ended
  obtain ⟨m, k, step⟩ := s.encoderStep_changes fun u => u.takeAnswer o .done
  have ended := State.EndedWith.encoderStep (f := fun u => u.takeAnswer o .done) ended
  rw [exec_done, open_.encReply (EncExchange.goodAs_done_eject eject)]
  rw [answered] at step
  obtain ⟨encoder, rooms, revs, books⟩ := v.endOrder_keeps o .ok
  generalize v.endOrder o .ok = e at *
  have seen := congrArg State.encoder step
  have books : (s.encoderStep fun u => u.takeAnswer o .done).books = v.books := (congrArg State.books step).trans books
  obtain ⟨serial, force⟩ := ended.erase
  refine ⟨_, rfl, ended.1, serial, force, ?_, ?_, ?_, ?_, ((State.Logs.nil_trans s.encAnswered_books logs).trans_nil books).asks⟩
  · rw [seen, encoder]
    rfl
  · rw [seen, encoder]
    rfl
  · exact (congrArg State.rooms step).trans (rooms.trans (State.records_rooms records :))
  · exact (congrArg State.revs step).trans (revs.trans (State.records_revs records :))

end

theorem Clock.isSet_ne (c : Clock) : c.isSet = true ↔ c.state ≠ .notSet := bne_iff_ne

/-- Settles O37, by the stage in which the encoder's answer finds the order and, for a GUEST card, by its room's state. -/
theorem verifiedCardIsRecorded : Obligations.VerifiedCardIsRecorded := by
  unfold Obligations.VerifiedCardIsRecorded
  intro s x o n
  refine ⟨fun open_ write => ?_, fun open_ read job room full => ?_, fun open_ read job full => ?_, fun open_ eject job alone => ?_,
    fun r mode open_ read job room full => ?_⟩
  · have sent := open_.sent (EncExchange.goodAs_done_write write) open_.takeDone
    exact ⟨_, exec_done s, sent.sending, sent.rooms, sent.journal⟩
  · have sent := open_.staffIssued read job room full
    have records := s.encAnswered.admitRequest_records o.issuedRequest
    have logs := (State.Logs.nil_trans s.encAnswered_books (s.encAnswered.logs_admitRequest o.issuedRequest)).asks
    refine ⟨_, _, exec_image _ s, sent.rooms.trans (State.records_rooms records :), sent.minibars.trans (State.records_minibars records :),
      sent.revs.trans (State.records_revs records :), sent.sending, rfl, rfl, rfl, rfl, o.issued_firstSerial, ?_, ?_⟩
    · exact if_neg (by rw [room]; nofun)
    · have request : o.issuedRequest = { kind := .cardIssued, room := 255, reason := cardClass o.image, subject := cardSerial o.image
                                         value := cardGeneration o.image * 256 + cardCopy o.image } := by
        rw [EncOrder.issuedRequest, EncOrder.entryRoom, room]
        rfl
      rw [← request]
      unfold State.Asks
      rw [sent.journal]
      exact logs
  · have sent := open_.erased read job full
    exact ⟨_, exec_image _ s, sent.sending, sent.rooms, sent.journal⟩
  · exact open_.eraseEnds eject job alone
  · intro y m recorded
    have given (generation : o.generation = some y.generation) : o.generation.getD 0 = s.encAnswered.rooms[r].generation := by
      rw [generation]
      rfl
    have taken {w : State} {z : Room} {k : Minibar} := open_.recorded (w := w) (z := z) (m := k) read job room full
    refine ⟨fun vacant newStay generation => ?_, fun occupied generation => ?_, fun overstay generation => ?_, fun no => ?_⟩
    · subst newStay
      obtain ⟨w, took, record⟩ := State.recordCopy_vacant (s := s.encAnswered) (copy := o.copy) (untilMinute := o.validUntil) (given generation) vacant
      exact taken took record
    · exact taken (State.recordCopy_occupied (given generation) occupied) (State.putRoom_recorded _ r _)
    · have took := State.recordCopy_overstay (s := s.encAnswered) (copy := o.copy) (untilMinute := o.validUntil) (mode := mode)
        (given generation) overstay
      refine ⟨fun ahead => ?_, fun late => ?_⟩
      · exact taken (took.trans (if_pos ⟨s.clock.isSet_ne.2 ahead.1, ahead.2⟩)) (State.moveRoom_recorded _ r _ false)
      · exact taken (took.trans (if_neg fun ahead => late ⟨s.clock.isSet_ne.1 ahead.1, ahead.2⟩)) (State.putRoom_recorded _ r _)
    · have refused : s.encAnswered.recordCopy r (o.generation.getD 0) o.copy o.validUntil mode = none := by
        refine State.recordCopy_refused (no.imp (fun ⟨other, some_⟩ same => other ?_) id)
        obtain ⟨g, generation⟩ := Option.isSome_iff_exists.1 some_
        rw [generation] at same ⊢
        exact congrArg some same
      have sent := open_.spoiled read job room full refused
      exact ⟨_, exec_image _ s, sent.rooms, sent.journal, sent.sending⟩

end Sys2Proof.Machine

namespace Sys2Proof.Machine

open Sys2Proof

/-! ## The room's record and the copy as a card arrives (R88, R91) -/

section
variable {s : State} {o : EncOrder} {r : Fin 48} {mode : IssueMode}

theorem State.roomMeets_iff (job : o.job = .issue mode) (room : o.room = some r) : s.roomMeets o ↔ s.rooms[r].meets o mode := by
  refine ⟨fun h => h mode r job room, fun h mode' r' job' room' => ?_⟩
  cases job.symm.trans job'
  cases room.symm.trans room'
  exact h

theorem State.roomFits_newStay (job : o.job = .issue .newStay) (room : o.room = some r) (advanced : o.advanced = true) :
    (s.roomMeets o → s.roomFits o = some o.generation) ∧ (¬ s.roomMeets o → s.roomFits o = none) := by
  have fits : s.roomMeets o ↔
      o.generation = some s.rooms[r].generation ∧ if o.cardsDone = 0 then s.rooms[r].state = .vacant else s.rooms[r].state.inStay = true := by
    rw [State.roomMeets_iff job room]
    by_cases first : o.cardsDone = 0
    · rw [if_pos first]
      exact ⟨fun h => ⟨(h advanced).1, (h advanced).2.1 first⟩, fun h _ => ⟨h.1, fun _ => h.2, fun later => absurd first later⟩⟩
    · rw [if_neg first, RoomState.inStay_iff]
      exact ⟨fun h => ⟨(h advanced).1, (h advanced).2.2 first⟩, fun h _ => ⟨h.1, fun zero => absurd zero first, fun _ => h.2⟩⟩
  rw [fits]
  unfold State.roomFits
  rw [job, room]
  dsimp only
  rw [advanced]
  exact ⟨fun h => if_pos h, fun h => if_neg h⟩

theorem State.roomFits_inStay (job : o.job = .issue mode) (stay : mode = .addCopy ∨ mode = .rewrite) (room : o.room = some r) :
    (s.roomMeets o → s.roomFits o = some (some s.rooms[r].generation)) ∧ (¬ s.roomMeets o → s.roomFits o = none) := by
  have fits : s.roomMeets o ↔ s.rooms[r].state.inStay = true ∧ (o.generation.isNone = true ∨ o.generation = some s.rooms[r].generation) := by
    rw [State.roomMeets_iff job room, RoomState.inStay_iff, Option.isNone_iff_eq_none]
    rcases stay with rfl | rfl <;> rfl
  rw [fits]
  unfold State.roomFits
  rcases stay with rfl | rfl
  all_goals
    rw [job, room]
    exact ⟨fun h => if_pos h, fun h => if_neg h⟩

theorem lowestFreeCopy_some {mask : Byte} {k : Nat} (low : 1 ≤ k) (high : k ≤ 8) (free : copyIn mask k = false)
    (below : ∀ j, 1 ≤ j → j < k → copyIn mask j = true) : lowestFreeCopy mask = some k := by
  have split : (List.range 8).map (· + 1) = List.range' 1 (k - 1) ++ k :: List.range' (k + 1) (8 - k) := by
    obtain ⟨n, rfl⟩ := Nat.exists_eq_add_of_le' low
    have few : n ≤ 7 := by omega
    clear free below low high
    revert n
    decide
  unfold lowestFreeCopy
  rw [split, List.find?_append, List.find?_eq_none.2 fun j mem => ?_]
  · rw [List.find?_cons_of_pos (by rw [free]; rfl)]
    rfl
  · obtain ⟨first, last⟩ := List.mem_range'_1.1 mem
    rw [below j first (by omega)]
    nofun

theorem lowestFreeCopy_none {mask : Byte} (full : ∀ k, 1 ≤ k → k ≤ 8 → copyIn mask k = true) : lowestFreeCopy mask = none := by
  refine List.find?_eq_none.2 fun k mem => ?_
  obtain ⟨i, range, rfl⟩ := List.mem_map.1 mem
  have := List.mem_range.1 range
  rw [full _ (by omega) (by omega)]
  nofun

theorem State.copyFor_addCopy (job : o.job = .issue .addCopy) (room : o.room = some r) :
    s.copyFor o true = if copyIn s.rooms[r].issued o.copy = false then some o.copy else lowestFreeCopy s.rooms[r].issued := by
  unfold State.copyFor
  rw [job, room]
  dsimp only
  cases copyIn s.rooms[r].issued o.copy <;> rfl

theorem State.cardStart_error {keep : Bool} (misfit : s.roomFits o = none) : s.cardStart o keep = .error .roomState := by
  unfold State.cardStart
  rw [misfit]

theorem State.cardStart_full {keep : Bool} {g : Option Nat} (fits : s.roomFits o = some g) (full : s.copyFor o keep = none) :
    s.cardStart o keep = .error .noCopy := by
  unfold State.cardStart
  rw [fits]
  dsimp only
  rw [full]

theorem State.cardStart_ok {keep : Bool} {g : Option Nat} {c : Nat} (fits : s.roomFits o = some g) (copy : s.copyFor o keep = some c) :
    s.cardStart o keep = .ok { o with generation := g, copy := c } := by
  unfold State.cardStart
  rw [fits]
  dsimp only
  rw [copy]

/-! ## A card taken for an ISSUE (R91) -/

theorem State.cardArrived_advances (job : o.job = .issue .newStay) (room : o.room = some r) (first : o.advanced = false)
    (vacant : s.rooms[r].state = .vacant) :
    s.cardArrived o =
      (s.advance r id).buildAndWrite { o with generation := some ((s.rooms[r].generation + 1) % 256), advanced := true } := by
  have generation : (s.advance r id).rooms[r].generation = (s.rooms[r].generation + 1) % 256 :=
    congrArg Room.generation (vector_set_same _ _ _)
  rw [← generation]
  unfold State.cardArrived State.askAdvance
  rw [job, room, first]
  dsimp only
  rw [if_pos vacant]

theorem State.cardArrived_occupied (job : o.job = .issue .newStay) (room : o.room = some r) (first : o.advanced = false)
    (taken : s.rooms[r].state ≠ .vacant) : s.cardArrived o = s.ejectAndEnd o .roomState := by
  unfold State.cardArrived State.askAdvance
  rw [job, room, first]
  dsimp only
  rw [if_neg taken]

/-- The other cards of an ISSUE meet the room's record again. -/
theorem State.cardArrived_again (later : o.job = .issue .newStay → o.advanced = true) :
    s.cardArrived o =
      match s.cardStart o true with
      | .error res => s.ejectAndEnd o res
      | .ok p => s.buildAndWrite p := by
  unfold State.cardArrived
  split
  · rename_i job _ advanced
    exact absurd (later job) (by rw [advanced]; nofun)
  · rfl

theorem State.cardArrived_refused (later : o.job = .issue .newStay → o.advanced = true) {res : Result} (refused : s.cardStart o true = .error res) :
    s.cardArrived o = s.ejectAndEnd o res := by
  rw [State.cardArrived_again later, refused]

theorem State.cardArrived_builds (later : o.job = .issue .newStay → o.advanced = true) {p : EncOrder} (starts : s.cardStart o true = .ok p) :
    s.cardArrived o = s.buildAndWrite p := by
  rw [State.cardArrived_again later, starts]

end

end Sys2Proof.Machine

namespace Sys2Proof.Machine

open Sys2Proof

/-! ## What follows a card that has been read (R90 to R92) -/

theorem exec_readFail (s : State) : exec .readFail s = .next (s.encReply .readFail) := rfl

/-- The records a card at the encoder may reach are kept. -/
def State.KeepsCards (s t : State) : Prop :=
  t.rooms = s.rooms ∧ t.revs = s.revs ∧ t.minibars = s.minibars ∧ t.held = s.held ∧ t.journal = s.journal

/-- The card is ejected OUT and the order is to end with a result. -/
def State.Ejects (s : State) (c : Instr) (p : EncOrder) (res : Result) (rest : State → Prop) : Prop :=
  ∃ t, exec c s = .next t ∧ t.Sending (.eject false) (.ejectEnd res) p ∧ t.serial = s.serial ∧ rest t

/-- The window of an order has been reached (R92). -/
def State.late (s : State) (p : EncOrder) : Prop := s.clock.state ≠ .notSet ∧ p.validUntil ≤ s.clock.minute

/-- The window test, the serial, and the image written (R92). -/
def State.Builds (s : State) (c : Instr) (p : EncOrder) (rest : State → Prop) : Prop :=
  (s.late p → s.Ejects c p .badParam rest) ∧ (¬ s.late p → 0xFFFFFFFF ≤ s.serial → s.Ejects c p .serialsExhausted rest) ∧
  (¬ s.late p → s.serial < 0xFFFFFFFF →
    let image := s.buildImage p s.serial
    ∃ t, exec c s = .next t ∧ t.Sending (.write image) (.writing 1) { p with unfinished := some s.serial, image := image } ∧
      t.encoder.state = .working ∧ t.serial = s.serial + 1 ∧ rest t)

/-- A command brings the card `found` to an order that reads: what `cardFound` sends is sent. -/
def State.Finds (s : State) (c : Instr) (o : EncOrder) (found : Option (List Byte)) : Prop :=
  ∀ (u : State) (p : EncOrder) (msg : EncMsg) (stage : Stage), s.encAnswered.cardFound o found = u.send p .working msg stage →
    ∃ t, exec c s = .next t ∧ u.Sent t msg stage p

section
variable {s u : State} {x : EncExchange} {o p : EncOrder} {c : Instr} {found : Option (List Byte)} {rest : State → Prop}

theorem State.Encoding.finds_image (open_ : s.Encoding x .reading o) (read : x.msg = .read) {image : List Byte} (full : image.length = 20) :
    s.Finds (.image image) o (some image) := fun _ _ _ _ run =>
  ⟨_, exec_image image s, open_.sent (EncExchange.goodAs_image read full) ((open_.takeImage_reading image).trans run)⟩

theorem State.Encoding.finds_none (open_ : s.Encoding x .reading o) (read : x.msg = .read) : s.Finds .readFail o none := fun _ _ _ _ run =>
  ⟨_, exec_readFail s, open_.sent (EncExchange.goodAs_readFail read) (open_.takeReadFail_reading.trans run)⟩

theorem State.Sent.keeps {t : State} {msg : EncMsg} {stage : Stage} (sent : u.Sent t msg stage p) : u.KeepsCards t :=
  ⟨sent.rooms, sent.revs, sent.minibars, sent.held, sent.journal⟩

theorem State.Finds.ejects (finds : s.Finds c o found) {res : Result} (run : s.encAnswered.cardFound o found = u.ejectAndEnd p res)
    (serial : u.serial = s.serial) (kept : ∀ t, u.KeepsCards t → rest t) : s.Ejects c p res rest := by
  obtain ⟨t, step, sent⟩ := finds u p _ _ run
  exact ⟨t, step, sent.sending, sent.serial.trans serial, kept t sent.keeps⟩

theorem State.takeSerial_some (below : u.serial < 0xFFFFFFFF) : u.takeSerial = some (u.serial, u.putSerial (u.serial + 1)) := if_pos below

theorem State.takeSerial_none (last : 0xFFFFFFFF ≤ u.serial) : u.takeSerial = none := if_neg (Nat.not_lt.2 last)

theorem State.Finds.builds (finds : s.Finds c o found) (run : s.encAnswered.cardFound o found = u.buildAndWrite p) (clock : u.clock = s.clock)
    (site : u.site = s.site) (serial : u.serial = s.serial) (kept : ∀ t, u.KeepsCards t → rest t) : s.Builds c p rest := by
  have past : (u.clock.isSet ∧ p.validUntil ≤ u.now) ↔ s.late p := by
    unfold State.late State.now
    rw [clock, Clock.isSet_ne]
  unfold State.buildAndWrite at run
  refine ⟨fun late => ?_, fun inTime last => ?_, fun inTime below => ?_⟩
  · rw [if_pos (past.2 late)] at run
    exact finds.ejects run serial kept
  · rw [if_neg (mt past.1 inTime), State.takeSerial_none (serial ▸ last)] at run
    exact finds.ejects run serial kept
  · rw [if_neg (mt past.1 inTime), State.takeSerial_some (serial ▸ below), serial] at run
    have image : (u.putSerial (s.serial + 1)).buildImage p s.serial = s.buildImage p s.serial := by
      unfold State.buildImage
      rw [State.putSerial_site, site]
    dsimp only at run
    rw [image] at run
    obtain ⟨t, step, sent⟩ := finds _ _ _ _ run
    refine ⟨t, step, sent.sending, sent.working, sent.serial, kept t ?_⟩
    exact sent.keeps

/-! ### The card is tested (R90) -/

theorem State.cardFound_refused {v : State} {res : Result} (refused : v.cardRefused o found = some res) :
    v.cardFound o found = v.ejectAndEnd { o with found := found } res := by
  have tested : v.cardRefused { o with found := found } found = some res := refused
  unfold State.cardFound
  dsimp only
  rw [tested]

theorem State.cardFound_issue {v : State} {mode : IssueMode} (job : o.job = .issue mode) (other : mode ≠ .rewrite)
    (taken : v.cardRefused o found = none) : v.cardFound o found = v.cardArrived { o with found := found } := by
  have tested : v.cardRefused { o with found := found } found = none := taken
  unfold State.cardFound
  dsimp only
  rw [tested, job]
  cases mode with
  | rewrite => exact absurd rfl other
  | newStay => rfl
  | addCopy => rfl
  | staff => rfl

theorem State.cardFound_rewrite {v : State} (job : o.job = .issue .rewrite) (taken : v.cardRefused o found = none) :
    v.cardFound o found = v.cardArrived { o with found := found, copy := (found.map cardCopy).getD 0 } := by
  have tested : v.cardRefused { o with found := found } found = none := taken
  unfold State.cardFound
  dsimp only
  rw [tested, job]

theorem State.cardFound_erase {v : State} (job : o.job = .eraseCard) (taken : v.cardRefused o found = none) :
    v.cardFound o found = v.writeAttempt { o with found := found, image := blankImage } 1 := by
  have tested : v.cardRefused { o with found := found } found = none := taken
  unfold State.cardFound
  dsimp only
  rw [tested, job]

theorem State.cardFound_read {v : State} (job : o.job = .readCard) (taken : v.cardRefused o found = none) :
    v.cardFound o found = v.ejectAndEnd { o with found := found, readData := v.readCardData found, cardsDone := 1 } .ok := by
  have tested : v.cardRefused { o with found := found } found = none := taken
  unfold State.cardFound
  dsimp only
  rw [tested, job]

/-- The card found is in use (R90); an unreadable card is not. -/
def State.usedCard (v : State) : Option (List Byte) → Bool
  | none => false
  | some c => v.cardInUse c

theorem State.cardRefused_issue {v : State} {mode : IssueMode} (job : o.job = .issue mode) (other : mode ≠ .rewrite) :
    v.cardRefused o found = if v.usedCard found then some .cardInUse else none := by
  unfold State.cardRefused
  rw [job]
  cases mode with
  | rewrite => exact absurd rfl other
  | newStay => cases found <;> rfl
  | addCopy => cases found <;> rfl
  | staff => cases found <;> rfl

theorem State.cardRefused_erase {v : State} (job : o.job = .eraseCard) :
    v.cardRefused o found = if v.usedCard found && !o.force then some .cardInUse else none := by
  unfold State.cardRefused
  rw [job]
  cases found <;> rfl

theorem State.cardRefused_read {v : State} (job : o.job = .readCard) : v.cardRefused o found = none := by
  unfold State.cardRefused
  rw [job]

theorem State.cardRefused_rewrite {v : State} {r : Fin 48} (job : o.job = .issue .rewrite) (room : o.room = some r) (image : List Byte) :
    v.cardRefused o (some image) = if v.currentCardOf r image then none else some .wrongCard := by
  unfold State.cardRefused
  rw [job, room]

theorem State.cardRefused_unreadable {v : State} {r : Fin 48} (job : o.job = .issue .rewrite) (room : o.room = some r) :
    v.cardRefused o none = some .wrongCard := by
  unfold State.cardRefused
  rw [job, room]

end

end Sys2Proof.Machine

namespace Sys2Proof.Machine

open Sys2Proof

/-! ## The test of a readable card (R90, R98) -/

section
variable {s : State} {c : List Byte}

theorem State.verdict_good (good : evaluate s.site s.clock s.revs c = none) : ∃ cls : CardClass, s.verdict c = .ok cls ∧ cls.code = cardClass c := by
  obtain ⟨cls, code⟩ := evaluate_none good
  refine ⟨cls, ?_, CardClass.code_of code⟩
  unfold State.verdict
  rw [good]
  dsimp only
  rw [code]

theorem State.verdict_bad {reason : Deny} (bad : evaluate s.site s.clock s.revs c = some reason) : s.verdict c = .error reason := by
  unfold State.verdict
  rw [bad]

/-- The card is the good current card of a room (R90). -/
def State.CurrentIn (s : State) (c : List Byte) (r : Fin 48) : Prop :=
  evaluate s.site s.clock s.revs c = none ∧ cardClass c = 1 ∧ cardRoom c = r.val ∧
    cardGeneration c = s.rooms[r].generation ∧ copyIn s.rooms[r].issued (cardCopy c) = true

theorem State.currentCardOf_iff (s : State) (r : Fin 48) (c : List Byte) : s.currentCardOf r c = true ↔ s.CurrentIn c r := by
  unfold State.currentCardOf State.CurrentIn
  cases verdict : evaluate s.site s.clock s.revs c with
  | some reason =>
    rw [State.verdict_bad verdict]
    exact iff_of_false nofun nofun
  | none =>
    obtain ⟨cls, ok, code⟩ := State.verdict_good verdict
    rw [ok]
    by_cases guest : cls = .guest
    · subst guest
      simp [← code, CardClass.code, and_assoc]
    · have other : cardClass c ≠ 1 := fun one => guest ((CardClass.guest_iff code).2 one)
      cases cls with
      | guest => exact absurd rfl guest
      | staff | service | emergency => exact iff_of_false nofun fun h => other h.2.1

theorem State.currentGuest_iff (s : State) (c : List Byte) :
    s.currentGuest c = true ↔ ∃ r : Fin 48, cardRoom c = r.val ∧ cardGeneration c = s.rooms[r].generation ∧
      copyIn s.rooms[r].issued (cardCopy c) = true ∧ (s.rooms[r].state = .occupied ∨ s.rooms[r].state = .overstay) := by
  unfold State.currentGuest State.cardRoomRecord
  by_cases named : cardRoom c < 48
  · obtain ⟨r, hr⟩ : ∃ r : Fin 48, cardRoom c = r.val := ⟨⟨_, named⟩, rfl⟩
    rw [hr, asFin_val]
    simp only [Option.map_some, Bool.and_eq_true, RoomState.inStay_iff, decide_eq_true_eq]
    refine ⟨fun ⟨⟨stay, generation⟩, copy⟩ => ⟨r, rfl, generation, copy, stay⟩, ?_⟩
    rintro ⟨k, same, generation, copy, stay⟩
    cases Fin.ext same
    exact ⟨⟨stay, generation⟩, copy⟩
  · rw [asFin_none (Nat.not_lt.1 named)]
    exact iff_of_false nofun fun ⟨r, hr, _⟩ => named (hr ▸ r.isLt)

theorem State.cardInUse_iff (s : State) (c : List Byte) :
    s.cardInUse c = true ↔ (evaluate s.site s.clock s.revs c = none ∧ 2 ≤ cardClass c ∧ cardClass c ≤ 4) ∨
      ∃ r : Fin 48, s.CurrentIn c r ∧ (s.rooms[r].state = .occupied ∨ s.rooms[r].state = .overstay) := by
  unfold State.cardInUse State.CurrentIn
  cases verdict : evaluate s.site s.clock s.revs c with
  | some reason =>
    rw [State.verdict_bad verdict]
    exact iff_of_false nofun (by simp)
  | none =>
    obtain ⟨cls, ok, code⟩ := State.verdict_good verdict
    rw [ok]
    cases cls with
    | guest =>
      rw [show cardClass c = 1 from code.symm]
      refine (s.currentGuest_iff c).trans ⟨?_, ?_⟩
      · rintro ⟨r, room, generation, copy, stay⟩
        exact .inr ⟨r, ⟨rfl, rfl, room, generation, copy⟩, stay⟩
      · rintro (⟨-, other, -⟩ | ⟨r, ⟨-, -, room, generation, copy⟩, stay⟩)
        · exact absurd other (by decide)
        · exact ⟨r, room, generation, copy, stay⟩
    | staff | service | emergency =>
      rw [← code]
      exact iff_of_true rfl (.inl ⟨rfl, by decide, by decide⟩)

theorem State.readVerdict_eq (s : State) (c : List Byte) :
    s.readVerdict c =
      (((evaluate s.site s.clock s.revs c).or (if cardClass c = 1 then s.ownRoomCheck c else none)).map Deny.code).getD 0 := by
  unfold State.readVerdict
  cases verdict : evaluate s.site s.clock s.revs c with
  | some reason =>
    rw [State.verdict_bad verdict]
    rfl
  | none =>
    obtain ⟨cls, ok, code⟩ := State.verdict_good verdict
    rw [ok, Option.none_or]
    cases cls with
    | guest => rw [if_pos (show cardClass c = 1 from code.symm)]
    | staff | service | emergency =>
      rw [if_neg (by rw [← code]; decide)]
      rfl

/-- Bytes of an image that lie within it. -/
theorem bytesAt_eq {c : List Byte} {i n : Nat} (within : i + n ≤ c.length) : bytesAt c i n = (c.drop i).take n := by
  refine List.ext_getElem (by simp [bytesAt]; omega) fun k h _ => ?_
  have few : k < n := by simpa [bytesAt] using h
  simp only [bytesAt, List.getElem_map, List.getElem_range, List.getElem_take, List.getElem_drop]
  rw [List.getD_eq_getElem?_getD, List.getElem?_eq_getElem (by omega)]
  rfl

theorem State.readCardData_eq (s : State) {c : List Byte} (full : c.length = 20) :
    s.readCardData (some c) =
      byteOf ((if c = List.replicate 20 0 then 2 else 0) + (if cardClass c = 0xEE then 4 else 0)) ::
        byteOf ((((evaluate s.site s.clock s.revs c).or (if cardClass c = 1 then s.ownRoomCheck c else none)).map Deny.code).getD 0) ::
          (c.drop 2).take 16 := by
  have blank : 2 * flagBit (isBlank c) = if c = List.replicate 20 0 then 2 else 0 := by
    unfold isBlank blankImage flagBit
    by_cases h : c = List.replicate 20 0 <;> simp [h]
  have spoiled : 4 * flagBit (isSpoiled c) = if cardClass c = 0xEE then 4 else 0 := by
    unfold isSpoiled flagBit
    by_cases h : cardClass c = 0xEE <;> simp [h]
  unfold State.readCardData
  dsimp only
  rw [blank, spoiled, s.readVerdict_eq, bytesAt_eq (by omega)]

end

end Sys2Proof.Machine

namespace Sys2Proof.Machine

open Sys2Proof

/-! ## A card taken, by the kind of the order (R91, R92) -/

/-- An advance of a room at the encoder (R19, R71): the generation moves, the list loses the room's entry, and nothing else changes. -/
def State.AdvancesTo (s : State) (r : Fin 48) (generation : Nat) (t : State) : Prop :=
  t.rooms = s.rooms.set r { s.rooms[r] with generation := generation, issued := 0 } ∧ t.minibars = s.minibars ∧ t.held = s.held ∧
  t.journal = s.journal ∧ ∀ e, e ∈ t.revs ↔ e ∈ s.revs ∧ ∀ g m, e ≠ RevEntry.guest r g m

theorem mem_notOfRoom {revs : List RevEntry} {r : Fin 48} (e : RevEntry) :
    e ∈ revs.filter (RevEntry.notOfRoom r) ↔ e ∈ revs ∧ ∀ g m, e ≠ RevEntry.guest r g m := by
  rw [List.mem_filter]
  refine and_congr_right fun _ => ?_
  cases e with
  | staff n u => exact iff_of_true rfl nofun
  | guest k g m =>
    unfold RevEntry.notOfRoom
    rw [decide_eq_true_eq]
    refine ⟨fun other g' m' same => ?_, fun other same => ?_⟩
    · cases same
      exact other rfl
    · subst same
      exact other g m rfl

theorem State.advance_advancesTo (s : State) (r : Fin 48) {t : State} (kept : (s.advance r id).KeepsCards t) :
    s.AdvancesTo r ((s.rooms[r].generation + 1) % 256) t := by
  obtain ⟨rooms, revs, minibars, held, journal⟩ := kept
  refine ⟨rooms, minibars, held, journal, fun e => ?_⟩
  rw [revs]
  exact mem_notOfRoom e

section
variable {s : State} {o : EncOrder} {c : Instr} {found : Option (List Byte)} {r : Fin 48}

theorem State.Finds.newStay_advances (finds : s.Finds c o found) (free : s.encAnswered.cardRefused o found = none)
    (job : o.job = .issue .newStay) (room : o.room = some r) (first : o.advanced = false) (vacant : s.rooms[r].state = .vacant) :
    s.Builds c { o with found := found, generation := some ((s.rooms[r].generation + 1) % 256), advanced := true }
      (s.AdvancesTo r ((s.rooms[r].generation + 1) % 256)) := by
  have run := (State.cardFound_issue job nofun free).trans
    (State.cardArrived_advances (s := s.encAnswered) (o := { o with found := found }) job room first vacant)
  exact finds.builds run rfl rfl rfl fun t kept => s.encAnswered.advance_advancesTo r kept

theorem State.Finds.newStay_refused (finds : s.Finds c o found) (free : s.encAnswered.cardRefused o found = none)
    (job : o.job = .issue .newStay) (room : o.room = some r) (first : o.advanced = false) (taken : s.rooms[r].state ≠ .vacant) :
    s.Ejects c { o with found := found } .roomState s.KeepsCards := by
  have run := (State.cardFound_issue job nofun free).trans
    (State.cardArrived_occupied (s := s.encAnswered) (o := { o with found := found }) job room first taken)
  exact finds.ejects run rfl fun t kept => kept

/-- A card of an ISSUE that goes on, where the work has come to the arrival of the order `q`. -/
theorem State.Finds.again (finds : s.Finds c o found) {q p : EncOrder} (arrived : s.encAnswered.cardFound o found = s.encAnswered.cardArrived q)
    (later : q.job = .issue .newStay → q.advanced = true) (starts : s.encAnswered.cardStart q true = .ok p) : s.Builds c p s.KeepsCards :=
  finds.builds (arrived.trans (State.cardArrived_builds later starts)) rfl rfl rfl fun _ kept => kept

theorem State.Finds.againRefused (finds : s.Finds c o found) {q : EncOrder} {res : Result}
    (arrived : s.encAnswered.cardFound o found = s.encAnswered.cardArrived q) (later : q.job = .issue .newStay → q.advanced = true)
    (refused : s.encAnswered.cardStart q true = .error res) : s.Ejects c q res s.KeepsCards :=
  finds.ejects (arrived.trans (State.cardArrived_refused later refused)) rfl fun _ kept => kept

theorem State.Finds.newStay_again (finds : s.Finds c o found) (free : s.encAnswered.cardRefused o found = none)
    (job : o.job = .issue .newStay) (room : o.room = some r) (advanced : o.advanced = true) :
    (s.roomMeets o → s.Builds c { o with found := found, copy := o.cardsDone + 1 } s.KeepsCards) ∧
      (¬ s.roomMeets o → s.Ejects c { o with found := found } .roomState s.KeepsCards) := by
  have arrived := State.cardFound_issue job nofun free
  obtain ⟨fits, misfit⟩ := State.roomFits_newStay (s := s.encAnswered) (o := { o with found := found }) job room advanced
  have copy : s.encAnswered.copyFor { o with found := found } true = some (o.cardsDone + 1) := by
    unfold State.copyFor
    dsimp only
    rw [job]
  exact ⟨fun meets => finds.again arrived (fun _ => advanced) (State.cardStart_ok (fits meets) copy),
    fun no => finds.againRefused arrived (fun _ => advanced) (State.cardStart_error (misfit no))⟩

theorem State.Finds.addCopy (finds : s.Finds c o found) (free : s.encAnswered.cardRefused o found = none)
    (job : o.job = .issue .addCopy) (room : o.room = some r) :
    let copied (k : Nat) : Prop := s.Builds c { o with found := found, generation := some s.rooms[r].generation, copy := k } s.KeepsCards
    (¬ s.roomMeets o → s.Ejects c { o with found := found } .roomState s.KeepsCards) ∧
      (s.roomMeets o → copyIn s.rooms[r].issued o.copy = false → copied o.copy) ∧
      (s.roomMeets o → copyIn s.rooms[r].issued o.copy = true →
        (∀ k, 1 ≤ k → k ≤ 8 → copyIn s.rooms[r].issued k = false → (∀ j, 1 ≤ j → j < k → copyIn s.rooms[r].issued j = true) → copied k) ∧
        ((∀ k, 1 ≤ k → k ≤ 8 → copyIn s.rooms[r].issued k = true) → s.Ejects c { o with found := found } .noCopy s.KeepsCards)) := by
  intro copied
  have arrived := State.cardFound_issue job nofun free
  have later : ({ o with found := found } : EncOrder).job = .issue .newStay → o.advanced = true := fun other => by cases job.symm.trans other
  obtain ⟨fits, misfit⟩ := State.roomFits_inStay (s := s.encAnswered) (o := { o with found := found }) job (.inl rfl) room
  have copy := State.copyFor_addCopy (s := s.encAnswered) (o := { o with found := found }) job room
  have goes (meets : s.roomMeets o) {k : Nat} (next : s.encAnswered.copyFor { o with found := found } true = some k) : copied k :=
    finds.again arrived later (State.cardStart_ok (fits meets) next)
  refine ⟨fun no => finds.againRefused arrived later (State.cardStart_error (misfit no)),
    fun meets own => goes meets (copy.trans (if_pos own)), fun meets used => ⟨fun k low high free_ below => ?_, fun full => ?_⟩⟩
  · exact goes meets ((copy.trans (if_neg (by rw [show copyIn s.encAnswered.rooms[r].issued _ = true from used]; nofun))).trans
      (lowestFreeCopy_some low high free_ below))
  · refine finds.againRefused arrived later (State.cardStart_full (fits meets) ((copy.trans (if_neg ?_)).trans (lowestFreeCopy_none full)))
    rw [show copyIn s.encAnswered.rooms[r].issued _ = true from used]
    nofun

theorem State.Finds.staff (finds : s.Finds c o found) (free : s.encAnswered.cardRefused o found = none) (job : o.job = .issue .staff) :
    s.Builds c { o with found := found, copy := 1 } s.KeepsCards := by
  have fits : s.encAnswered.roomFits { o with found := found } = some o.generation := by
    unfold State.roomFits
    dsimp only
    rw [job]
  have copy : s.encAnswered.copyFor { o with found := found } true = some 1 := by
    unfold State.copyFor
    dsimp only
    rw [job]
  exact finds.again (State.cardFound_issue job nofun free) (fun other => by cases job.symm.trans other) (State.cardStart_ok fits copy)

theorem State.Finds.erase (finds : s.Finds c o found) (free : s.encAnswered.cardRefused o found = none) (job : o.job = .eraseCard) :
    ∃ t, exec c s = .next t ∧ s.KeepsCards t ∧ t.serial = s.serial ∧
      t.Sending (.write (List.replicate 20 0)) (.writing 1) { o with found := found, image := List.replicate 20 0 } := by
  obtain ⟨t, step, sent⟩ := finds _ _ _ _ (State.cardFound_erase job free)
  exact ⟨t, step, sent.keeps, sent.serial, sent.sending⟩

theorem State.Finds.readCard (finds : s.Finds c o found) (job : o.job = .readCard) :
    s.Ejects c { o with found := found, readData := s.readCardData found, cardsDone := 1 } .ok s.KeepsCards :=
  finds.ejects (State.cardFound_read job (State.cardRefused_read job)) rfl fun _ kept => kept

theorem State.Finds.refused (finds : s.Finds c o found) {res : Result} (no : s.encAnswered.cardRefused o found = some res) :
    s.Ejects c { o with found := found } res s.KeepsCards :=
  finds.ejects (State.cardFound_refused no) rfl fun _ kept => kept

theorem State.Finds.rewrite {image : List Byte} (finds : s.Finds c o (some image)) (job : o.job = .issue .rewrite) (room : o.room = some r) :
    (¬ s.CurrentIn image r → s.Ejects c { o with found := some image } .wrongCard s.KeepsCards) ∧
    (s.CurrentIn image r → ¬ s.roomMeets o → s.Ejects c { o with found := some image, copy := cardCopy image } .roomState s.KeepsCards) ∧
    (s.CurrentIn image r → s.roomMeets o →
      s.Builds c { o with found := some image, generation := some s.rooms[r].generation, copy := cardCopy image } s.KeepsCards) := by
  have tested := State.cardRefused_rewrite (v := s.encAnswered) job room image
  have current : s.encAnswered.currentCardOf r image = true ↔ s.CurrentIn image r := s.encAnswered.currentCardOf_iff r image
  have arrived (here : s.CurrentIn image r) := State.cardFound_rewrite job (tested.trans (if_pos (current.2 here)))
  have later : ({ o with found := some image, copy := cardCopy image } : EncOrder).job = .issue .newStay → o.advanced = true :=
    fun other => by cases job.symm.trans other
  obtain ⟨fits, misfit⟩ :=
    State.roomFits_inStay (s := s.encAnswered) (o := { o with found := some image, copy := cardCopy image }) job (.inr rfl) room
  have copy : s.encAnswered.copyFor { o with found := some image, copy := cardCopy image } true = some (cardCopy image) := by
    unfold State.copyFor
    dsimp only
    rw [job]
    rfl
  exact ⟨fun other => finds.refused (tested.trans (if_neg (mt current.1 other))),
    fun here no => finds.againRefused (arrived here) later (State.cardStart_error (misfit no)),
    fun here meets => finds.again (arrived here) later (State.cardStart_ok (fits meets) copy)⟩

end

end Sys2Proof.Machine

namespace Sys2Proof.Machine

open Sys2Proof

/-! ## A card arrives at the encoder -/

section
variable {v : State} {o : EncOrder} {found : Option (List Byte)}

theorem State.cardRefused_free (fits : v.usedCard found = false ∨ (o.job = .eraseCard ∧ o.force = true)) (other : o.job ≠ .issue .rewrite) :
    v.cardRefused o found = none := by
  cases job : o.job with
  | readCard => exact State.cardRefused_read job
  | eraseCard =>
    rw [State.cardRefused_erase job]
    rcases fits with unused | ⟨-, force⟩
    · rw [unused]
      rfl
    · rw [force, Bool.not_true, Bool.and_false]
      rfl
  | issue mode =>
    rw [State.cardRefused_issue job fun same => other (job.trans (congrArg EncJob.issue same))]
    rcases fits with unused | ⟨erase, -⟩
    · rw [unused]
      rfl
    · cases job.symm.trans erase

theorem State.cardRefused_used (used : v.usedCard found = true)
    (strict : (∃ mode, mode ≠ .rewrite ∧ o.job = .issue mode) ∨ (o.job = .eraseCard ∧ o.force = false)) :
    v.cardRefused o found = some .cardInUse := by
  rcases strict with ⟨mode, other, job⟩ | ⟨job, force⟩
  · exact (State.cardRefused_issue job other).trans (if_pos used)
  · rw [State.cardRefused_erase job, used, force]
    rfl

end

/-- Settles O36, by the test of the card found and then by the kind of the order. -/
theorem cardArrives : Obligations.CardArrives := by
  unfold Obligations.CardArrives
  intro s x o open_ read late keeps ejects builds taken reads
  have takes {c : Instr} {found : Option (List Byte)} (finds : s.Finds c o found)
      (free : o.job ≠ .issue .rewrite → s.encAnswered.cardRefused o found = none) : taken c found := by
    refine ⟨fun r room => ?_, fun job => ?_, fun job => ?_⟩
    · refine ⟨fun job first => ⟨fun vacant => ?_, fun other => ?_⟩, fun job advanced => ?_, fun job => ?_⟩
      · exact finds.newStay_advances (free (by rw [job]; nofun)) job room first vacant
      · exact finds.newStay_refused (free (by rw [job]; nofun)) job room first other
      · exact finds.newStay_again (free (by rw [job]; nofun)) job room advanced
      · exact finds.addCopy (free (by rw [job]; nofun)) job room
    · exact finds.staff (free (by rw [job]; nofun)) job
    · exact finds.erase (free (by rw [job]; nofun)) job
  refine ⟨fun image full => ?_, ?_, fun job => ?_, fun job room => ?_⟩
  · intro q current ownRoom verdict inStay inUse
    have finds := open_.finds_image read full
    have used : s.encAnswered.usedCard (some image) = true ↔ inUse := s.cardInUse_iff image
    refine ⟨fun inUse strict => finds.refused (State.cardRefused_used (used.2 inUse) strict), fun fits => ?_,
      fun r job room => finds.rewrite job room, fun job => ?_⟩
    · exact takes finds (State.cardRefused_free (fits.imp_left fun unused => Bool.eq_false_iff.2 (mt used.1 unused)))
    · have data := s.readCardData_eq full
      rw [s.ownRoomCheck_eq] at data
      exact data ▸ finds.readCard job
  · exact takes (open_.finds_none read) (State.cardRefused_free (.inl rfl))
  · exact (open_.finds_none read).readCard job
  · obtain ⟨r, room⟩ := Option.isSome_iff_exists.1 room
    exact (open_.finds_none read).refused (State.cardRefused_unreadable job room)

end Sys2Proof.Machine
